-- ==== Sys2Proof/Word.lean ====
section
/-! DEFINITION. The plain words of the model: bytes, the functions and agents that send commands, the outcome of a
read that the device makes in host memory, and the blocks whose pages carry registers (spec/03_register_pages.md). -/

namespace Sys2Proof

/-- One byte. -/
abbrev Byte := BitVec 8

/-- A register word, 64 bits, little-endian (spec/00_scope.md, Table — Notation). -/
abbrev Word := BitVec 64

/-- A PCI Express function of the part: the PF, or the VF of one polder (R41). -/
inductive Fn where
  | pf
  | vf (p : Fin 16)
  deriving DecidableEq, Repr

/-- The owner index of a function: polder p is p, the PF is 16. -/
def Fn.idx : Fn → Nat
  | .pf => 16
  | .vf p => p.val

/-- An agent that takes part in the hasps (R423): a function, or the MGC through its own port. -/
inductive Agent where
  | fn (f : Fn)
  | mgc
  deriving DecidableEq, Repr

/-- How a read that the device made in host memory ended (R120, R134). `notIssued`: Bus Master Enable is 0. -/
inductive Cpl where
  | ok
  | unsupported
  | aborted
  | poisoned
  | notIssued
  deriving DecidableEq, Repr

/-- What the ECC of an engine's own storage finds during a command (R439): nothing, a corrected error, or an
uncorrectable one. -/
inductive Flaw where
  | none
  | corrected
  | uncorrectable
  deriving DecidableEq, Repr

/-- What a gather meets beside its data (R241, R251, R439): vaults whose partial sum disagrees with its residue at
a merge-tree input, with the two residues; a mismatch at the pool finisher; cached lines whose ECC finds an
uncorrectable error. -/
structure GatherEv where
  residue : List (Nat × Nat × Nat) := []
  finisher : Bool := false
  badLines : List Nat := []
  deriving DecidableEq, Repr

/-- What an SPDM session with the peer of a Causeway port ends with (R362, R368, R369): the hash of the certificate in
which the peer's chain ends, whether its signature is good, the device ID in its leaf, whether some step returned an error,
and the keys and salts of the two directions. -/
structure Session where
  anchor : List Byte
  signed : Bool
  leaf : BitVec 8
  error : Bool
  txKey : List Byte
  txSalt : List Byte
  rxKey : List Byte
  rxSalt : List Byte
  deriving DecidableEq, Repr

/-- How far the MGC gets with a mailbox request before its next reset (R486, R495, R496): it accepts the request; it
writes the next key row; it is interrupted within the write of the log entry; it writes the entry; it answers. -/
inductive MbxCut where
  | accepted
  | keyRow
  | torn
  | entry
  | done
  deriving DecidableEq, Repr

/-- The part of host memory that a page-table walk reads: bus address and the 64-bit entry there, or none when the
read fails (R134). An address that is not listed reads as an entry of 0, which is not present. -/
abbrev HostTable := List (Nat × Option Nat)

/-- The blocks that carry pages (R52, Table — Block type codes). POLDER page 1 and the HOST page carry the same
owner-page registers, so both are the block `owner`, at the owner's index; the page of the PF is instance 16. -/
inductive Block where
  | directory | clock | reset | power | junction | pinmux | hasp | hallmark | patina | counters | assayCentral
  | reeve | mmu | fence | polder | owner | ctx | queue | tower | weir | dredge | hummock | solder | anvil
  | planisher | assay | punch | riddle | tarn | ladle | causeway
  deriving DecidableEq, Repr

/-- A number for each block, the leading part of a field's key. -/
def Block.code : Block → Nat
  | .directory => 0 | .clock => 1 | .reset => 2 | .power => 3 | .junction => 4 | .pinmux => 5 | .hasp => 6
  | .hallmark => 7 | .patina => 8 | .counters => 9 | .assayCentral => 10 | .reeve => 11 | .mmu => 12 | .fence => 13
  | .polder => 14 | .owner => 15 | .ctx => 16 | .queue => 17 | .tower => 18 | .weir => 19 | .dredge => 20
  | .hummock => 21 | .solder => 22 | .anvil => 23 | .planisher => 24 | .assay => 25 | .punch => 26 | .riddle => 27
  | .tarn => 28 | .ladle => 29 | .causeway => 30

/-- The kinds of object that `PLD_ASSIGN` passes between owners (spec/04, Table — `PLD_ASSIGN`). -/
inductive ObjKind where
  | context | queue | fenceBlock | mobjBlock | extent
  deriving DecidableEq, Repr

/-- The operations that run in steps (R432), by the command register that starts them, and their instance. -/
inductive OpKind where
  | pln | rv | ep | pld | mob | inv | tbl | hmk | twr | fnc | asy | trust
  deriving DecidableEq, Repr

/-- A long operation is named by its command register and the page that carries it. -/
structure OpSel where
  kind : OpKind
  inst : Nat
  deriving DecidableEq, Repr

end Sys2Proof
end

