-- ==== Sys2Proof/Syntax.lean ====
section
/-! DEFINITION. The commands of the part: one constructor for each row of spec/opcode_table.json, with the operands the
command carries. Words that the part reads in host memory while it carries out a command (a plan image, page-table
entries, a staged payload) are operands of that command or of the step that reads them (notes/assumptions/1.md). -/

namespace Sys2Proof

/-- A command: a write or read of a register, an event on a pin or a link, a message of a management protocol, or a
timed event of the part itself. -/
inductive Instr where
  /-- DOORBELL_WRITE: A write to a queue's doorbell area delivers a run block, which is checked in the order of the acceptance checks and either dropped, failed or queued. (R90) -/
  | doorbellWrite (fn : Fn) (page : Nat) (off : Nat) (data : List Byte)
  /-- DEFERRED_CHECK_COMPLETE: When an invalidation hold lifts, a run's deferred check 8 and then check 7 complete, and the run either takes its berth holds or fails. (R152) -/
  | deferredCheckComplete (run : Nat)
  /-- STAGING_START: Once a payload fits in the owner's staging buffer, the Isovoner starts reading it, in acceptance order. (R118) -/
  | stagingStart (fn : Fn)
  /-- STAGING_COMPLETE: The last staging read of a run completes, and the input berth header returns to HOST. (R121) -/
  | stagingComplete (run : Nat) (data : List Byte)
  /-- STAGING_READ_FAILED: A Staithe read completes with UR, CA or poison, or cannot issue, and its run fails with E_POISON. (R120) -/
  | stagingReadFailed (run : Nat) (how : Cpl)
  /-- FENCE_REARM: An 8-byte write with bit 0 = 0 to a fence word re-arms a SIGNALLED fence, and is ignored and counted on a HELD one. (R95) -/
  | fenceRearm (fn : Fn) (block : Fin 128) (word : Fin 512) (data : Word)
  /-- REGISTER_WRITE: A write to a register that has no row of its own behaves as its field access types give, subject to the size, lock and illegal-value rules. (R44) -/
  | registerWrite (fn : Fn) (bar2 : Bool) (page : Nat) (off : Nat) (data : List Byte)
  /-- BAR4_ACCESS: An access to BAR4 is performed on the MSI-X table or PBA when aligned and in range, and is otherwise not performed. (R534) -/
  | bar4Access (fn : Fn) (write : Bool) (off : Nat) (data : List Byte)
  /-- HASP_ACQUIRE: An 8-byte read of HSP_ACQUIREn tries to acquire hasp n and returns the outcome. (R422) -/
  | haspAcquire (who : Agent) (n : Fin 64)
  /-- HASP_RELEASE: A holder's write of RELEASE = 1 to HSP_ACQUIREn frees the hasp. (R422) -/
  | haspRelease (who : Agent) (n : Fin 64)
  /-- PLD_CREATE: CREATE moves a FREE polder to CONFIGURING and advances its GEN. (R71) -/
  | pldCreate (fn : Fn) (p : Fin 16) (fence : Option Nat)
  /-- PLD_ACTIVATE: ACTIVATE moves a CONFIGURING polder to ACTIVE, with admission from the next frame boundary. (R71) -/
  | pldActivate (fn : Fn) (p : Fin 16) (fence : Option Nat)
  /-- PLD_DESTROY: DESTROY moves a polder to ZEROING or DRAINING and fails its queued runs. (R71) -/
  | pldDestroy (fn : Fn) (p : Fin 16) (fence : Option Nat)
  /-- PLD_ZERO: ZERO resumes a halted zeroing of the polder. (R71) -/
  | pldZero (fn : Fn) (p : Fin 16) (fence : Option Nat)
  /-- PLD_ABORT: ABORT halts a zeroing at the next step boundary and signals E_ABORTED on the starting command's fence. (R71) -/
  | pldAbort (fn : Fn) (p : Fin 16) (fence : Option Nat)
  /-- PLD_ASSIGN: A PLD_ASSIGN with RELEASE = 0 assigns consecutive objects of one kind to the polder, in ascending index order. (R68) -/
  | pldAssign (fn : Fn) (p : Fin 16) (kind : ObjKind) (index : Nat) (count : Nat) (ctx : Fin 256)
  /-- PLD_RELEASE: A PLD_ASSIGN with RELEASE = 1 releases consecutive objects from the polder, refusing those in use. (R69) -/
  | pldRelease (fn : Fn) (p : Fin 16) (kind : ObjKind) (index : Nat) (count : Nat)
  /-- POLDER_DRAIN_COMPLETE: A DRAINING polder with no step in flight moves to ZEROING. (R71) -/
  | polderDrainComplete (p : Fin 16)
  /-- POLDER_CLEARING_DONE: A RESETTING polder finishes clearing and returns to ACTIVE or CONFIGURING, or starts zeroing. (R71) -/
  | polderClearingDone (p : Fin 16)
  /-- POLDER_ZEROING_COMPLETE: A polder zeroing completes: a ZEROING polder becomes FREE, or a RESETTING one returns to its earlier state. (R71) -/
  | polderZeroingComplete (p : Fin 16)
  /-- RESOURCE_ZEROING_DONE: The zeroing of a released extent, way or Mere unit ends, and it becomes clean and free to pass. (R543) -/
  | resourceZeroingDone
  /-- MGC_ZERO_ORDER: A change of JCT_ZERO.MGC_REQ bit p from 0 to 1 performs a FUNCTION reset of polder p with zeroing. (R39) -/
  | mgcZeroOrder (p : Fin 16)
  /-- TDISP_GET_TDISP_VERSION: GET_TDISP_VERSION returns the TDISP version supported. (R81) -/
  | tdispGetTdispVersion (p : Fin 16)
  /-- TDISP_GET_TDISP_CAPABILITIES: GET_TDISP_CAPABILITIES returns the device's TDISP capabilities. (R81) -/
  | tdispGetTdispCapabilities (p : Fin 16)
  /-- TDISP_LOCK_INTERFACE_REQUEST: LOCK_INTERFACE_REQUEST invalidates PF translations into the polder, waits for their runs to drain, and locks the VF. (R82) -/
  | tdispLockInterfaceRequest (p : Fin 16) (ideBound : Bool)
  /-- TDISP_GET_DEVICE_IF_REPORT: GET_DEVICE_INTERFACE_REPORT returns the VF's BARs and polder configuration registers. (R81) -/
  | tdispGetDeviceIfReport (p : Fin 16)
  /-- TDISP_GET_DEVICE_IF_STATE: GET_DEVICE_INTERFACE_STATE returns the VF's TDISP state. (R81) -/
  | tdispGetDeviceIfState (p : Fin 16)
  /-- TDISP_START_INTERFACE_REQUEST: START_INTERFACE_REQUEST moves a CONFIG_LOCKED VF to RUN, and its runs are admitted again. (R84) -/
  | tdispStartInterfaceRequest (p : Fin 16)
  /-- TDISP_STOP_INTERFACE_REQUEST: STOP_INTERFACE_REQUEST zeroes the polder's memory and returns TDISP to CONFIG_UNLOCKED. (R85) -/
  | tdispStopInterfaceRequest (p : Fin 16)
  /-- IDE_FAILURE: An IDE failure on the VF's stream moves TDISP to ERROR and fails the polder's queued runs. (R85) -/
  | ideFailure (p : Fin 16)
  /-- CTX_RESET: CTX_CMD RESET fails the context's runs with E_CONTEXT_RESET and empties its queues. (R89) -/
  | ctxReset (fn : Fn) (c : Fin 256)
  /-- FNC_BLOCK_RESET: BLOCK_RESET writes 0 to each ARMED or SIGNALLED fence of a block and skips HELD fences, as a long operation. (R107) -/
  | fncBlockReset (fn : Fn) (block : Fin 128) (fence : Option Nat)
  /-- MSIX_COALESCE_TIMEOUT: COAL_TICKS after the first un-notified fence signal, the coalesced MSI-X message is sent. (R103) -/
  | msixCoalesceTimeout (c : Fin 256)
  /-- MOB_WRITE: MOB_CMD WRITE registers a memory object by walking its range as a long operation. (R138) -/
  | mobWrite (fn : Fn) (slot : Nat) (fence : Option Nat)
  /-- MOB_CLEAR: MOB_CMD CLEAR invalidates the slot's range and frees the slot and its entries. (R139) -/
  | mobClear (fn : Fn) (slot : Nat) (fence : Option Nat)
  /-- MOB_RESUME: MOB_CMD RESUME continues a halted memory-object command. (R139) -/
  | mobResume (fn : Fn) (fence : Option Nat)
  /-- MOB_ABORT: MOB_CMD ABORT ends a memory-object command at its next step boundary. (R139) -/
  | mobAbort (fn : Fn) (fence : Option Nat)
  /-- FLT_RETRY: FLT_RESUME RETRY re-walks the page of one pending fault. (R148) -/
  | fltRetry (fn : Fn) (c : Fin 256) (id : Nat) (pt : HostTable)
  /-- FLT_RETRY_ALL: FLT_RESUME RETRY_ALL re-walks every pending fault of the context. (R148) -/
  | fltRetryAll (fn : Fn) (c : Fin 256) (pt : HostTable)
  /-- FLT_FAIL: FLT_RESUME FAIL fails every run waiting on the named fault with E_FAULT_UNSERVICED. (R148) -/
  | fltFail (fn : Fn) (c : Fin 256) (id : Nat)
  /-- FAULT_FILL: A re-walk fills a faulting page, and stalled steps resume at the second tick boundary after the fill. (R146) -/
  | faultFill (c : Fin 256) (id : Nat) (pt : HostTable)
  /-- FAULT_ALLOWANCE_EXPIRY: A run's stalled ticks reach the lode's fault allowance while a step is still stalled, and the run fails with E_FAULT_UNSERVICED. (R147) -/
  | faultAllowanceExpiry (run : Nat)
  /-- INV_INVALIDATE: INV_CMD INVALIDATE holds, drains, flushes and re-walks a VA range as a long operation. (R150) -/
  | invInvalidate (fn : Fn) (c : Fin 256) (pages : Nat) (fence : Option Nat)
  /-- INV_RESUME: INV_CMD RESUME continues a halted invalidation. (R153) -/
  | invResume (fn : Fn) (c : Fin 256) (fence : Option Nat)
  /-- INV_ABORT: INV_CMD ABORT ends an invalidation, leaving the store as before or with holes, as the phase gives. (R153) -/
  | invAbort (fn : Fn) (c : Fin 256) (fence : Option Nat)
  /-- INV_DRAIN_END: No admitted run holds an entry in the held range any longer, and the flush step follows. (R150) -/
  | invDrainEnd (c : Fin 256)
  /-- LONG_OP_STEP: A long operation commits one step of at most 200 ticks, and its final step commits the operation's outcome and fence. (R427) -/
  | longOpStep (op : OpSel) (amount : Nat) (pt : HostTable)
  /-- PLN_LOAD: PLN_CMD LOAD reads, validates and stages a plan image from the loader's Staithe. (R181) -/
  | plnLoad (fn : Fn) (fence : Option Nat) (image : List Byte) (cpl : Cpl)
  /-- PLN_UNLOAD: PLN_CMD UNLOAD stages an empty plan. (R183) -/
  | plnUnload (fn : Fn) (fence : Option Nat)
  /-- PLN_RESUME: PLN_CMD RESUME continues a halted plan load. (R430) -/
  | plnResume (fn : Fn) (fence : Option Nat)
  /-- PLN_ABORT: PLN_CMD ABORT ends a plan load, leaving the plan in force and any staged plan unchanged. (R428) -/
  | plnAbort (fn : Fn) (fence : Option Nat)
  /-- RV_LOAD: RV_CMD LOAD reads, validates and stages a frame image. (R181) -/
  | rvLoad (fn : Fn) (fence : Option Nat) (image : List Byte) (cpl : Cpl)
  /-- RV_COMMIT: RV_CMD COMMIT arms a switch to the staged frame. (R183) -/
  | rvCommit (fn : Fn) (dropUnfit : Bool) (fence : Option Nat)
  /-- RV_RESUME: RV_CMD RESUME continues a halted frame load. (R430) -/
  | rvResume (fn : Fn) (fence : Option Nat)
  /-- RV_ABORT: RV_CMD ABORT ends a frame load and leaves the frame in force unchanged. (R428) -/
  | rvAbort (fn : Fn) (fence : Option Nat)
  /-- RV_DISCARD: RV_CMD DISCARD drops the staged frame. (R183) -/
  | rvDiscard (fn : Fn) (fence : Option Nat)
  /-- FRAME_BOUNDARY: At a frame boundary, switches, level and tier changes take effect in order, and the failures they cause follow. (R533) -/
  | frameBoundary
  /-- SAMPLE_POINT: 64 ticks before a boundary, the Reeve samples the effective level and the raw tier for that boundary and raises events. (R35) -/
  | samplePoint
  /-- FIRST_FRAME_START: After a reset, the first committed frame takes effect at a multiple of 64 at least 64 ticks after the commit. (R188) -/
  | firstFrameStart
  /-- LEVEL_APPLY_NO_FRAME: With no frame in force, a pending level change applies at its apply tick. (R396) -/
  | levelApplyNoFrame
  /-- TIER_APPLY_NO_FRAME: With no frame in force, a pending tier change applies at its apply tick. (R208) -/
  | tierApplyNoFrame
  /-- ADMISSION_WINDOW: At a lode's window, the Reeve admits or fails each head-of-queue run that names the lode. (R171) -/
  | admissionWindow (fn : Fn) (lode : Nat)
  /-- ADMISSION_TIMEOUT: A run neither admitted nor failed by A + MAX_WAIT fails with E_ADMISSION_TIMEOUT. (R173) -/
  | admissionTimeout (run : Nat)
  /-- STEP_START: A step of an admitted run starts at its planned tick, or earlier in an OPEN polder once its predecessors complete. (R174) -/
  | stepStart (run : Nat) (step : Nat)
  /-- STEP_COMPLETE: A step's work completes, and in an OPEN polder the run may end and signal at once. (R176) -/
  | stepComplete (run : Nat) (step : Nat)
  /-- STEP_DEADLINE: A step not complete at its planned end fails its run with E_DEADLINE and counts a plan violation. (R177) -/
  | stepDeadline (run : Nat) (step : Nat)
  /-- RUN_RELEASE: A RELEASING SEALED run reaches admission + DURATION, and its fence signals E_NONE and its instance is freed. (R175) -/
  | runRelease (run : Nat)
  /-- PUNCH_HASH: A Punch step hashes indices to rows, range-checks and translates them, and signals its failures at the step's planned end. (R234) -/
  | punchHash (run : Nat) (step : Nat) (flaw : Flaw)
  /-- GATHER_POOL: A gather step has the Dredges read and sum rows, the merge tree add the partials and the finisher check residues. (R241) -/
  | gatherPool (run : Nat) (step : Nat) (ev : GatherEv)
  /-- LADLE_COPY: A Ladle COPY step copies bytes between Mere and vault memory. (R168) -/
  | ladleCopy (run : Nat) (step : Nat) (flaw : Flaw)
  /-- LADLE_FILL: A Ladle FILL step writes an 8-byte pattern over the destination. (R168) -/
  | ladleFill (run : Nat) (step : Nat) (flaw : Flaw)
  /-- LADLE_ZERO: A Ladle ZERO step writes zeros over the destination. (R168) -/
  | ladleZero (run : Nat) (step : Nat) (flaw : Flaw)
  /-- LADLE_LOAD: A Ladle LOAD step copies bytes from the run's staged input to the destination. (R168) -/
  | ladleLoad (run : Nat) (step : Nat) (flaw : Flaw)
  /-- OUTPUT_WRITE: An output step writes the payload from Mere to the output berth, then header word 1 and word 0. (R166) -/
  | outputWrite (run : Nat) (step : Nat)
  /-- ANVIL_INTEGER: An Anvil INTEGER job multiplies codes or 8-bit floats with exact accumulation and scales after accumulation. (R294) -/
  | anvilInteger (run : Nat) (step : Nat) (flaw : Flaw) (hit : Option (Nat × Nat))
  /-- ANVIL_EXPAND: An Anvil EXPAND job widens weights to BF16 and multiplies them in FP32 blocks. (R296) -/
  | anvilExpand (run : Nat) (step : Nat) (flaw : Flaw)
  /-- ANVIL_PRODUCT_TABLE: An Anvil PRODUCT-TABLE job builds sixteen products per input and streams Q4 codes as indices into them. (R297) -/
  | anvilProductTable (run : Nat) (step : Nat) (flaw : Flaw)
  /-- ANVIL_TILE_PUSH: A finished tile is pushed to the queue, holding the Anvil while the queue is full. (R309) -/
  | anvilTilePush (t : Fin 8)
  /-- PLANISHER_PROLOGUE: A Planisher step fetches its program and clears its registers before execution starts. (R321) -/
  | planisherPrologue (run : Nat) (step : Nat)
  /-- NOP: The Planisher does nothing for one cycle. (R328) -/
  | nop (t : Fin 8)
  /-- LOOP: The Planisher repeats the next BODY instructions COUNT times on a loop level. (R322) -/
  | loop (t : Fin 8)
  /-- CLRF: The Planisher clears the flags of one tile or of every tile. (R328) -/
  | clrf (t : Fin 8)
  /-- STF: The Planisher writes the flags of every tile register to Mere. (R328) -/
  | stf (t : Fin 8)
  /-- LD_F32: The Planisher loads a tile of FP32 elements. (R328) -/
  | ldF32 (t : Fin 8) (flaw : Flaw)
  /-- LD_BF16: The Planisher loads a tile of BF16 elements, widened to FP32. (R328) -/
  | ldBf16 (t : Fin 8) (flaw : Flaw)
  /-- LD_Q8: The Planisher loads a tile of Q8 codes, sign-extended to int32. (R328) -/
  | ldQ8 (t : Fin 8) (flaw : Flaw)
  /-- LD_Q4: The Planisher loads a tile of Q4 codes, sign-extended to int32. (R328) -/
  | ldQ4 (t : Fin 8) (flaw : Flaw)
  /-- LD_E4M3: The Planisher loads a tile of E4M3 elements, widened to FP32. (R328) -/
  | ldE4m3 (t : Fin 8) (flaw : Flaw)
  /-- LD_E5M2: The Planisher loads a tile of E5M2 elements, widened to FP32. (R328) -/
  | ldE5m2 (t : Fin 8) (flaw : Flaw)
  /-- ST_F32: The Planisher stores a tile as raw 32-bit elements. (R328) -/
  | stF32 (t : Fin 8) (flaw : Flaw)
  /-- ST_BF16: The Planisher stores a tile narrowed to BF16. (R328) -/
  | stBf16 (t : Fin 8) (flaw : Flaw)
  /-- ST_Q8: The Planisher stores int32 elements clamped to Q8. (R328) -/
  | stQ8 (t : Fin 8) (flaw : Flaw)
  /-- ST_Q4: The Planisher stores int32 elements clamped to Q4. (R328) -/
  | stQ4 (t : Fin 8) (flaw : Flaw)
  /-- ST_E4M3: The Planisher stores a tile narrowed to E4M3. (R328) -/
  | stE4m3 (t : Fin 8) (flaw : Flaw)
  /-- ST_E5M2: The Planisher stores a tile narrowed to E5M2. (R328) -/
  | stE5m2 (t : Fin 8) (flaw : Flaw)
  /-- POP: The Planisher moves the oldest tile of the run from the finished-tile queue into a tile register. (R334) -/
  | pop (t : Fin 8) (flaw : Flaw)
  /-- FADD: The Planisher adds two FP32 operands. (R328) -/
  | fadd (t : Fin 8) (flaw : Flaw)
  /-- FSUB: The Planisher subtracts two FP32 operands. (R328) -/
  | fsub (t : Fin 8) (flaw : Flaw)
  /-- FMUL: The Planisher multiplies two FP32 operands. (R328) -/
  | fmul (t : Fin 8) (flaw : Flaw)
  /-- FMA: The Planisher computes SA × B + DST with one rounding. (R330) -/
  | fma (t : Fin 8) (flaw : Flaw)
  /-- FMAX: The Planisher takes the maximum of two FP32 operands. (R330) -/
  | fmax (t : Fin 8) (flaw : Flaw)
  /-- FMIN: The Planisher takes the minimum of two FP32 operands. (R330) -/
  | fmin (t : Fin 8) (flaw : Flaw)
  /-- FABS: The Planisher takes the absolute value of each element. (R328) -/
  | fabs (t : Fin 8) (flaw : Flaw)
  /-- FNEG: The Planisher negates each element. (R328) -/
  | fneg (t : Fin 8) (flaw : Flaw)
  /-- FRCP: The Planisher computes a correctly rounded reciprocal. (R331) -/
  | frcp (t : Fin 8) (flaw : Flaw)
  /-- FRSQ: The Planisher computes a correctly rounded reciprocal square root. (R331) -/
  | frsq (t : Fin 8) (flaw : Flaw)
  /-- FEXP2: The Planisher computes a correctly rounded 2 to the power SA. (R331) -/
  | fexp2 (t : Fin 8) (flaw : Flaw)
  /-- FLOG2: The Planisher computes a correctly rounded base-2 logarithm. (R331) -/
  | flog2 (t : Fin 8) (flaw : Flaw)
  /-- FTANH: The Planisher computes a correctly rounded hyperbolic tangent. (R331) -/
  | ftanh (t : Fin 8) (flaw : Flaw)
  /-- FSIGM: The Planisher computes a correctly rounded logistic sigmoid. (R331) -/
  | fsigm (t : Fin 8) (flaw : Flaw)
  /-- FCMP: The Planisher compares FP32 operands into mask bits. (R328) -/
  | fcmp (t : Fin 8) (flaw : Flaw)
  /-- ICMP: The Planisher compares int32 operands into mask bits. (R328) -/
  | icmp (t : Fin 8) (flaw : Flaw)
  /-- MKAND: The Planisher ANDs two masks. (R328) -/
  | mkand (t : Fin 8)
  /-- MKOR: The Planisher ORs two masks. (R328) -/
  | mkor (t : Fin 8)
  /-- MKNOT: The Planisher inverts a mask. (R328) -/
  | mknot (t : Fin 8)
  /-- MKRANGE: The Planisher sets the mask bits of a rectangle of rows and columns. (R328) -/
  | mkrange (t : Fin 8)
  /-- SEL: The Planisher selects SA where the mask is 1 and B elsewhere. (R328) -/
  | sel (t : Fin 8) (flaw : Flaw)
  /-- MOV: The Planisher copies the second operand to the destination. (R328) -/
  | mov (t : Fin 8) (flaw : Flaw)
  /-- IADD: The Planisher adds int32 operands, wrapping modulo 2^32. (R328) -/
  | iadd (t : Fin 8) (flaw : Flaw)
  /-- ISUB: The Planisher subtracts int32 operands, wrapping modulo 2^32. (R328) -/
  | isub (t : Fin 8) (flaw : Flaw)
  /-- IMUL: The Planisher multiplies int32 operands and keeps the low 32 bits. (R328) -/
  | imul (t : Fin 8) (flaw : Flaw)
  /-- IMAX: The Planisher takes the int32 maximum. (R328) -/
  | imax (t : Fin 8) (flaw : Flaw)
  /-- IMIN: The Planisher takes the int32 minimum. (R328) -/
  | imin (t : Fin 8) (flaw : Flaw)
  /-- ISHR: The Planisher shifts int32 elements right arithmetically. (R328) -/
  | ishr (t : Fin 8) (flaw : Flaw)
  /-- CVTIF: The Planisher converts int32 to FP32. (R328) -/
  | cvtif (t : Fin 8) (flaw : Flaw)
  /-- CVTFI: The Planisher converts FP32 to int32 with round half to even and clamping. (R328) -/
  | cvtfi (t : Fin 8) (flaw : Flaw)
  /-- QNT8: The Planisher quantises FP32 to a Q8 code with a scalar factor. (R292) -/
  | qnt8 (t : Fin 8) (flaw : Flaw)
  /-- QNT4: The Planisher quantises FP32 to a Q4 code with a scalar factor. (R292) -/
  | qnt4 (t : Fin 8) (flaw : Flaw)
  /-- QNT8S: The Planisher quantises FP32 to a Q8 code with a shift. (R292) -/
  | qnt8s (t : Fin 8) (flaw : Flaw)
  /-- QNT4S: The Planisher quantises FP32 to a Q4 code with a shift. (R292) -/
  | qnt4s (t : Fin 8) (flaw : Flaw)
  /-- FRBF: The Planisher narrows each element to BF16 and widens it back. (R328) -/
  | frbf (t : Fin 8) (flaw : Flaw)
  /-- RSUM: The Planisher tree-sums each row and writes the total to every column. (R332) -/
  | rsum (t : Fin 8) (flaw : Flaw)
  /-- RMAX: The Planisher takes each row's maximum. (R332) -/
  | rmax (t : Fin 8) (flaw : Flaw)
  /-- CSUM: The Planisher tree-sums each column and writes the total to every row. (R332) -/
  | csum (t : Fin 8) (flaw : Flaw)
  /-- CMAX: The Planisher takes each column's maximum. (R332) -/
  | cmax (t : Fin 8) (flaw : Flaw)
  /-- WINDOW_READ: A Tarn step delivers a slab's most recent events to Mere in attention panel layout. (R348) -/
  | windowRead (run : Nat) (step : Nat) (flaw : Flaw) (badLines : List Nat)
  /-- APPEND_HISTORY: A Tarn step appends new events to a slab's ring and writes the header last. (R349) -/
  | appendHistory (run : Nat) (step : Nat) (flaw : Flaw) (badLines : List Nat)
  /-- APPEND_BEAM: A Tarn step builds new beam state from selection records. (R350) -/
  | appendBeam (run : Nat) (step : Nat) (flaw : Flaw)
  /-- EVICT: A Tarn step resets a slab header and unpins its Hummock lines. (R347) -/
  | evict (run : Nat) (step : Nat) (flaw : Flaw) (badLines : List Nat)
  /-- TARN_PIN: A Tarn step installs and pins every line of a slab in the Hummock. (R347) -/
  | tarnPin (run : Nat) (step : Nat) (flaw : Flaw) (badLines : List Nat)
  /-- TARN_UNPIN: A Tarn step releases a slab's pinned lines. (R347) -/
  | tarnUnpin (run : Nat) (step : Nat) (flaw : Flaw) (badLines : List Nat)
  /-- RIDDLE_TOPK: A Riddle step ranks candidates and writes the top K records. (R355) -/
  | riddleTopk (run : Nat) (step : Nat) (flaw : Flaw)
  /-- RIDDLE_BEAM: A Riddle step adds priors to per-beam scores and writes the best K beam records. (R356) -/
  | riddleBeam (run : Nat) (step : Nat) (flaw : Flaw)
  /-- SOLDER_UPDATE: An update step distributes a batch's entries to the Solders in batch order, stopping at the first faulty entry. (R264) -/
  | solderUpdate (run : Nat) (step : Nat)
  /-- UPDATE_ASSIGN: An ASSIGN entry writes the given values into a row's PEND copy. (R269) -/
  | updateAssign (run : Nat) (step : Nat)
  /-- UPDATE_ADD: An ADD entry adds values into a row's PEND copy. (R269) -/
  | updateAdd (run : Nat) (step : Nat)
  /-- UPDATE_SGD: An SGD entry applies a learning-rate step into a row's PEND copy. (R269) -/
  | updateSgd (run : Nat) (step : Nat)
  /-- UPDATE_ADAGRAD_ROW: An ADAGRAD_ROW entry updates a row's accumulator and values into its PEND copy. (R269) -/
  | updateAdagradRow (run : Nat) (step : Nat)
  /-- REMOTE_GATHER: A REMOTE GATHER step sends pooled-gather requests to a peer. (R381) -/
  | remoteGather (run : Nat) (step : Nat)
  /-- REMOTE_PUSH: A REMOTE PUSH step sends data to a peer's granted Mere region. (R381) -/
  | remotePush (run : Nat) (step : Nat)
  /-- REMOTE_DEADLINE: At a remote step's deadline tick, the run fails if any request lacks a valid response. (R385) -/
  | remoteDeadline (run : Nat) (step : Nat)
  /-- TBL_WRITE: TBL_CMD WRITE reads and checks a table record and makes the slot VALID in its final step. (R229) -/
  | tblWrite (fn : Fn) (slot : Fin 1024) (fence : Option Nat) (image : List Byte) (cpl : Cpl)
  /-- TBL_CLEAR: TBL_CMD CLEAR makes a slot CLOSING and empties it once earlier runs end. (R230) -/
  | tblClear (fn : Fn) (slot : Fin 1024) (fence : Option Nat)
  /-- TBL_RESUME: TBL_CMD RESUME continues a halted table command. (R430) -/
  | tblResume (fn : Fn) (fence : Option Nat)
  /-- TBL_ABORT: TBL_CMD ABORT ends a table command and leaves the slot unchanged. (R230) -/
  | tblAbort (fn : Fn) (fence : Option Nat)
  /-- HMK_PIN: HMK_CMD PIN installs and pins the lines of a row range in the Hummock. (R250) -/
  | hmkPin (fn : Fn) (table : Fin 1024) (fence : Option Nat)
  /-- HMK_UNPIN: HMK_CMD UNPIN releases the pinned lines of a row range. (R250) -/
  | hmkUnpin (fn : Fn) (table : Fin 1024) (fence : Option Nat)
  /-- HMK_UNPIN_ALL: HMK_CMD UNPIN_ALL releases every line the polder has pinned. (R250) -/
  | hmkUnpinAll (fn : Fn) (fence : Option Nat)
  /-- HMK_RESUME: HMK_CMD RESUME continues a halted Hummock command. (R430) -/
  | hmkResume (fn : Fn) (fence : Option Nat)
  /-- HMK_ABORT: HMK_CMD ABORT ends a Hummock command, and rows already done stay done. (R428) -/
  | hmkAbort (fn : Fn) (fence : Option Nat)
  /-- SKETCH_HALVING: At every tick that is a multiple of 65,536, every frequency-sketch counter is halved. (R248) -/
  | sketchHalving
  /-- EP_PUBLISH: EP_CMD PUBLISH stops update admission, waits for update runs, and makes PEND the published epoch. (R273) -/
  | epPublish (fn : Fn) (fence : Option Nat)
  /-- EP_ABANDON: EP_CMD ABANDON walks the journal and empties every PEND copy. (R275) -/
  | epAbandon (fn : Fn) (fence : Option Nat)
  /-- EP_RESUME: EP_CMD RESUME continues a halted PUBLISH or ABANDON. (R430) -/
  | epResume (fn : Fn) (fence : Option Nat)
  /-- EP_ABORT: EP_CMD ABORT ends a PUBLISH or ABANDON with E_ABORTED. (R276) -/
  | epAbort (fn : Fn) (fence : Option Nat)
  /-- TEMP_SAMPLE: Every 1 ms each stack samples its vault sensors, and takes or releases Freeboard tiers. (R205) -/
  | tempSample (readings : List (List (Option Nat))) (base : Nat)
  /-- ADVISORY_HOLDOFF_END: At the end of the second after an EV_ADVISORY, one deferred record is raised if the set differs. (R209) -/
  | advisoryHoldoffEnd
  /-- THERMAL_TRIP: A stack at 105 °C or the base die at 110 °C asserts THERMTRIP_N within 100 µs. (R210) -/
  | thermalTrip (source : Nat)
  /-- TWR_RETIRE: TWR_CMD RETIRE retires a vault permanently. (R222) -/
  | twrRetire (fn : Fn) (t : Fin 8) (vault : Fin 32) (fence : Option Nat)
  /-- TWR_REPAIR: TWR_CMD REPAIR copies a weak row to a spare row and strikes FIELD_REPAIR in its final step. (R219) -/
  | twrRepair (fn : Fn) (t : Fin 8) (cand : Fin 8) (fence : Option Nat)
  /-- TWR_RESUME: TWR_CMD RESUME continues a halted repair. (R430) -/
  | twrResume (fn : Fn) (t : Fin 8) (fence : Option Nat)
  /-- TWR_ABORT: TWR_CMD ABORT ends a repair before its strike, consuming no spare row. (R220) -/
  | twrAbort (fn : Fn) (t : Fin 8) (fence : Option Nat)
  /-- BACKGROUND_TICK: In a BACKGROUND tick, a lane serves Assay, scrub or the pending background item of lowest rank. (R435) -/
  | backgroundTick (lane : Nat) (output : List Byte)
  /-- ASY_LOAD: ASY_CMD LOAD reads, verifies and installs an Assay pack. (R447) -/
  | asyLoad (fn : Fn) (fence : Option Nat) (image : List Byte) (cpl : Cpl)
  /-- ASY_SWEEP: ASY_CMD SWEEP queues a scheduled run for every HEALTHY and SUSPECT instance. (R450) -/
  | asySweep (fn : Fn) (fence : Option Nat)
  /-- ASY_TEST: ASY_CMD TEST queues one scheduled run for the named instance. (R450) -/
  | asyTest (fn : Fn) (block : Nat) (inst : Nat) (fence : Option Nat)
  /-- ASSAY_SWEEP_INTERVAL: Every INTERVAL seconds on DEV_NS, a scheduled Assay sweep starts. (R450) -/
  | assaySweepInterval
  /-- PATINA_SAMPLE: Every 1 s the MGC scores every Patina monitor and updates the index and the LIFE cause. (R454) -/
  | patinaSample (ro : List (Option Nat)) (bond : List (Option Nat)) (eye : List (Option Nat)) (amps : List (Option Nat))
  /-- DAILY_POINT: Every 86,400 s of powered time, the MGC appends a daily point and recomputes PAT_LIFE. (R456) -/
  | dailyPoint
  /-- DUMP_WRITE: The dump writer issues a latched dump record to each enabled ring in host-interface idle cycles. (R471) -/
  | dumpWrite
  /-- LINK_ENABLE: A DOWN port whose effective enable is 1 and which is usable in PORT_MAP moves to SEEK. (R365) -/
  | linkEnable (port : Fin 12)
  /-- SIGNAL_DETECT: Signal is detected on all four lanes of a seeking port, and the port moves to TRAIN. (R365) -/
  | signalDetect (port : Fin 12)
  /-- SEEK_RETRY: Every 1 s a seeking port retries signal detection. (R365) -/
  | seekRetry (port : Fin 12)
  /-- TRAIN_COMPLETE: PMD training, FEC lock and HELLO complete, LAT_NS is measured, and the port moves to AUTH. (R366) -/
  | trainComplete (port : Fin 12) (peer : BitVec 8) (domain : BitVec 16) (number : Fin 12) (roundTrip : Nat)
  /-- HELLO_MISMATCH: A HELLO with another domain returns the port to SEEK and counts a retrain. (R365) -/
  | helloMismatch (port : Fin 12) (peer : BitVec 8) (domain : BitVec 16) (number : Fin 12)
  /-- TRAIN_TIMEOUT: 500 ms in TRAIN returns the port to SEEK and counts a retrain. (R365) -/
  | trainTimeout (port : Fin 12)
  /-- AUTH_TIMEOUT: 200 ms after AUTH is entered without reaching UP returns the port to SEEK and counts a retrain. (R365) -/
  | authTimeout (port : Fin 12)
  /-- SPDM_SESSION_ESTABLISHED: The port's SPDM session completes, keys are installed and the port moves to KEYED. (R368) -/
  | spdmSessionEstablished (port : Fin 12) (session : Session)
  /-- AUTH_FAILURE: Peer authentication fails and the port is quarantined with cause AUTH. (R369) -/
  | authFailure (port : Fin 12) (session : Session)
  /-- FIRST_FLIT_VERIFIED: The first peer flit whose tag verifies moves a KEYED port to UP. (R365) -/
  | firstFlitVerified (port : Fin 12) (flit : List Byte)
  /-- DATA_FLIT_RECEIVED: A data flit is accepted when its CRC, SEQ and tag are good, and is otherwise dropped and NAKed. (R363) -/
  | dataFlitReceived (port : Fin 12) (flit : List Byte)
  /-- CONTROL_FLIT_IDLE: An IDLE control flit is received. (R361) -/
  | controlFlitIdle (port : Fin 12) (flit : List Byte)
  /-- CONTROL_FLIT_ACK: An ACK frees retry-buffer entries up to its SEQ point. (R363) -/
  | controlFlitAck (port : Fin 12) (flit : List Byte)
  /-- CONTROL_FLIT_NAK: A NAK makes the sender resend byte-identical flits from the named SEQ. (R363) -/
  | controlFlitNak (port : Fin 12) (flit : List Byte)
  /-- CONTROL_FLIT_CREDIT: A CREDIT flit returns credits for one virtual channel. (R364) -/
  | controlFlitCredit (port : Fin 12) (flit : List Byte)
  /-- FEC_BURST: Eight or more consecutive uncorrectable FEC codewords count a retrain and send the port to TRAIN. (R367) -/
  | fecBurst (port : Fin 12) (codewords : Nat)
  /-- KEEPALIVE_SEND: Every 1 ms an UP port sends a keep-alive on MGMT. (R364) -/
  | keepaliveSend (port : Fin 12)
  /-- KEEPALIVE_MISSING: No keep-alive for 10 ms counts a retrain and sends the port to TRAIN. (R367) -/
  | keepaliveMissing (port : Fin 12)
  /-- KEY_UPDATE: Before 2^48 data flits under one key, a direction performs an SPDM KEY_UPDATE. (R370) -/
  | keyUpdate (port : Fin 12) (sending : Bool) (key : List Byte) (salt : List Byte)
  /-- SLOW_UPDATE: At each second, SLOW is set or cleared from the growth of LATE_RCVD. (R387) -/
  | slowUpdate (port : Fin 12)
  /-- CW_RETRAIN: CW_CMD RETRAIN sends an UP port back to TRAIN without counting a retrain. (R365) -/
  | cwRetrain (fn : Fn) (port : Fin 12)
  /-- CW_PORT_RESET: CW_CMD RESET moves the port to DOWN unless it is quarantined. (R420) -/
  | cwPortReset (fn : Fn) (port : Fin 12)
  /-- CW_TRUST_LOAD: CW_TRUST_CMD LOAD installs a trust record for later authentications. (R371) -/
  | cwTrustLoad (fn : Fn) (image : List Byte) (cpl : Cpl) (leafOk : Bool)
  /-- CW_GNT_WRITE: CW_GNT_CMD WRITE checks the grant words and makes the selected slot VALID. (R376) -/
  | cwGntWrite (fn : Fn)
  /-- CW_GNT_REVOKE: CW_GNT_CMD REVOKE moves a VALID grant to REVOKING. (R377) -/
  | cwGntRevoke (fn : Fn)
  /-- CW_GNT_READ: CW_GNT_CMD READ copies the selected slot into the grant words. (R375) -/
  | cwGntRead (fn : Fn)
  /-- FLIT_FORWARD: A flit for another device is forwarded by route table in a TRANSIT tick, with budget adjusted. (R374) -/
  | flitForward (port : Fin 12)
  /-- REQUEST_INGRESS: A remote request arriving at the responder passes the responder checks and is reserved, refused or dropped. (R383) -/
  | requestIngress (port : Fin 12)
  /-- REQUEST_SERVICE_COMPLETE: A reserved request completes its service ticks and its response leaves the ingress port. (R384) -/
  | requestServiceComplete (port : Fin 12) (tag : Nat) (ev : GatherEv)
  /-- RESPONSE_RECEIVED: A response arrives and its data lands in Mere, or it is discarded when its TAG is not outstanding. (R386) -/
  | responseReceived (port : Fin 12)
  /-- PWR_REQ_LEVEL: A PWR_REQ write of a new LEVEL sets the host level request at the power junction. (R393) -/
  | pwrReqLevel (fn : Fn) (level : Fin 4)
  /-- PWR_REQ_STANDBY: PWR_REQ STATE := STANDBY stops admission and enters STANDBY_PENDING. (R397) -/
  | pwrReqStandby (fn : Fn) (level : Fin 4)
  /-- PWR_REQ_RETAIN: PWR_REQ STATE := RETAIN enters RETAIN_PENDING. (R397) -/
  | pwrReqRetain (fn : Fn) (level : Fin 4)
  /-- PWR_REQ_OFF: PWR_REQ STATE := OFF enters OFF_PENDING. (R397) -/
  | pwrReqOff (fn : Fn) (level : Fin 4)
  /-- PWR_REQ_ACTIVE: PWR_REQ STATE := ACTIVE returns from STANDBY_PENDING or starts waking from STANDBY. (R397) -/
  | pwrReqActive (fn : Fn) (level : Fin 4)
  /-- STANDBY_ENTRY: At the first boundary with no admitted run or reserved request, CCLK is gated and the stacks self-refresh. (R397) -/
  | standbyEntry
  /-- WAKE_COMPLETE: Wake completes within 50 µs, and DEV_TICK resumes in ACTIVE. (R397) -/
  | wakeComplete
  /-- RETAIN_ENTRY: With no admitted run or reserved request, the device enters RETAIN and deasserts CORE_PWR_EN. (R397) -/
  | retainEntry
  /-- OFF_READY_ENTRY: With no admitted run or reserved request, the device reaches OFF_READY and sets READY_FOR_OFF. (R397) -/
  | offReadyEntry
  /-- RAIL_REMOVAL: The board removes all rails from OFF_READY, and the device is OFF. (R397) -/
  | railRemoval
  /-- RETAIN_EXIT: PERST_N or a PLDM effecter leaves RETAIN, and the planes come up as after a WARM reset. (R399) -/
  | retainExit
  /-- RAIL_OK_RISE: The regulator shows the new VDD_CORE target, and RAIL_OK rises. (R395) -/
  | railOkRise
  /-- BOARD_POWER_REPORT: Every 1 ms the MGC sums board power into PWR_BOARD and PWR_ENERGY. (R403) -/
  | boardPowerReport (readings : List (Option Nat))
  /-- COLD_RESET: A COLD reset returns every plane to its reset state. (R409) -/
  | coldReset
  /-- WARM_RESET: A WARM reset stops the host interface, drains the vaults, resets the control and data planes, and keeps or zeroes tables. (R415) -/
  | warmReset
  /-- WARM_READY: After a WARM reset, READY becomes 1 on every page when retraining and zeroing are done. (R415) -/
  | warmReady
  /-- PERST_N_ASSERT: An assertion of PERST_N without loss of the always-on rail starts a WARM reset. (R409) -/
  | perstNAssert
  /-- HOT_RESET: A PCI Express hot reset or link down starts a WARM reset. (R409) -/
  | hotReset
  /-- PF_FLR: A PF Function Level Reset performs a WARM reset of the device. (R410) -/
  | pfFlr
  /-- VF_FLR: A VF Function Level Reset performs a FUNCTION reset of its polder. (R409) -/
  | vfFlr (p : Fin 16)
  /-- RST_CMD_SCOPE: RST_CMD SCOPE writes a WARM or COLD request to HOST_SCOPE, and the reset logic executes the wider pending scope once. (R38) -/
  | rstCmdScope (fn : Fn) (scope : Fin 4)
  /-- RST_CMD_MGC: RST_CMD.MGC reboots the MGC with secure boot while the other planes keep running. (R421) -/
  | rstCmdMgc (fn : Fn) (scope : Fin 4)
  /-- MGC_WATCHDOG_EXPIRY: Two seconds without watchdog service cause an MGC reset. (R478) -/
  | mgcWatchdogExpiry
  /-- RST_ENGINE: RST_ENGINE clears one engine's internal state in its next 4 BACKGROUND ticks. (R419) -/
  | rstEngine (fn : Fn) (block : Nat) (inst : Nat) (fence : Option Nat)
  /-- MGC_BOOT: At an MGC start, the boot ROM verifies the firmware slots and runs the first accepted image. (R476) -/
  | mgcBoot (sig0 : Bool) (sig1 : Bool)
  /-- MBX_GET_INFO: Mailbox GET_INFO returns the UID, boot record and image versions. (R485) -/
  | mbxGetInfo (fn : Fn) (len : Nat) (cut : MbxCut)
  /-- MBX_STRIKE: Mailbox STRIKE checks an authorisation record and commits or refuses one counted-setting strike. (R492) -/
  | mbxStrike (fn : Fn) (len : Nat) (cut : MbxCut)
  /-- MBX_AUTH_HOLD: Mailbox AUTH_HOLD keeps a FIELD_REPAIR authorisation for a vault. (R491) -/
  | mbxAuthHold (fn : Fn) (len : Nat) (cut : MbxCut)
  /-- MBX_LOG_READ: Mailbox LOG_READ returns up to 15 Hallmark log entries. (R485) -/
  | mbxLogRead (fn : Fn) (len : Nat) (cut : MbxCut)
  /-- MBX_PACK_READ: Mailbox PACK_READ returns bytes of the Assay pack that the MGC keeps. (R485) -/
  | mbxPackRead (fn : Fn) (len : Nat) (cut : MbxCut)
  /-- MBX_PATINA_READ: Mailbox PATINA_READ returns up to 60 daily Patina points. (R485) -/
  | mbxPatinaRead (fn : Fn) (len : Nat) (cut : MbxCut)
  /-- EFFECTER_MGC_CEILING: Effecter 0x0100 sets the MGC level ceiling, rejecting levels shallower than the envelope cap. (R401) -/
  | effecterMgcCeiling (value : Nat)
  /-- EFFECTER_LEAVE_RETAIN: Effecter 0x0101 state 2 leaves RETAIN. (R399) -/
  | effecterLeaveRetain (state : Nat)
  /-- EFFECTER_RESET_SCOPE: Effecter 0x0102 writes the MGC reset scope request. (R482) -/
  | effecterResetScope (state : Nat)
  /-- EFFECTER_PORT_ENABLE: Effecter 0x0103 writes the MGC port enable bits. (R482) -/
  | effecterPortEnable (states : List (Option Nat))
  /-- EFFECTER_ZERO_ORDER: Effecter 0x0104 sets or clears the MGC zero order bit of a polder. (R482) -/
  | effecterZeroOrder (states : List (Option Nat))
  /-- EFFECTER_FAULT: Effecter 0x0105 sets or clears FAULT_MGC. (R482) -/
  | effecterFault (state : Nat)
  /-- MCTP_SET_ENDPOINT_ID: MCTP Set Endpoint ID assigns the endpoint ID. (R479) -/
  | mctpSetEndpointId (pcie : Bool) (op : Nat) (eid : Nat)
  /-- MCTP_GET_ENDPOINT_ID: MCTP Get Endpoint ID returns the endpoint ID. (R479) -/
  | mctpGetEndpointId (pcie : Bool)
  /-- MCTP_GET_VERSION_SUPPORT: MCTP Get MCTP Version Support returns the supported versions. (R479) -/
  | mctpGetVersionSupport (type : Nat)
  /-- MCTP_GET_MESSAGE_TYPE_SUPPORT: MCTP Get Message Type Support returns the supported message types. (R479) -/
  | mctpGetMessageTypeSupport
  /-- PLDM_GET_TID: PLDM GetTID returns the terminus ID. (R479) -/
  | pldmGetTid
  /-- PLDM_SET_TID: PLDM SetTID sets the terminus ID. (R479) -/
  | pldmSetTid (tid : Nat)
  /-- PLDM_GET_PLDM_VERSION: PLDM GetPLDMVersion returns a type's version. (R479) -/
  | pldmGetPldmVersion (type : Nat)
  /-- PLDM_GET_PLDM_TYPES: PLDM GetPLDMTypes returns the supported types. (R479) -/
  | pldmGetPldmTypes
  /-- PLDM_GET_PLDM_COMMANDS: PLDM GetPLDMCommands returns a type's supported commands. (R479) -/
  | pldmGetPldmCommands (type : Nat)
  /-- PLDM_GET_PDR: PLDM GetPDR returns a PDR from the read-only repository. (R479) -/
  | pldmGetPdr (handle : Nat)
  /-- PLDM_GET_PDR_REPOSITORY_INFO: PLDM GetPDRRepositoryInfo describes the repository. (R479) -/
  | pldmGetPdrRepositoryInfo
  /-- PLDM_GET_SENSOR_READING: PLDM GetSensorReading returns a numeric sensor reading. (R481) -/
  | pldmGetSensorReading (id : Nat)
  /-- PLDM_GET_STATE_SENSOR_READINGS: PLDM GetStateSensorReadings returns state sensor states. (R481) -/
  | pldmGetStateSensorReadings (id : Nat)
  /-- PLDM_SET_EVENT_RECEIVER: PLDM SetEventReceiver sets where platform events are sent. (R479) -/
  | pldmSetEventReceiver (receiver : Option Nat)
  /-- PLDM_QUERY_DEVICE_IDENTIFIERS: PLDM QueryDeviceIdentifiers returns the device identifiers. (R483) -/
  | pldmQueryDeviceIdentifiers
  /-- PLDM_GET_FIRMWARE_PARAMETERS: PLDM GetFirmwareParameters returns the component versions. (R483) -/
  | pldmGetFirmwareParameters
  /-- PLDM_REQUEST_UPDATE: PLDM RequestUpdate starts a firmware update. (R483) -/
  | pldmRequestUpdate (maxTransfer : Nat)
  /-- PLDM_PASS_COMPONENT_TABLE: PLDM PassComponentTable names the components to update. (R483) -/
  | pldmPassComponentTable (comp : Nat) (last : Bool)
  /-- PLDM_UPDATE_COMPONENT: PLDM UpdateComponent starts the transfer of one component. (R483) -/
  | pldmUpdateComponent (comp : Nat) (size : Nat)
  /-- PLDM_REQUEST_FIRMWARE_DATA: The response to RequestFirmwareData delivers up to 512 bytes of the component. (R483) -/
  | pldmRequestFirmwareData (bytes : List Byte)
  /-- PLDM_TRANSFER_COMPLETE: PLDM TransferComplete ends the component transfer. (R483) -/
  | pldmTransferComplete
  /-- PLDM_VERIFY_COMPLETE: PLDM VerifyComplete reports the component's verification result. (R483) -/
  | pldmVerifyComplete (sigOk : Bool) (svn : Nat) (version : Nat)
  /-- PLDM_APPLY_COMPLETE: PLDM ApplyComplete reports the component written. (R483) -/
  | pldmApplyComplete
  /-- PLDM_ACTIVATE_FIRMWARE: PLDM ActivateFirmware makes the verified slot preferred, and may reset the MGC. (R484) -/
  | pldmActivateFirmware (selfContained : Bool)
  /-- PLDM_GET_STATUS: PLDM GetStatus returns the update state. (R483) -/
  | pldmGetStatus
  /-- PLDM_CANCEL_UPDATE_COMPONENT: PLDM CancelUpdateComponent cancels one component's update. (R484) -/
  | pldmCancelUpdateComponent
  /-- PLDM_CANCEL_UPDATE: PLDM CancelUpdate cancels the update, leaving the preferred slot. (R484) -/
  | pldmCancelUpdate
  /-- SPDM_GET_VERSION: SPDM GET_VERSION returns the supported version. (R479) -/
  | spdmGetVersion (doe : Bool)
  /-- SPDM_GET_CAPABILITIES: SPDM GET_CAPABILITIES returns the responder capabilities. (R479) -/
  | spdmGetCapabilities (doe : Bool)
  /-- SPDM_NEGOTIATE_ALGORITHMS: SPDM NEGOTIATE_ALGORITHMS selects P-384, SHA-384 and AES-256-GCM. (R479) -/
  | spdmNegotiateAlgorithms (doe : Bool) (asym : Nat) (hash : Nat) (dhe : Nat) (aead : Nat)
  /-- SPDM_GET_DIGESTS: SPDM GET_DIGESTS returns the certificate chain digest of slot 0. (R479) -/
  | spdmGetDigests (doe : Bool)
  /-- SPDM_GET_CERTIFICATE: SPDM GET_CERTIFICATE returns the device identity chain. (R480) -/
  | spdmGetCertificate (doe : Bool) (slot : Nat)
  /-- SPDM_CHALLENGE: SPDM CHALLENGE signs a challenge with the identity key. (R480) -/
  | spdmChallenge (doe : Bool) (slot : Nat)
  /-- SPDM_GET_MEASUREMENTS: SPDM GET_MEASUREMENTS returns the four measurements. (R480) -/
  | spdmGetMeasurements (doe : Bool) (index : Nat)
  /-- SPDM_KEY_EXCHANGE: SPDM KEY_EXCHANGE starts a secured session. (R479) -/
  | spdmKeyExchange (doe : Bool) (slot : Nat) (sid : Nat)
  /-- SPDM_FINISH: SPDM FINISH completes a secured session. (R479) -/
  | spdmFinish (doe : Bool) (sid : Nat) (ok : Bool)
  /-- SPDM_HEARTBEAT: SPDM HEARTBEAT keeps a session alive. (R479) -/
  | spdmHeartbeat (doe : Bool) (sid : Nat)
  /-- SPDM_KEY_UPDATE: SPDM KEY_UPDATE rotates a session's keys. (R479) -/
  | spdmKeyUpdate (doe : Bool) (sid : Nat) (op : Nat) (tag : Nat)
  /-- SPDM_END_SESSION: SPDM END_SESSION closes a session. (R479) -/
  | spdmEndSession (doe : Bool) (sid : Nat)
  /-- VDD_AON_POWER_UP: VDD_AON regulates, the always-on power-on reset releases, DEV_NS starts and CORE_PWR_EN asserts. (R498) -/
  | vddAonPowerUp
  /-- PWR_GOOD_RISE: PWR_GOOD rises, the straps are sampled on the first rise, and the MGC's first boot may proceed. (R503) -/
  | pwrGoodRise (straps : Fin 16)
  /-- PWR_GOOD_FALL: PWR_GOOD falls with CORE_PWR_EN asserted, holding the planes in reset until a COLD reset at the next rise. (R501) -/
  | pwrGoodFall
  /-- PERST_N_RELEASE: PERST_N is released, one of the two conditions for starting the planes. (R505) -/
  | perstNRelease
  /-- PLANES_START: At the later of MGC ready and PERST_N release, the control and data planes start and training begins. (R505) -/
  | planesStart
  /-- STACK_TRAIN_DONE: A tower's training attempt completes. (R506) -/
  | stackTrainDone (t : Fin 8)
  /-- TRAIN_ATTEMPT_TIMEOUT: A training attempt exceeds 45 ms, causing a retry or a FAILED start. (R506) -/
  | trainAttemptTimeout (t : Fin 8)
  /-- COLD_ZERO_DONE: Cold zeroing of every vault ends, and RESTORE then READY follow. (R507) -/
  | coldZeroDone
  /-- START_TIMEOUT: READY is not reached within 400 ms of PERST_N release, and PHASE becomes FAILED with TIMEOUT. (R508) -/
  | startTimeout
  /-- PMX_WRITE: A PMX_SBn write changing FUNC or POL parks the pin, is queued during a park, or applies DIR and OUT. (R521) -/
  | pmxWrite (fn : Fn) (n : Fin 8) (data : Word)
  /-- PARK_END: At MCLK cycle c + 8 the parked pin takes the settings of the last write received. (R522) -/
  | parkEnd (n : Fin 8)
  /-- FRAME_SYNC_IN_EDGE: A FRAME_SYNC_IN assertion edge records the low 32 bits of DEV_TICK and advances COUNT. (R526) -/
  | frameSyncInEdge
  /-- POWER_REMOVAL: The board removes power, the always-on rail included, in any power state, ending every plane so that the next power-up is a COLD reset. (R391) -/
  | powerRemoval
  /-- BAD_SIZE_READ: A register read of a size or alignment marked BAD_SIZE, or a 4-byte read of an ATOMIC64 register, is not performed, returns 0, sets PG_ERR.BAD_SIZE or HALF_ATOMIC and may capture the error and raise EV_PAGE_ERR. (R48) -/
  | badSizeRead (fn : Fn) (bar2 : Bool) (page : Nat) (off : Nat) (size : Nat)
  deriving DecidableEq, Repr

end Sys2Proof
end

