-- ==== Sys2Proof/Config.lean ====
section
/-! DEFINITION. The free values of the model: values that the spec leaves open, as opaque constants that nothing in
Lean can evaluate. Each use is named in notes/assumptions/. -/

namespace Sys2Proof.Config
open Sys2Proof

/-- A free value: the n-th value the spec does not state. A step that needs one reads and advances the plain
counter `free` of State, so no two uses share a value unless the spec ties them (notes/assumptions/2.md). -/
opaque freeValue : Nat → Nat

/-- The set of a Hummock slice that a line address selects (R245): the spec gives 8,192 sets of 16 ways in each slice and
no index function (notes/assumptions/33.md). The set is this value mod 8,192. -/
opaque hummockSet : Nat → Nat

/-- Does a payload write of a function to an address carry Relaxed Ordering? R122 leaves it to the part
(notes/assumptions/112.md). -/
opaque payloadRelaxed : Nat → Nat → Bool

/-- The bits that a scalar gives as the second operand of a mask instruction (R326 states none), by the scalar
(notes/assumptions/41.md). -/
opaque scalarMask : Nat → Nat

/-- What an operand that is NaN or infinite counts as in a residue (R314 states nothing for it), by its code
(notes/assumptions/117.md). -/
opaque residueOf : Nat → Int

/-- The bytes between the end of a live row's copy and its next granule, which the Solder writes with the copy (R265
states no value), by the bytes that the copy was made from (notes/assumptions/76.md). -/
opaque copyPad : List (BitVec 8) → Nat

/-- The body bytes of a flit past those that LEN names, and the body of a control flit (R361 states none), by what stands
before them (notes/assumptions/118.md). -/
opaque flitPad : List (BitVec 8) → Nat

/-- The keep-alive message (R364 states no bytes): its length less one, and its bytes (notes/assumptions/118.md). -/
opaque keepAliveLen : Fin 228
opaque keepAliveByte : Nat → BitVec 8

/-- The bytes of an SPDM message beside its code, by the code and the message that it answers (R368 states none of them;
notes/assumptions/119.md). -/
opaque spdmText : Nat → List (BitVec 8) → List (BitVec 8)

/-- The fused hash of Mendotric's key for Assay packs (R447), which the spec does not give (notes/assumptions/42.md). -/
opaque mendotricKeyHash : List (BitVec 8)

/-- The chain of certificates of the device's identity key (R480; notes/assumptions/55.md). -/
opaque certChain : List (BitVec 8)

/-- The data-plane microcode that the MGC loads, by its bytes, and the image of a factory slot (R480; the spec gives
neither; notes/assumptions/55.md). -/
opaque microcode : List (BitVec 8)
opaque factoryImage : List (BitVec 8)

/-- The bytes that stand for the present values of a counted setting in the third measurement (R480 gives no coding), by its
code and its values (notes/assumptions/55.md). -/
opaque settingBytes : Nat → List Nat → List (BitVec 8)

end Sys2Proof.Config
end

