-- ==== Sys2Proof/Machine/Sparse.lean ====
section
/-! DEFINITION. Sparse tables: a list of (key, value) pairs with strictly rising keys, in which no entry equals what an
unlisted key reads as. Every memory, register file and object table of State is held so. -/

namespace Sys2Proof.Machine
open Sys2Proof

/-- A sparse table from numbers to values. -/
abbrev SMap (α : Type) := List (Nat × α)

/-- Read key `k`; an unlisted key reads as `d`. -/
def SMap.get {α : Type} (d : α) : SMap α → Nat → α
  | [], _ => d
  | (k', v) :: t, k => if k' = k then v else SMap.get d t k

/-- Insert a pair before the first larger key. -/
def SMap.place {α : Type} (k : Nat) (v : α) : SMap α → SMap α
  | [] => [(k, v)]
  | (k', v') :: t => if k < k' then (k, v) :: (k', v') :: t else (k', v') :: SMap.place k v t

/-- Drop key `k`. -/
def SMap.drop {α : Type} (k : Nat) : SMap α → SMap α
  | [] => []
  | (k', v') :: t => if k' = k then SMap.drop k t else (k', v') :: SMap.drop k t

/-- Write `v` at key `k`; writing the default removes the entry, so that equal contents are equal lists. -/
def SMap.put {α : Type} [DecidableEq α] (d : α) (m : SMap α) (k : Nat) (v : α) : SMap α :=
  if v = d then m.drop k else (m.drop k).place k v

/-- Every key of the table is at least `lo` and the keys rise strictly. -/
def SMap.rising {α : Type} : Nat → SMap α → Bool
  | _, [] => true
  | lo, (k, _) :: t => decide (lo ≤ k) && SMap.rising (k + 1) t

/-- The canonical form: strictly rising keys and no listed default. -/
def SMap.wf {α : Type} [DecidableEq α] (d : α) (m : SMap α) : Bool :=
  SMap.rising 0 m && m.all (fun e => decide (e.2 ≠ d))

/-- Drop every entry whose key satisfies `q`: those keys read as the default. -/
def SMap.clear {α : Type} (q : Nat → Bool) (m : SMap α) : SMap α := m.filter (fun e => !q e.1)

end Sys2Proof.Machine
end

