-- ==== Sys2Proof/Machine/State.lean ====
section
/-! DEFINITION. The state of the part, as plain data (notes/assumptions/1.md says what stands outside it). -/

namespace Sys2Proof.Machine
open Sys2Proof

/-! ## Register fields (spec/03_register_pages.md) -/

/-- The access types of R44. -/
inductive Access where
  | rw | ro | w1c | w1s | wo | rwl | wct
  deriving DecidableEq, Repr

/-- One field of a register: where it stands, how it is accessed, what it reads at reset, which values are legal. -/
structure Fld where
  block : Block
  off : Nat
  stride : Nat := 8
  lo : Nat
  width : Nat
  acc : Access
  /-- Reset value; `perInst` and `perIdx` add a multiple of the page's instance and of the register's index; `byIdx` lists
  the reset values of the first registers of an array that differ. -/
  reset : Nat := 0
  byIdx : List Nat := []
  perInst : Nat := 0
  perIdx : Nat := 0
  /-- The legal values, as closed ranges; an empty list means that every value is legal. -/
  legal : List (Nat × Nat) := []
  deriving DecidableEq, Repr

/-! ## Outside the part -/

/-- What a PCI Express memory request carries beside its address and data (R110, R122): the No Snoop and Relaxed Ordering
attributes, and whether it travels in the IDE selective stream bound to the requester's VF. -/
structure TlpAttr where
  noSnoop : Bool
  relaxed : Bool
  ide : Bool
  deriving DecidableEq, Repr

/-- What the part sends out, in the order R101 gives. The host link and the pins receive it. -/
inductive Out where
  /-- A posted memory write with the requester ID of the function with owner index `fn` (R110). -/
  | write (fn addr : Nat) (bytes : List Byte) (attr : TlpAttr)
  /-- A read request to host memory (R110, R118, R131). -/
  | read (fn addr len : Nat) (attr : TlpAttr)
  /-- A read of the function that completed badly is reported through AER (R120). -/
  | aer (fn : Nat) (how : Cpl)
  /-- An MSI-X message of the function (R103). -/
  | msix (fn vec : Nat)
  /-- The data that a read with an effect, or a refused read, returns to its function. -/
  | ret (fn : Nat) (value : Nat)
  /-- Data returned to the MGC's own port. -/
  | retMgc (value : Nat)
  /-- A pulse of `ns` nanoseconds on a sideband pin (R525). The levels of pins are functions of State. -/
  | pulse (id ns : Nat)
  /-- VOUT_COMMAND on the regulator bus: the new target of VDD_CORE in millivolts (R395). -/
  | vout (mv : Nat)
  /-- A message of a management protocol: protocol number, command code, data. -/
  | reply (proto cmd : Nat) (data : List Nat)
  /-- A flit sent on a Causeway port: its 256 bytes (R361). -/
  | flit (port : Nat) (bytes : List Byte)
  /-- A HELLO sent on a port in TRAIN, or the echo of the peer's: device ID, domain and port number (R366). -/
  | hello (port : Nat) (echo : Bool) (dev domain number : Nat)
  deriving DecidableEq, Repr

/-- The states of the host link (Table — Power states, R400): L0, L1 and down. There is no L0s. -/
inductive LinkSt where
  | l0 | l1 | down
  deriving DecidableEq, Repr

/-! ## Fences (spec/05_host_objects_fences.md) -/

/-- The error codes of R100. -/
inductive Err where
  | lodeUnknown | berthNotOwned | berthTooShort | admissionTimeout | queueFull
  | bagOverCap | indexRange | saturated | epochGone
  | poison | faultPinned | faultUnserviced | vaultRetired
  | thermalTier | levelChange | deadline
  | residue | engineBenched
  | remoteLate | remoteRefused | portQuarantined | peerAbsent
  | contextReset | polderReset | planReplaced | aborted
  deriving DecidableEq, Repr

/-- The number of an error code (Table — Error codes). -/
def Err.code : Err → Nat
  | .lodeUnknown => 0x0101 | .berthNotOwned => 0x0102 | .berthTooShort => 0x0103 | .admissionTimeout => 0x0104
  | .queueFull => 0x0105 | .bagOverCap => 0x0201 | .indexRange => 0x0202 | .saturated => 0x0203
  | .epochGone => 0x0204 | .poison => 0x0301 | .faultPinned => 0x0302 | .faultUnserviced => 0x0303
  | .vaultRetired => 0x0304 | .thermalTier => 0x0401 | .levelChange => 0x0402 | .deadline => 0x0403
  | .residue => 0x0501 | .engineBenched => 0x0502 | .remoteLate => 0x0601 | .remoteRefused => 0x0602
  | .portQuarantined => 0x0603 | .peerAbsent => 0x0604 | .contextReset => 0x0701 | .polderReset => 0x0702
  | .planReplaced => 0x0703 | .aborted => 0x0704

/-- The holder of a fence: the run, or the command, that will signal it (R96). -/
inductive Holder where
  | run (id : Nat)
  | cmd (op : OpSel)
  deriving DecidableEq, Repr

/-- The states of a fence (R96). A signalled fence keeps its error (none: E_NONE) and the low 32 bits of its tick. -/
inductive FenceSt where
  | armed
  | held (h : Holder)
  | signalled (err : Option Err) (tick : Nat)
  deriving DecidableEq, Repr

/-! ## Plans and frames (spec/08_plans_lodes.md) -/

/-- A lode record (R189). -/
structure Lode where
  firstStep : Nat
  stepCount : Nat
  capTrunc : Bool
  period : Nat
  phase : Nat
  instances : Nat
  tierMax : Nat
  levelMask : Nat
  bagCap : Nat
  duration : Nat
  maxWait : Nat
  faultAllow : Nat
  minIn : Nat
  maxIn : Nat
  outLen : Nat
  scratchStride : Nat
  deriving DecidableEq, Repr

/-- A step record (R189). -/
structure PStep where
  lane : Nat
  laneCount : Nat
  start : Nat
  duration : Nat
  pageable : Bool
  output : Bool
  remote : Bool
  dep0 : Nat
  dep1 : Nat
  share : Nat
  descOff : Nat
  descLen : Nat
  grant : Nat
  deriving DecidableEq, Repr

/-- A fit record (R189). -/
structure Fit where
  lane : Nat
  laneCount : Nat
  start : Nat
  length : Nat
  deriving DecidableEq, Repr

/-- A grant reference (R189). -/
structure GrantRef where
  peer : Nat
  grant : Nat
  reqPerFrame : Nat
  deriving DecidableEq, Repr

/-- A plan: the parsed image, its descriptor section and where that section was copied (R182). -/
structure Plan where
  crc : Nat
  frameLen : Nat
  lodes : List Lode
  steps : List PStep
  fits : List Fit
  grants : List GrantRef
  descs : List Byte
  descVa : Nat
  descCtx : Nat
  deriving DecidableEq, Repr

/-- The kinds a frame gives to a tick (R156). -/
inductive TickKind where
  | idle
  | polder (p : Nat)
  | owner
  | background
  | service
  | transit
  deriving DecidableEq, Repr

/-- A frame: its identifier, its length, and for each lane of R155 in directory order the kinds of its ticks as
runs of equal kind. -/
structure Frame where
  id : Nat
  length : Nat
  lanes : List (List (TickKind × Nat))
  deriving DecidableEq, Repr

/-- An armed switch of a plan or of the frame (R184). -/
structure Armed where
  boundary : Nat
  dropUnfit : Bool
  fence : Option Nat
  deriving DecidableEq, Repr

/-! ## Runs (spec/08_plans_lodes.md, R178) -/

/-- The states of a run that has not ended. -/
inductive RunPhase where
  | queued | admitted | releasing
  deriving DecidableEq, Repr

/-- The states of a run's input staging (R118). -/
inductive Staging where
  | none | waiting | reading | done
  deriving DecidableEq, Repr

/-- The states of one step of an admitted run; a running step remembers the tick at which it started, a stalled one also
the tick at which it stalled and the fault it waits on, and once that is filled the tick at which it resumes (R146). The
work of a step that has `worked` is done. -/
inductive StepSt where
  | waiting
  | running (start : Nat)
  | stalled (start since fault : Nat)
  | filled (start since wake : Nat)
  | worked (start : Nat)
  | complete
  deriving DecidableEq, Repr

/-- `TN_SLABS_VA`, `TN_SLABS` and `TN_GEOM` as a Tarn step read them (R342). -/
structure SlabRegs where
  va : Nat
  stride : Nat
  count : Nat
  layers : Nat
  kv : Nat
  cap : Nat
  deriving DecidableEq, Repr

/-- What one step of a run has under way or has produced for the step that follows it on a direct path (R9), held until
the run ends: the tag is the step's index. `bags` is the Punch's output: per bag, the rows (table, row) in element order;
`parts` a gather step's partial sums: bag, vault, columns (R241, R242). The rest is a Solder step's batch: the entries
distributed, the next one, the entries applied, and the towers whose Solder has stopped (R264, R271); `next` is also the
byte offset at which a stalled Ladle step resumes (R146). -/
structure StepData where
  step : Nat
  bags : List (List (Nat × Nat)) := []
  parts : List (Nat × Nat × List Nat) := []
  limit : Nat := 0
  next : Nat := 0
  /-- The slab registers as a Tarn step read them in its first tick (R342). -/
  slab : Option SlabRegs := none
  applied : Nat := 0
  stopped : List Nat := []
  deriving DecidableEq, Repr

/-- An input berth of a run that failed while a staging read was outstanding: its header goes back to HOST once the read
has completed (Table — Berth states). `len` is the LENGTH of that header, which is not stated. -/
structure Returning where
  run : Nat
  owner : Nat
  staithe : Nat
  berth : Nat
  seq : Nat
  len : Nat
  deriving DecidableEq, Repr

/-- A run that has passed acceptance check 4 and has not ended. -/
structure Run where
  id : Nat
  owner : Nat
  ctx : Nat
  queue : Nat
  lode : Nat
  /-- The eight words of the run block (R114). -/
  block : List Nat
  fence : Nat
  phase : RunPhase
  accepted : Nat
  /-- Check 8 is deferred by an invalidation hold (R152). -/
  deferred : Bool
  staging : Staging
  staged : List Byte
  /-- Bytes that the staging reads asked for. -/
  stageN : Nat
  /-- Bytes reserved in the owner's staging buffer (R118). -/
  reserve : Nat
  inHeld : Bool
  outHeld : Bool
  admittedAt : Nat
  /-- The plan that was in force when the run was admitted. -/
  under : Option Plan
  inst : Nat
  pin : Nat
  steps : List StepSt
  data : List StepData
  stalledTicks : Nat
  /-- A failure that takes effect at the run's next step boundary (R89, R71). -/
  stop : Option Err
  /-- Failures found by a step and signalled at its planned end: step index and code. -/
  late : List (Nat × Err)
  /-- The run truncated at least one bag (header TRUNC, R112). -/
  trunc : Bool
  deriving DecidableEq, Repr

/-! ## Translation (spec/07_translation.md) -/

/-- What a walk recorded for one page: a leaf, or a page that reads as BAD_ENTRY or BAD_TARGET. -/
inductive PageRes where
  | leaf (target addr : Nat) (w : Bool)
  | badEntry
  | badTarget
  deriving DecidableEq, Repr

/-- One entry of the translation store: the page's first 4 KiB page number, its size in 4 KiB pages, the result. -/
structure Ent where
  page : Nat
  pages : Nat
  res : PageRes
  deriving DecidableEq, Repr

/-- A registered memory object (R138): its global slot, its owner and context, its range in 4 KiB pages. -/
structure Mob where
  slot : Nat
  owner : Nat
  ctx : Nat
  page : Nat
  pages : Nat
  pinned : Bool
  write : Bool
  broken : Bool
  ents : List Ent
  deriving DecidableEq, Repr

/-- A pending fault (R144). -/
structure PFault where
  ctx : Nat
  id : Nat
  /-- The faulting page, and its size in units of 4 KiB: a hole is one unit, a write-denied page as large as it is mapped. -/
  page : Nat
  pages : Nat
  slot : Nat
  write : Bool
  /-- 1 NOT_PRESENT, 2 WRITE_DENIED (Table — Fault record). -/
  kind : Nat
  runs : List Nat
  /-- A RETRY has found the page present and its re-walk has not filled the store yet (R146). -/
  retry : Bool
  deriving DecidableEq, Repr

/-- A range that an invalidation holds (R150). -/
structure Hold where
  ctx : Nat
  page : Nat
  pages : Nat
  deriving DecidableEq, Repr

/-! ## Long operations (spec/18_resets_hasps_longops.md, R427) -/

/-- The phases of an invalidation (Table — Invalidation steps). -/
inductive InvPhase where
  | drain | flush | rewalk
  deriving DecidableEq, Repr

/-- What a long operation does, with what its committed steps have produced so far. -/
inductive Task where
  | planLoad (image : List Byte) (cpl : Cpl) (descVa descCtx : Nat)
  | planUnload
  | frameLoad (image : List Byte) (cpl : Cpl)
  | mobWrite (mob : Mob) (next : Nat)
  | mobClear (slot ctx page pages : Nat) (phase : InvPhase) (todo : List (Nat × Nat × Nat))
  | inval (phase : InvPhase) (page pages : Nat) (todo : List (Nat × Nat × Nat))
  | fenceReset (block next : Nat)
  | tblWrite (slot : Nat) (record : List Byte) (cpl : Cpl)
  | tblClear (slot : Nat)
  | hmk (op table first count : Nat)
  | publish
  | abandon
  | repair (cand vault : Nat)
  | zeroPolder (p : Nat)
  | packLoad (image : List Byte) (cpl : Cpl)
  | trustLoad (record : List Byte) (cpl : Cpl) (leafOk : Bool)
  deriving DecidableEq, Repr

/-- A long operation in progress: committed work `done` of `total`, halted or running (R429). -/
structure LongOp where
  sel : OpSel
  owner : Nat
  /-- The fences that the operation's end will signal, the newest first. -/
  fences : List Nat
  halted : Bool
  done : Nat
  total : Nat
  task : Task
  /-- Of those, the fence of the command that started the operation or last resumed it, when it named one (Table — Polder
  states, ABORT). -/
  last : Option Nat := none
  deriving DecidableEq, Repr

/-! ## Zeroing on reassignment (R542, R543) -/

/-- What is being zeroed. -/
inductive ZeroItem where
  | extent (e : Nat)
  | way (w : Nat)
  | mereUnit (u : Nat)
  deriving DecidableEq, Repr

/-- A pending zeroing, in the order in which zeroings became pending: the item, the bytes already written, and the
polder whose own zeroing it is part of (16: a release to the PF or a change of holder). -/
structure ZeroJob where
  item : ZeroItem
  written : Nat
  polder : Nat
  deriving DecidableEq, Repr

/-- What the part remembers of a polder beside its registers: the state a FUNCTION reset returns to, whether zeroing
is due (Table — Polder states), whether the Reeve admits its runs only from the next frame boundary on, and the PF
runs that a TDISP lock still waits for (R82). -/
structure PolderAux where
  resetFrom : Nat
  zeroDue : Bool
  waitBoundary : Bool
  lockWait : Option (List Nat)
  /-- An IDE selective stream is bound to the VF (R81); its posted writes and reads travel in it while the polder is
  TDISP-locked (R110). -/
  ide : Bool
  deriving DecidableEq, Repr

/-- A polder that nothing waits for. -/
def polderAux0 : PolderAux := { resetFrom := 0, zeroDue := false, waitBoundary := false, lockWait := none, ide := false }

/-! ## Tables and the Hummock (spec/10_embedding_path.md) -/

/-- A table slot that is not EMPTY (R226): the record of R227, its scale registers, and, while it is CLOSING, the runs
admitted before the CLEAR (R230). -/
structure TableSlot where
  rows : Nat
  base : Nat
  dim : Nat
  fmt : Nat
  live : Bool
  acc : Bool
  dedup : Bool
  scaleKind : Nat
  log2N : Nat
  hash : Nat
  salt : Nat
  remapVa : Nat
  remapLen : Nat
  sidecarVa : Nat
  /-- FP32 bits, or signed bytes as they stand. -/
  scales : List Nat
  closing : Option (List Nat)
  deriving DecidableEq, Repr

/-- A line of the Hummock: the line address (device-physical address / 128), the polder it was allocated for, and
whether it is pinned. Its data are those of vault memory (R246). -/
structure HLine where
  line : Nat
  polder : Nat
  pinned : Bool
  deriving DecidableEq, Repr

/-! ## Direct paths (R9) -/

/-- A finished tile (spec/13_anvil.md): the run it belongs to, and its 32-bit elements in row order. -/
structure Tile where
  run : Nat
  elems : List Nat
  deriving DecidableEq, Repr

/-- An Anvil job under way: the run and step, and the tiles that it has computed and not yet delivered (R307). -/
structure AvJob where
  run : Nat
  step : Nat
  tiles : List (List Nat)
  /-- The tile after them whose residues differ, with the residue expected and the one observed (R315). -/
  bad : Option (Nat × Nat × Nat) := none
  deriving DecidableEq, Repr

/-- The 4,096 scale registers of an Anvil, with the run and step that loaded them (R304); a register that it did not load
is absent. -/
structure ScaleBank where
  run : Nat
  step : Nat
  regs : SMap Nat
  deriving DecidableEq, Repr

/-- A Planisher and the step that it runs (R316, R317): program, position, loop levels and registers. Tiles are keyed
512 × tile + 32 × row + column; the mask registers hold 512 bits each. -/
structure Pl where
  run : Nat
  step : Nat
  desc : List Byte
  off : Nat
  prog : List Nat
  pc : Nat
  /-- Cycles of the execution so far (R320). -/
  cyc : Nat
  /-- Open loops, the innermost first: level, first instruction of the body, instruction after it, rounds left. -/
  loops : List (Nat × Nat × Nat × Nat)
  lc : List Nat
  tiles : SMap Nat
  masks : List Nat
  flags : List Nat
  sc : List Nat
  deriving DecidableEq, Repr

/-! ## The Causeway fabric (spec/16_causeway.md) -/

/-- A remote request of this device (R380): waiting for its response, or ended with an outcome. -/
structure Request where
  port : Nat
  tag : Nat
  owner : Nat
  run : Nat
  step : Nat
  /-- Device-virtual address and length of the response's data, in the context of the run. -/
  dst : Nat
  len : Nat
  push : Bool
  /-- The request has no response yet. -/
  open_ : Bool
  /-- The code with which its run fails at the deadline, when it ended badly. -/
  err : Option Err
  deriving DecidableEq, Repr

/-- An export grant (R375): its words, its state (0 FREE, 1 VALID, 2 REVOKING, 3 REVOKED), and whether it is suspended
(R378). -/
structure Grant where
  words : List Nat
  st : Nat
  suspended : Bool
  deriving DecidableEq, Repr

/-- A request of a peer that waits for its answer (R384): reserved, to complete at tick `done`, or refused with a status
(Table — Request header) that leaves after tick `done`. `revoked` says that its grant was revoked by a reset (R377). -/
structure Service where
  port : Nat
  src : Nat
  tag : Nat
  slot : Nat
  rows : List Nat
  off : Nat
  len : Nat
  data : List Byte
  done : Nat
  refuse : Bool
  status : Nat
  deriving DecidableEq, Repr

/-- A message whose last flit has arrived (R372): its ingress port, virtual channel, source, body and arrival time. -/
structure Msg where
  port : Nat
  vc : Nat
  src : Nat
  body : List Byte
  ns : Nat
  /-- The flits of the receiver's buffer that it occupies (R364). -/
  flits : Nat
  deriving DecidableEq, Repr

/-- What a data flit carries: its virtual channel, LAST, DST, SRC and body. -/
structure Flit where
  vc : Nat
  last : Bool
  dst : Nat
  src : Nat
  body : List Byte
  deriving DecidableEq, Repr

/-- An entry of the retry buffer: the sequence number SN of a data flit, and its 256 bytes as sent (R363). -/
structure Sent where
  sn : Nat
  bytes : List Byte
  deriving DecidableEq, Repr

/-- A flit for another device that waits for a TRANSIT tick (R374), with its ingress port, its egress port by the route
table as it stood when the flit arrived, and its arrival time. -/
structure Transit where
  port : Nat
  out : Nat
  flit : Flit
  ns : Nat
  deriving DecidableEq, Repr

/-- One Causeway port beside its registers (R362 to R367, R388). -/
structure Port where
  txSn : Nat
  rxSn : Nat
  /-- The retry buffer, oldest first. -/
  retry : List Sent
  /-- Credits held for each virtual channel, and the flits of each that the receiver's buffer holds. -/
  credits : List Nat
  held : List Nat
  /-- The keys and salts of the two directions (R362), and the data flits sent under the present key (R370). -/
  txKey : List Byte
  txSalt : List Byte
  rxKey : List Byte
  rxSalt : List Byte
  keyFlits : Nat
  /-- The domain and the port number of the peer's HELLO (R366), and the anchors of the trust record when the present
  authentication started (R371). -/
  peerDomain : Nat
  peerPort : Nat
  anchors : List (List Byte)
  /-- Flits of MGMT messages that wait to be sent: LAST and body. -/
  mgmt : List (Bool × List Byte)
  /-- A NAK has been sent and not yet satisfied; the SEQ of the NAKs received in a row without progress, and how many. -/
  nakOut : Bool
  nakSeq : Nat
  nakRun : Nat
  /-- `DEV_NS` when the state was entered, and of the last keep-alive received and sent. -/
  since : Nat
  keepNs : Nat
  keepSent : Nat
  /-- Times of retrains and of hostile counts, newest first. -/
  retrains : List Nat
  hostile : List Nat
  /-- The present second on `DEV_NS` (R387), and LATE_RCVD at its start. -/
  lateSec : Nat
  lateBase : Nat
  /-- Messages not yet complete, by 256 × virtual channel + SRC: flits and body bytes. -/
  parts : SMap (Nat × List Byte)
  /-- Messages in transit from this port, by 65,536 × virtual channel + 256 × SRC + DST: 1 while a message is between its
  first and last flit, 2 when it is being dropped for its budget (R374). -/
  mid : SMap Nat
  deriving DecidableEq, Repr

/-- What the ECC of a granule finds when it is read (R211). Clean is a granule with no error. -/
inductive Ecc where
  | clean | correctable | uncorrectable | poison
  deriving DecidableEq, Repr

/-! ## Board, management plane and history -/

/-- The rails and reset pins of the board, and what the always-on island keeps of them (R390, R407, R497 to R506). -/
structure Board where
  /-- VDD_AON regulates and the power-on reset is released. -/
  aon : Bool
  pwrGood : Bool
  /-- PERST_N is released. -/
  perst : Bool
  coreEn : Bool
  /-- The straps have been sampled since VDD_AON rose. -/
  strapped : Bool
  /-- THERMTRIP_N is asserted. -/
  trip : Bool
  /-- The next start of the planes is a COLD reset: a trip, or a fall of PWR_GOOD (R407, R501). -/
  coldNext : Bool
  retain : Bool
  /-- The control and data planes have started, and whether that start is COLD. -/
  planes : Bool
  cold : Bool
  /-- `DEV_NS` at the last release of PERST_N. -/
  perstNs : Nat
  /-- `DEV_NS` when each tower's present training attempt began (R506). -/
  trainNs : List Nat
  /-- Training of each tower: 0 first attempt, 1 second, 2 trained, 3 failed (R506). -/
  train : List Nat
  deriving DecidableEq, Repr

/-- An entry of the Hallmark log (Table — Log entry); OUTCOME 3 is VOID. `check` is the byte CHECK as written. -/
structure LogEntry where
  setting : Nat
  outcome : Nat
  claim : Bool
  target : Nat
  strike : Nat
  old : Nat
  new : Nat
  ns : Nat
  check : Nat
  deriving DecidableEq, Repr

/-- The Hallmark bank and the fuses (R487 to R496): the device's UID and factory envelope cap, the log, and the key rows
used so far, oldest first; a signer row names its slot. -/
structure Bank where
  uid0 : Nat
  uid1 : Nat
  factoryCap : Nat
  log : List LogEntry
  ownerRows : List (List Byte)
  signerRows : List (Nat × List Byte)
  deriving DecidableEq, Repr

/-- The image in a firmware slot: its security version, its version, and its bytes once an update has brought them; none
stands for the image that the part left the factory with (R476, R480). -/
structure FwSlot where
  svn : Nat
  version : Nat
  image : Option (List Byte)
  deriving DecidableEq, Repr

/-- A firmware update under way (R483): the PLDM state, the components named and the one in transfer, its size and the
bytes received, whether it was verified, and the image that verification found. -/
structure Update where
  state : Nat
  comps : List Nat
  comp : Nat
  size : Nat
  data : List Byte
  verified : Bool
  image : FwSlot
  applied : Bool
  deriving DecidableEq, Repr

/-- An SPDM connection of one binding: how far the negotiation is (0 none, 1 version, 2 capabilities, 3 algorithms), and
its sessions, each with whether FINISH has completed it. -/
structure Spdm where
  phase : Nat
  sessions : List (Nat × Bool)
  deriving DecidableEq, Repr

/-- The management controller (spec/22_management_hallmark.md): whether it runs, and whether it runs in ROM recovery; its
firmware slots; the FIELD_REPAIR authorisations held for each vault (next strike, strikes left); the endpoint IDs of its
two bindings and its terminus ID; the update under way; the Assay pack it keeps; SPDM over MCTP and over DOE. -/
structure Mgc where
  up : Bool
  recovery : Bool
  slots : List FwSlot
  preferred : Nat
  held : SMap (Nat × Nat)
  eidSmb : Nat
  eidPcie : Nat
  tid : Nat
  upd : Update
  pack : List Byte
  spdm : Spdm
  doe : Spdm
  deriving DecidableEq, Repr

/-- Patina history (R455, R456, R407, R506): baselines (plus 1) and last valid scores by 256 × kind + instance, daily
points with the newest first, powered days, charge in A·s by rail, thermal cycles by tower, thermal trips (source,
`DEV_NS`) and training failures (tower, `DEV_NS`). -/
structure Patina where
  bases : SMap Nat
  scores : SMap Nat
  points : List (Nat × Nat)
  days : Nat
  charge : SMap Nat
  cycles : SMap Nat
  trips : List (Nat × Nat)
  trainFails : List (Nat × Nat)
  deriving DecidableEq, Repr

/-- An Assay run that has started (R449): the lane of its engine, whether it is a follow-up, the pack it started with, the
number of tests passed and the ticks used in the present test. -/
structure AsyRun where
  lane : Nat
  follow : Bool
  store : Nat
  test : Nat
  ticks : Nat
  deriving DecidableEq, Repr

/-- The Assay units (R447 to R451): two pack stores and the one in force, whether its pack is to be verified again; the
lanes whose scheduled run waits, oldest first; the runs that have started; the fences that wait for a sweep's end (with
the lanes still to end) or for a verdict. -/
structure Assay where
  stores : List (List Byte)
  force : Option Nat
  reverify : Bool
  sched : List Nat
  runs : List AsyRun
  sweeps : List (Nat × List Nat)
  tests : List (Nat × Nat)
  /-- `DEV_NS` at the start of the present interval of scheduled sweeps (R450). -/
  sweepNs : Nat
  deriving DecidableEq, Repr

/-! ## The whole part -/

/-- A ring in host memory (R104): the phase bit of the next record, and whether a record was lost before it. -/
structure Ring where
  phase : Bool
  lost : Bool
  deriving DecidableEq, Repr

/-- The coalescing of one context's interrupts (R103): signals not yet notified, and the tick of the first. -/
structure Coal where
  count : Nat
  first : Nat
  deriving DecidableEq, Repr

/-- The state of the part: everything the spec gives it, and the queue of commands that wait. -/
structure State where
  /-- The register fields that hold a value, by `Fld.key`; an unlisted field reads its reset value. -/
  flds : SMap Nat
  /-- What the part has sent out, newest first. -/
  out : List Out
  /-- `DEV_TICK` (R188: 0 after WARM and COLD reset). -/
  tick : Nat
  /-- `DEV_NS` (R531), and the part of a nanosecond beyond it, in 1/39 ns. -/
  ns : Nat
  nsPart : Nat
  /-- The model's own counter of free values (Config.freeValue). -/
  free : Nat
  /-- Fences by global number; an unlisted fence is ARMED and its word reads 0. -/
  fences : SMap FenceSt
  /-- Owner and local index of each object, by `objKey`; an unlisted object belongs to the PF. -/
  own : SMap (Nat × Nat)
  /-- Items that are not clean (R543), by `ZeroItem.key`. -/
  dirty : SMap Bool
  /-- Zeroings that wait or run, in the order in which they became pending (R542). -/
  zeroJobs : List ZeroJob
  /-- What each polder's reset will return to. -/
  polders : SMap PolderAux
  /-- Runs that have not ended, in acceptance order. -/
  runs : List Run
  /-- Runs that failed after their admission and whose remaining ticks stay idle (R97), until their planned end. -/
  ended : List Run
  /-- Input berths that wait for a staging read to complete before they return (R121). -/
  returning : List Returning
  /-- Number of the next run. -/
  nextRun : Nat
  /-- Plans in force and staged, and armed plan switches, by owner index. -/
  plans : SMap (Option Plan)
  stagedPlans : SMap (Option Plan)
  planArmed : SMap (Option Armed)
  /-- The frame in force, the staged frame and the armed commit. -/
  frame : Option Frame
  stagedFrame : Option Frame
  frameArmed : Option Armed
  /-- Long operations in progress. -/
  ops : List LongOp
  /-- Valid memory objects with their store entries, held ranges, pending faults and last fault number by context. -/
  mobs : List Mob
  holds : List Hold
  faults : List PFault
  lastFault : SMap Nat
  /-- Rings: event rings by owner index, fault rings at 32 + context, the CPER ring at 20, dump rings at 512 + view. -/
  rings : SMap Ring
  /-- MSI-X table dwords and pending bits, by 4,096 × owner index + position (R534). -/
  msix : SMap Nat
  pba : SMap Bool
  coal : SMap Coal
  /-- Owner indices of the functions whose Bus Master Enable is 0 (R128). -/
  bmeOff : List Nat
  /-- The base addresses held by the BARs (R41), by `barKey`; the D-states of the functions by owner
  index (0 D0 to 3 D3), which change no power state (R400); and the state of the host link. No command of the table
  writes the configuration space (notes/assumptions/109.md). -/
  bars : SMap Nat
  dStates : SMap Nat
  link : LinkSt
  /-- Table slots by 1,024 × owner + slot. -/
  tables : SMap (Option TableSlot)
  /-- Hummock lines by (8,192 × tower + set) × 16 + way; the sketch by ((polder × 8 + tower) × 4 + row) × 4,096 +
  counter, and the tick of its last halving; candidate queues by polder × 8 + tower, oldest first (R245 to R249). -/
  lines : SMap (Option HLine)
  sketch : SMap Nat
  halved : Nat
  cands : SMap (List Nat)
  /-- The Mere offset of each owner's journal mapping (R268). -/
  jnlMap : SMap (Option Nat)
  /-- The finished-tile queue of each Anvil, oldest first (R309). -/
  tiles : SMap (List Tile)
  /-- The job of each Anvil, and each Planisher. -/
  avJobs : SMap (Option AvJob)
  /-- The scale registers of each Anvil that a step holds (R304). -/
  avScale : SMap (Option ScaleBank)
  pls : SMap (Option Pl)
  /-- Remote requests of this device whose step has not reached its deadline (R380), the next TAG of each owner, and
  the requests sent for each grant reference in the present frame (64 × owner + reference). -/
  requests : List Request
  nextTag : SMap Nat
  sentFrame : SMap Nat
  /-- Export grants, reserved requests of peers in order of completion of their checks, requests received for each
  grant and peer in the present frame (256 × slot + peer), and the last completion tick of each service lane. -/
  grants : SMap (Option Grant)
  services : List Service
  rates : SMap Nat
  laneDone : SMap Nat
  ports : SMap (Option Port)
  /-- Messages for this device and flits for others that wait, oldest first; the trust record in force (R371): anchors and
  chain as bytes; the times of the quarantines with cause FAULT (Table — Replace causes). -/
  inbox : List Msg
  transit : List Transit
  trust : List Byte
  faultQuar : List Nat
  /-- The level and tier sampled for the next boundary (R35, R77), none outside the span from sample point to
  boundary. -/
  sampled : Option (Nat × Nat)
  /-- Changes of the level and of the tier that wait for their apply tick while no frame is in force (R396, R208):
  value, tick. -/
  pendLevel : Option (Nat × Nat)
  pendTier : Option (Nat × Nat)
  /-- The last frame boundary that has been taken. -/
  boundaryDone : Nat
  /-- The polder that each vault served last with a borrowed slot (R203), and `WR_PLDp.LEND` as it stood at the last
  boundary (R204), by 16 × tower + polder. -/
  served : SMap Nat
  lend : SMap Bool
  /-- The slots of each vault that are lent in the present tick: the polder served last, and how many (R203); and whether
  a weir has denied a slot to the command that runs now (it reads false between commands). -/
  lent : SMap (Nat × Nat)
  denied : Bool
  /-- One more than the time on `DEV_NS` of the first sample of the present series below T_k − 2 °C, by 4 × tower + k
  (R206); the time and the set of the last EV_ADVISORY (R209). -/
  coolSince : SMap Nat
  /-- The tier that each stack holds, by tower (R206); it outlives a WARM reset, though `TWR_TEMP` does not (R540). -/
  tierHeld : SMap Nat
  advNs : Option Nat
  advSet : Nat
  /-- The snapshot bank (R469) by counter, the header words of its record, the rings that the dump writer has still to
  write (R471), and the dumps that each ring has missed (R472). -/
  snap : SMap Nat
  snapHdr : List Nat
  dumpTodo : List Nat
  dumpMissed : SMap Nat
  /-- Counters: device counters 0 to 1,279, then 160 for each polder (R464, R465), and the bases of R466. -/
  counts : SMap Nat
  bases : SMap Nat
  /-- Vault memory by vault × 0x6000_0000 + vault-local address (R192), and Mere by byte offset. -/
  vault : SMap Byte
  mere : SMap Byte
  /-- What the ECC of each 32-byte granule finds (R211, R538), by byte key / 32. -/
  vaultEcc : SMap Ecc
  mereEcc : SMap Ecc
  /-- Granules whose correction waits to be written back, by vault (R214). -/
  writeBacks : SMap (List Nat)
  /-- Corrections in a row within the present scrub pass (R218), by row number over all vaults. -/
  rowCorr : SMap Nat
  /-- The rows that have become repair candidates in the present pass (R218), by row number. -/
  rowCand : SMap Bool
  /-- The spare row that a repair is filling (R219): the bytes and the ECC of the granules copied so far, by the keys of
  the bytes and granules of the row itself. -/
  spare : SMap Byte
  spareEcc : SMap Ecc
  /-- Row repairs struck in the Hallmark bank (R221): vault, bank, row, spare row. -/
  repairs : List (Nat × Nat × Nat × Nat)
  /-- The next granule that patrol scrub reads in each vault, the start of its pass on `DEV_NS`, and the passes that it
  has completed (R217). -/
  scrubAt : SMap Nat
  scrubNs : SMap Nat
  scrubPass : SMap Nat
  /-- The times on `DEV_NS` of each engine's marks, newest first (R440), by engine lane. -/
  marks : SMap (List Nat)
  /-- Patina history: benched engines (by lane) and retired vaults (R442, R224). -/
  benchedHist : List Nat
  retiredHist : List Nat
  /-- CPER records written since COLD reset (R452). -/
  cperCount : Nat
  /-- Where platform events go, when the board management controller has enabled them (R481). -/
  eventReceiver : Option Nat
  /-- The board's pins and the always-on island; the Hallmark bank; the MGC; Patina history. -/
  board : Board
  bank : Bank
  mgc : Mgc
  patina : Patina
  /-- The Assay units, and the number of BACKGROUND ticks of each lane since the last reset (R435). -/
  assay : Assay
  bgTicks : SMap Nat
  /-- The ENGINE reset under way: lane, BACKGROUND ticks used, fence (R419). -/
  engReset : Option (Nat × Nat × Option Nat)
  /-- Each stack's temperature at its last sample, in thousandths of a degree, and the last peak and trough of R454. -/
  temps : SMap Nat
  swing : SMap (Nat × Option Nat)
  /-- The level whose target the MGC last commanded for VDD_CORE (R395); the boot voltage is that of L0 (R500). -/
  rail : Nat
  /-- The dump sequence number for which EV_DUMP_OVERRUN was last raised (R473). -/
  dumpOver : Option Nat
  /-- Board power of the present second: its highest report, and reports so far (Table — `PWR_BOARD`); the energy below
  one millijoule, in µJ. -/
  peak : Nat
  reports : Nat
  energyUj : Nat
  /-- The park pull in force on each sideband pin (R521, R522). -/
  parkPull : SMap Nat
  /-- The model's own account of a tick (notes/assumptions/58.md): how far the queueing of its events has come, and one
  more than the tick of the last window of each lode, by 65,536 × owner + lode. -/
  turn : Nat
  winAt : SMap Nat
  /-- The commands that wait, first in first out. -/
  pending : List Instr
  deriving DecidableEq, Repr

/-! ## Reset and the stops -/

/-- The reasons a step of the part stops with a fault. There is none: the manual describes every stop of the part as a
state (an error code on a fence, an error bit, a phase), so no command ends in a fault. -/
inductive Fault where
  /-- Nothing raises it. It is safe: a step that stopped would prove less. -/
  | none
  deriving DecidableEq, Repr

/-- The reasons a command has no meaning. -/
inductive Refusal where
  /-- Raised by an arm of `exec` whose command has no meaning yet. Safe: nothing is proved of such a command. -/
  | notModelled (mnemonic : String)
  deriving DecidableEq, Repr

/-- What a command answers. -/
abbrev Res := Host.Outcome State Fault Refusal

/-- No update under way. -/
def update0 : Update :=
  { state := 0, comps := [], comp := 0, size := 0, data := [], verified := false,
    image := { svn := 0, version := 0, image := none },
    applied := false }

/-- The board before VDD_AON regulates. -/
def board0 : Board :=
  { aon := false, pwrGood := false, perst := false, coreEn := false, strapped := false, trip := false, coldNext := false,
    retain := false, planes := false, cold := true, perstNs := 0, trainNs := [0, 0, 0, 0, 0, 0, 0, 0],
    train := [0, 0, 0, 0, 0, 0, 0, 0] }

/-- The Hallmark bank of a new AL9-384C; its UID is a model value (notes/assumptions/50.md). -/
def bank0 : Bank := { uid0 := 0, uid1 := 0, factoryCap := 0, log := [], ownerRows := [], signerRows := [] }

/-- An MGC that has not started, with a first image in both slots (notes/assumptions/50.md). -/
def mgc0 : Mgc :=
  { up := false, recovery := false,
    slots := [{ svn := 0, version := 0, image := none }, { svn := 0, version := 0, image := none }], preferred := 0,
    held := [], eidSmb := 0, eidPcie := 0, tid := 0, upd := update0, pack := [], spdm := { phase := 0, sessions := [] },
    doe := { phase := 0, sessions := [] } }

/-- Patina history before the first power-up. -/
def patina0 : Patina :=
  { bases := [], scores := [], points := [], days := 0, charge := [], cycles := [], trips := [], trainFails := [] }

/-- Assay units with both stores empty. -/
def assay0 : Assay :=
  { stores := [[], []], force := none, reverify := false, sched := [], runs := [], sweeps := [], tests := [], sweepNs := 0 }

/-- The part at reset: every register field at its reset value, every memory and object table empty, power not yet
applied (R409, R412, R510; notes/assumptions/51.md says how commands come to work from here). -/
def State.reset : State where
  flds := []
  out := []
  tick := 0
  ns := 0
  nsPart := 0
  free := 0
  fences := []
  own := []
  dirty := []
  zeroJobs := []
  polders := []
  runs := []
  ended := []
  returning := []
  nextRun := 0
  plans := []
  stagedPlans := []
  planArmed := []
  frame := none
  stagedFrame := none
  frameArmed := none
  ops := []
  mobs := []
  holds := []
  faults := []
  lastFault := []
  rings := []
  msix := []
  pba := []
  coal := []
  bmeOff := []
  bars := []
  dStates := []
  link := .down
  tables := []
  lines := []
  sketch := []
  halved := 0
  cands := []
  jnlMap := []
  tiles := []
  avJobs := []
  avScale := []
  pls := []
  requests := []
  nextTag := []
  sentFrame := []
  grants := []
  services := []
  rates := []
  laneDone := []
  ports := []
  inbox := []
  transit := []
  trust := []
  faultQuar := []
  sampled := none
  pendLevel := none
  pendTier := none
  boundaryDone := 0
  served := []
  lend := []
  lent := []
  denied := false
  coolSince := []
  tierHeld := []
  advNs := none
  advSet := 0
  snap := []
  snapHdr := []
  dumpTodo := []
  dumpMissed := []
  counts := []
  bases := []
  vault := []
  mere := []
  vaultEcc := []
  mereEcc := []
  writeBacks := []
  rowCorr := []
  rowCand := []
  spare := []
  spareEcc := []
  repairs := []
  scrubAt := []
  scrubNs := []
  scrubPass := []
  marks := []
  benchedHist := []
  retiredHist := []
  cperCount := 0
  eventReceiver := none
  board := board0
  bank := bank0
  mgc := mgc0
  patina := patina0
  assay := assay0
  bgTicks := []
  engReset := none
  temps := []
  swing := []
  rail := 0
  dumpOver := none
  peak := 0
  reports := 0
  energyUj := 0
  parkPull := []
  turn := 0
  winAt := []
  pending := []

end Sys2Proof.Machine
end

