-- ==== Sys2Proof/Machine/Fields.lean ====
section
/-! DEFINITION. The register fields of the part, one definition per field of the field tables of spec/ (R44):
the page's block, the offset, the bits, the access type, the reset value and the legal values. The names are the
tables' own: JCT_CEIL_EFF_LEVEL is the field EFF_LEVEL of `JCT_CEIL`. Reserved bits have no field: they read 0 and
ignore writes (R50). -/

namespace Sys2Proof.Machine
open Sys2Proof

/-- The same field on the page of another block: the header registers stand on every page (R42). -/
def Fld.on (f : Fld) (b : Block) : Fld := { f with block := b }

/-- The number of a field: page, offset and low bit, one number for each field of the part. -/
def Fld.key (f : Fld) (inst i : Nat) : Nat :=
  ((f.block.code * 1024 + inst) * 4096 + (f.off + f.stride * i)) * 64 + f.lo

/-- What the field reads before anything has written it. -/
def Fld.resetAt (f : Fld) (inst i : Nat) : Nat :=
  ((f.byIdx[i]?).getD (f.reset + f.perInst * inst + f.perIdx * i)) % 2 ^ f.width

/-- Read a field of register `i` of an array, on the page of instance `inst`. -/
def State.rdi (s : State) (f : Fld) (inst i : Nat) : Nat := SMap.get (f.resetAt inst i) s.flds (f.key inst i)

/-- Write a field of register `i` of an array; the value is cut to the field's width. -/
def State.wri (s : State) (f : Fld) (inst i v : Nat) : State :=
  { s with flds := SMap.put (f.resetAt inst i) s.flds (f.key inst i) (v % 2 ^ f.width) }

/-- Read a field of a register that is no array. -/
def State.rd (s : State) (f : Fld) (inst : Nat) : Nat := s.rdi f inst 0

/-- Write a field of a register that is no array. -/
def State.wr (s : State) (f : Fld) (inst v : Nat) : State := s.wri f inst 0 v

/-- Add to a counter field, modulo its width. -/
def State.bump (s : State) (f : Fld) (inst n : Nat) : State := s.wr f inst (s.rd f inst + n)

/-- The same for register `i` of an array. -/
def State.bumpi (s : State) (f : Fld) (inst i n : Nat) : State := s.wri f inst i (s.rdi f inst i + n)

/-- Add to a counter field that stops at its largest value. -/
def State.bumpSat (s : State) (f : Fld) (inst i n : Nat) : State :=
  s.wri f inst i (min (s.rdi f inst i + n) (2 ^ f.width - 1))

/-- Is the value legal for the field (R51)? -/
def Fld.isLegal (f : Fld) (v : Nat) : Bool :=
  f.legal.isEmpty || f.legal.any (fun r => decide (r.1 ≤ v) && decide (v ≤ r.2))

end Sys2Proof.Machine

namespace Sys2Proof.Machine.F
open Sys2Proof Sys2Proof.Machine

/-! ## spec/02_planes_clocks_junctions.md: Planes, clock domains and junctions -/

def JCT_CEIL_MGC_CEIL : Fld := { block := .junction, off := 0x040, lo := 0, width := 2, acc := .ro }
def JCT_CEIL_HOST_REQ : Fld := { block := .junction, off := 0x040, lo := 8, width := 2, acc := .ro }
def JCT_CEIL_EFF_LEVEL : Fld := { block := .junction, off := 0x040, lo := 16, width := 2, acc := .ro }
def JCT_CEIL_CUR_LEVEL : Fld := { block := .junction, off := 0x040, lo := 20, width := 2, acc := .ro }
def JCT_CEIL_EFF_SRC : Fld := { block := .junction, off := 0x040, lo := 24, width := 1, acc := .ro }
def JCT_CEIL_PENDING : Fld := { block := .junction, off := 0x040, lo := 25, width := 1, acc := .ro }

def JCT_HEALTH_REPLACE_DATA : Fld := { block := .junction, off := 0x048, lo := 0, width := 1, acc := .ro }
def JCT_HEALTH_REPLACE_MGC : Fld := { block := .junction, off := 0x048, lo := 1, width := 1, acc := .ro }
def JCT_HEALTH_REPLACE_EFF : Fld := { block := .junction, off := 0x048, lo := 2, width := 1, acc := .ro }
def JCT_HEALTH_FAULT_DATA : Fld := { block := .junction, off := 0x048, lo := 4, width := 1, acc := .ro }
def JCT_HEALTH_FAULT_MGC : Fld := { block := .junction, off := 0x048, lo := 5, width := 1, acc := .ro }
def JCT_HEALTH_FAULT_EFF : Fld := { block := .junction, off := 0x048, lo := 6, width := 1, acc := .ro }

def JCT_BENCHED_ANVIL : Fld := { block := .junction, off := 0x050, lo := 0, width := 8, acc := .ro }
def JCT_BENCHED_PLANISHER : Fld := { block := .junction, off := 0x050, lo := 8, width := 8, acc := .ro }
def JCT_BENCHED_SOLDER : Fld := { block := .junction, off := 0x050, lo := 16, width := 8, acc := .ro }
def JCT_BENCHED_PUNCH : Fld := { block := .junction, off := 0x050, lo := 24, width := 2, acc := .ro }
def JCT_BENCHED_RIDDLE : Fld := { block := .junction, off := 0x050, lo := 26, width := 2, acc := .ro }
def JCT_BENCHED_TARN : Fld := { block := .junction, off := 0x050, lo := 28, width := 2, acc := .ro }
def JCT_BENCHED_LADLE : Fld := { block := .junction, off := 0x050, lo := 30, width := 16, acc := .ro }

def JCT_PORT_EN_HOST_EN : Fld := { block := .junction, off := 0x078, lo := 0, width := 12, acc := .rw }
def JCT_PORT_EN_MGC_EN : Fld := { block := .junction, off := 0x078, lo := 16, width := 12, acc := .ro, reset := 4095 }
def JCT_PORT_EN_QUAR : Fld := { block := .junction, off := 0x078, lo := 32, width := 12, acc := .ro }
def JCT_PORT_EN_EFF : Fld := { block := .junction, off := 0x078, lo := 48, width := 12, acc := .ro }

def JCT_RESET_HOST_SCOPE : Fld := { block := .junction, off := 0x080, lo := 0, width := 2, acc := .ro }
def JCT_RESET_MGC_SCOPE : Fld := { block := .junction, off := 0x080, lo := 4, width := 2, acc := .ro }
def JCT_RESET_EFF_SCOPE : Fld := { block := .junction, off := 0x080, lo := 8, width := 2, acc := .ro }
def JCT_RESET_GEN_CTRL : Fld := { block := .junction, off := 0x080, lo := 16, width := 16, acc := .ro }
def JCT_RESET_GEN_MGMT : Fld := { block := .junction, off := 0x080, lo := 32, width := 16, acc := .ro }

def JCT_ZERO_MGC_REQ : Fld := { block := .junction, off := 0x088, lo := 0, width := 16, acc := .ro }
def JCT_ZERO_BUSY : Fld := { block := .junction, off := 0x088, lo := 16, width := 16, acc := .ro }
def JCT_ZERO_DONE : Fld := { block := .junction, off := 0x088, lo := 32, width := 16, acc := .w1c }

/-! ## spec/03_register_pages.md: Register pages and address map -/

def PG_ID_BLOCK_TYPE : Fld := { block := .directory, off := 0x000, lo := 0, width := 16, acc := .ro }
def PG_ID_INSTANCE : Fld := { block := .directory, off := 0x000, lo := 16, width := 8, acc := .ro }
def PG_ID_VERSION : Fld := { block := .directory, off := 0x000, lo := 24, width := 8, acc := .ro, reset := 1 }
def PG_ID_PAGE_COUNT : Fld := { block := .directory, off := 0x000, lo := 32, width := 8, acc := .ro }
def PG_ID_PAGE_INDEX : Fld := { block := .directory, off := 0x000, lo := 40, width := 8, acc := .ro }
def PG_ID_INSTANCE_HI : Fld := { block := .directory, off := 0x000, lo := 48, width := 2, acc := .ro }

def PG_CAPS_BLOCK_CAPS : Fld := { block := .directory, off := 0x008, lo := 0, width := 64, acc := .ro }

def PG_CTRL_LOCK : Fld := { block := .directory, off := 0x010, lo := 0, width := 1, acc := .w1s }
def PG_CTRL_BLOCK_CTRL : Fld := { block := .directory, off := 0x010, lo := 8, width := 56, acc := .ro }

def PG_STATUS_READY : Fld := { block := .directory, off := 0x018, lo := 0, width := 1, acc := .ro }
def PG_STATUS_LOCKED : Fld := { block := .directory, off := 0x018, lo := 1, width := 1, acc := .ro }
def PG_STATUS_BENCHED : Fld := { block := .directory, off := 0x018, lo := 2, width := 1, acc := .ro }
def PG_STATUS_BLOCK_STATUS : Fld := { block := .directory, off := 0x018, lo := 8, width := 56, acc := .ro }

def PG_ERR_BAD_SIZE : Fld := { block := .directory, off := 0x020, lo := 0, width := 1, acc := .w1c }
def PG_ERR_HALF_ATOMIC : Fld := { block := .directory, off := 0x020, lo := 1, width := 1, acc := .w1c }
def PG_ERR_ILLEGAL_VALUE : Fld := { block := .directory, off := 0x020, lo := 2, width := 1, acc := .w1c }
def PG_ERR_LOCKED_WRITE : Fld := { block := .directory, off := 0x020, lo := 3, width := 1, acc := .w1c }
def PG_ERR_BLOCK_ERR : Fld := { block := .directory, off := 0x020, lo := 8, width := 56, acc := .ro }

def PG_ERR_MASK_MASK : Fld := { block := .directory, off := 0x028, lo := 0, width := 4, acc := .rw }

def PG_ERR_FIRST_ERR_BIT : Fld := { block := .directory, off := 0x030, lo := 0, width := 6, acc := .ro }
def PG_ERR_FIRST_VALID : Fld := { block := .directory, off := 0x030, lo := 7, width := 1, acc := .ro }
def PG_ERR_FIRST_OFFSET : Fld := { block := .directory, off := 0x030, lo := 8, width := 12, acc := .ro }
def PG_ERR_FIRST_TICK : Fld := { block := .directory, off := 0x030, lo := 32, width := 32, acc := .ro }

def PG_OWNER_PLANE : Fld := { block := .directory, off := 0x038, lo := 0, width := 2, acc := .ro }
def PG_OWNER_POLDER_OWNED : Fld := { block := .directory, off := 0x038, lo := 2, width := 1, acc := .ro }
def PG_OWNER_TDISP_LOCKED : Fld := { block := .directory, off := 0x038, lo := 3, width := 1, acc := .ro }
def PG_OWNER_POLDER : Fld := { block := .directory, off := 0x038, lo := 4, width := 4, acc := .ro }

def DIR_COUNT_BAR0_ENTRIES : Fld := { block := .directory, off := 0x040, lo := 0, width := 9, acc := .ro }
def DIR_COUNT_BAR2_PAGES : Fld := { block := .directory, off := 0x040, lo := 16, width := 11, acc := .ro }

def DIR_ENTRY_FIRST_PAGE : Fld := { block := .directory, off := 0x100, lo := 0, width := 10, acc := .ro }
def DIR_ENTRY_COUNT : Fld := { block := .directory, off := 0x100, lo := 16, width := 11, acc := .ro }
def DIR_ENTRY_BLOCK_TYPE : Fld := { block := .directory, off := 0x100, lo := 32, width := 16, acc := .ro }
def DIR_ENTRY_FIRST_INSTANCE : Fld := { block := .directory, off := 0x100, lo := 48, width := 8, acc := .ro }
def DIR_ENTRY_FIRST_INDEX : Fld := { block := .directory, off := 0x100, lo := 56, width := 7, acc := .ro }
def DIR_ENTRY_MODE : Fld := { block := .directory, off := 0x100, lo := 63, width := 1, acc := .ro }

/-! ## spec/04_polders_isolation.md: Polders and the isolation guarantee -/

def PLD_CMD_OP : Fld := { block := .polder, off := 0x040, lo := 0, width := 4, acc := .wo, legal := [(0, 5)] }
def PLD_CMD_FENCE_EN : Fld := { block := .polder, off := 0x040, lo := 8, width := 1, acc := .wo }
def PLD_CMD_FENCE : Fld := { block := .polder, off := 0x040, lo := 32, width := 16, acc := .wo }

def PLD_STATE_STATE : Fld := { block := .polder, off := 0x048, lo := 0, width := 3, acc := .ro }
def PLD_STATE_HALTED : Fld := { block := .polder, off := 0x048, lo := 3, width := 1, acc := .ro }
def PLD_STATE_MODE : Fld := { block := .polder, off := 0x048, lo := 4, width := 1, acc := .ro }
def PLD_STATE_SEALED_ONLY : Fld := { block := .polder, off := 0x048, lo := 5, width := 1, acc := .ro }
def PLD_STATE_TDISP : Fld := { block := .polder, off := 0x048, lo := 8, width := 2, acc := .ro }
def PLD_STATE_LAST_STATUS : Fld := { block := .polder, off := 0x048, lo := 12, width := 4, acc := .ro }
def PLD_STATE_GEN : Fld := { block := .polder, off := 0x048, lo := 16, width := 16, acc := .ro }

def PLD_CFG_MODE : Fld := { block := .polder, off := 0x050, lo := 0, width := 1, acc := .rwl }
def PLD_CFG_SCRUB_ON_FLR : Fld := { block := .polder, off := 0x050, lo := 1, width := 1, acc := .rwl }
def PLD_CFG_CNT_VIS : Fld := { block := .polder, off := 0x050, lo := 2, width := 1, acc := .rwl, reset := 1 }

def PLD_VAULTS_VAULTS : Fld := { block := .polder, off := 0x060, lo := 0, width := 64, acc := .rwl }

def PLD_WAYS_WAYS : Fld := { block := .polder, off := 0x080, lo := 0, width := 16, acc := .rwl }

def PLD_MERE_UNITS : Fld := { block := .polder, off := 0x088, lo := 0, width := 64, acc := .rwl }

def PLD_ASSIGN_KIND : Fld := { block := .polder, off := 0x090, lo := 0, width := 4, acc := .wo, legal := [(1, 5)] }
def PLD_ASSIGN_RELEASE : Fld := { block := .polder, off := 0x090, lo := 4, width := 1, acc := .wo }
def PLD_ASSIGN_INDEX : Fld := { block := .polder, off := 0x090, lo := 8, width := 24, acc := .wo }
def PLD_ASSIGN_COUNT : Fld := { block := .polder, off := 0x090, lo := 32, width := 24, acc := .wo, legal := [(1, 16777215)] }
def PLD_ASSIGN_CTX : Fld := { block := .polder, off := 0x090, lo := 56, width := 8, acc := .wo }

def PLD_ASSIGN_STATUS_STATUS : Fld := { block := .polder, off := 0x098, lo := 0, width := 4, acc := .ro }
def PLD_ASSIGN_STATUS_BUSY : Fld := { block := .polder, off := 0x098, lo := 4, width := 1, acc := .ro }
def PLD_ASSIGN_STATUS_DONE : Fld := { block := .polder, off := 0x098, lo := 8, width := 24, acc := .ro }

def PLD_ZERO_PROGRESS_DONE : Fld := { block := .polder, off := 0x0a0, lo := 0, width := 32, acc := .ro }
def PLD_ZERO_PROGRESS_TOTAL : Fld := { block := .polder, off := 0x0a0, lo := 32, width := 32, acc := .ro }

def PLD_COND_TIER : Fld := { block := .owner, off := 0x040, lo := 0, width := 2, acc := .ro }
def PLD_COND_NEXT_TIER : Fld := { block := .owner, off := 0x040, lo := 4, width := 2, acc := .ro }
def PLD_COND_LEVEL : Fld := { block := .owner, off := 0x040, lo := 8, width := 2, acc := .ro }
def PLD_COND_NEXT_LEVEL : Fld := { block := .owner, off := 0x040, lo := 12, width := 2, acc := .ro }
def PLD_COND_PENDING : Fld := { block := .owner, off := 0x040, lo := 16, width := 1, acc := .ro }
def PLD_COND_ADVISORY : Fld := { block := .owner, off := 0x040, lo := 17, width := 1, acc := .ro }

def PLD_HAVE_CONTEXTS : Fld := { block := .owner, off := 0x048, lo := 0, width := 8, acc := .ro }
def PLD_HAVE_QUEUES : Fld := { block := .owner, off := 0x048, lo := 8, width := 9, acc := .ro }
def PLD_HAVE_FENCE_BLOCKS : Fld := { block := .owner, off := 0x048, lo := 24, width := 8, acc := .ro }
def PLD_HAVE_MOBJ_BLOCKS : Fld := { block := .owner, off := 0x048, lo := 32, width := 9, acc := .ro }
def PLD_HAVE_EXTENTS : Fld := { block := .owner, off := 0x048, lo := 44, width := 18, acc := .ro }

def PLD_SCRUB_ON_WARM : Fld := { block := .owner, off := 0x050, lo := 0, width := 1, acc := .rw }

/-! ## spec/05_host_objects_fences.md: Contexts, queues, memory objects and fences -/

def CTX_CFG_ENABLE : Fld := { block := .ctx, off := 0x040, lo := 0, width := 1, acc := .rw }

def CTX_FENCES_BASE : Fld := { block := .ctx, off := 0x050, lo := 0, width := 17, acc := .rw }
def CTX_FENCES_COUNT : Fld := { block := .ctx, off := 0x050, lo := 32, width := 17, acc := .rw }

def CTX_MIRROR_EN : Fld := { block := .ctx, off := 0x058, lo := 0, width := 1, acc := .rw }
def CTX_MIRROR_ADDR : Fld := { block := .ctx, off := 0x058, lo := 3, width := 45, acc := .rw }

def CTX_IRQ_MODE : Fld := { block := .ctx, off := 0x060, lo := 0, width := 2, acc := .rw, legal := [(0, 2)] }
def CTX_IRQ_VEC : Fld := { block := .ctx, off := 0x060, lo := 8, width := 8, acc := .rw }
def CTX_IRQ_COAL_COUNT : Fld := { block := .ctx, off := 0x060, lo := 16, width := 8, acc := .rw, reset := 1, legal := [(1, 255)] }
def CTX_IRQ_COAL_TICKS : Fld := { block := .ctx, off := 0x060, lo := 32, width := 16, acc := .rw, reset := 64, legal := [(1, 65535)] }

def CTX_CMD_OP : Fld := { block := .ctx, off := 0x068, lo := 0, width := 2, acc := .wo, legal := [(0, 1)] }

def CTX_STATUS_STATE : Fld := { block := .ctx, off := 0x070, lo := 0, width := 2, acc := .ro }
def CTX_STATUS_MIRROR_FAULT : Fld := { block := .ctx, off := 0x070, lo := 2, width := 1, acc := .ro }
def CTX_STATUS_RUNS : Fld := { block := .ctx, off := 0x070, lo := 16, width := 16, acc := .ro }
def CTX_STATUS_GEN : Fld := { block := .ctx, off := 0x070, lo := 48, width := 16, acc := .ro }

def Q_CFG_CTX : Fld := { block := .queue, off := 0x040, lo := 8, width := 8, acc := .rw }

def Q_STATUS_DEPTH : Fld := { block := .queue, off := 0x048, lo := 0, width := 9, acc := .ro }
def Q_STATUS_TORN : Fld := { block := .queue, off := 0x048, lo := 16, width := 16, acc := .ro }
def Q_STATUS_REARM_IGNORED : Fld := { block := .queue, off := 0x048, lo := 32, width := 16, acc := .ro }
def Q_STATUS_DROPPED : Fld := { block := .queue, off := 0x048, lo := 48, width := 16, acc := .ro }

def EVR_BASE_STAITHE : Fld := { block := .owner, off := 0x0c0, lo := 0, width := 8, acc := .rw }
def EVR_BASE_OFFSET : Fld := { block := .owner, off := 0x0c0, lo := 12, width := 18, acc := .rw }

def EVR_CFG_EN : Fld := { block := .owner, off := 0x0c8, lo := 0, width := 1, acc := .rw }
def EVR_CFG_LOG2_SIZE : Fld := { block := .owner, off := 0x0c8, lo := 4, width := 5, acc := .rw, reset := 6, legal := [(6, 16)] }
def EVR_CFG_VEC : Fld := { block := .owner, off := 0x0c8, lo := 16, width := 8, acc := .rw }

def EVR_HEAD_HEAD : Fld := { block := .owner, off := 0x0d0, lo := 0, width := 16, acc := .rw }

def EVR_TAIL_TAIL : Fld := { block := .owner, off := 0x0d8, lo := 0, width := 16, acc := .ro }
def EVR_TAIL_LOST : Fld := { block := .owner, off := 0x0d8, lo := 32, width := 16, acc := .ro }

def FNC_CMD_OP : Fld := { block := .fence, off := 0x040, lo := 0, width := 2, acc := .wo, legal := [(0, 1)] }
def FNC_CMD_BLOCK : Fld := { block := .fence, off := 0x040, lo := 8, width := 7, acc := .wo }
def FNC_CMD_FENCE_EN : Fld := { block := .fence, off := 0x040, lo := 16, width := 1, acc := .wo }
def FNC_CMD_FENCE : Fld := { block := .fence, off := 0x040, lo := 32, width := 17, acc := .wo }

def FNC_PROGRESS_DONE : Fld := { block := .fence, off := 0x048, lo := 0, width := 10, acc := .ro }
def FNC_PROGRESS_HELD : Fld := { block := .fence, off := 0x048, lo := 16, width := 10, acc := .ro }
def FNC_PROGRESS_BUSY : Fld := { block := .fence, off := 0x048, lo := 31, width := 1, acc := .ro }

/-! ## spec/06_staithe.md: The Staithe window -/

def STH_BASE_ADDR : Fld := { block := .owner, off := 0x200, lo := 12, width := 52, acc := .rw, stride := 32 }

def STH_CFG_EN : Fld := { block := .owner, off := 0x208, lo := 0, width := 1, acc := .rw, stride := 32 }
def STH_CFG_CLASS : Fld := { block := .owner, off := 0x208, lo := 1, width := 4, acc := .rw, stride := 32, legal := [(0, 9)] }
def STH_CFG_BERTHS : Fld := { block := .owner, off := 0x208, lo := 16, width := 19, acc := .rw, stride := 32 }
def STH_CFG_RAW : Fld := { block := .owner, off := 0x208, lo := 40, width := 16, acc := .rw, stride := 32 }

def STH_STATUS_HELD : Fld := { block := .owner, off := 0x210, lo := 0, width := 19, acc := .ro, stride := 32 }
def STH_STATUS_SKIPPED : Fld := { block := .owner, off := 0x210, lo := 32, width := 16, acc := .ro, stride := 32 }

def STH_STAGE_USED : Fld := { block := .owner, off := 0x1f8, lo := 0, width := 21, acc := .ro }
def STH_STAGE_WAITING : Fld := { block := .owner, off := 0x1f8, lo := 32, width := 16, acc := .ro }

/-! ## spec/07_translation.md: Device address translation -/

def CTX_ROOT_ADDR : Fld := { block := .ctx, off := 0x048, lo := 12, width := 40, acc := .rw }

def MOB_LO_CLASS : Fld := { block := .owner, off := 0x0e0, lo := 0, width := 1, acc := .rw }
def MOB_LO_WRITE : Fld := { block := .owner, off := 0x0e0, lo := 1, width := 1, acc := .rw }
def MOB_LO_VA : Fld := { block := .owner, off := 0x0e0, lo := 12, width := 36, acc := .rw }
def MOB_LO_CTX : Fld := { block := .owner, off := 0x0e0, lo := 48, width := 8, acc := .rw }

def MOB_HI_PAGES : Fld := { block := .owner, off := 0x0e8, lo := 0, width := 36, acc := .rw, legal := [(1, 68719476736)] }

def MOB_CMD_OP : Fld := { block := .owner, off := 0x0f0, lo := 0, width := 3, acc := .wo, legal := [(0, 4)] }
def MOB_CMD_SLOT : Fld := { block := .owner, off := 0x0f0, lo := 8, width := 16, acc := .wo }
def MOB_CMD_FENCE_EN : Fld := { block := .owner, off := 0x0f0, lo := 24, width := 1, acc := .wo }
def MOB_CMD_FENCE : Fld := { block := .owner, off := 0x0f0, lo := 32, width := 17, acc := .wo }

def MOB_STATUS_STATUS : Fld := { block := .owner, off := 0x0f8, lo := 0, width := 4, acc := .ro }
def MOB_STATUS_BUSY : Fld := { block := .owner, off := 0x0f8, lo := 4, width := 1, acc := .ro }
def MOB_STATUS_HALTED : Fld := { block := .owner, off := 0x0f8, lo := 5, width := 1, acc := .ro }
def MOB_STATUS_STORE_USED : Fld := { block := .owner, off := 0x0f8, lo := 8, width := 20, acc := .ro }
def MOB_STATUS_WALKED : Fld := { block := .owner, off := 0x0f8, lo := 32, width := 32, acc := .ro }

def FLT_BASE_STAITHE : Fld := { block := .ctx, off := 0x080, lo := 0, width := 8, acc := .rw }
def FLT_BASE_OFFSET : Fld := { block := .ctx, off := 0x080, lo := 12, width := 18, acc := .rw }

def FLT_CFG_EN : Fld := { block := .ctx, off := 0x088, lo := 0, width := 1, acc := .rw }
def FLT_CFG_LOG2_SIZE : Fld := { block := .ctx, off := 0x088, lo := 4, width := 5, acc := .rw, reset := 6, legal := [(4, 12)] }
def FLT_CFG_VEC : Fld := { block := .ctx, off := 0x088, lo := 16, width := 8, acc := .rw }

def FLT_RESUME_FAULT_ID : Fld := { block := .ctx, off := 0x0a0, lo := 0, width := 16, acc := .wo }
def FLT_RESUME_OP : Fld := { block := .ctx, off := 0x0a0, lo := 16, width := 2, acc := .wo, legal := [(1, 3)] }

def FLT_PENDING_PENDING : Fld := { block := .ctx, off := 0x0a8, lo := 0, width := 7, acc := .ro }
def FLT_PENDING_STALLED : Fld := { block := .ctx, off := 0x0a8, lo := 16, width := 16, acc := .ro }
def FLT_PENDING_STALE : Fld := { block := .ctx, off := 0x0a8, lo := 32, width := 16, acc := .ro }

def INV_ADDR_VA : Fld := { block := .ctx, off := 0x0b0, lo := 12, width := 36, acc := .rw }

def INV_CMD_OP : Fld := { block := .ctx, off := 0x0b8, lo := 0, width := 2, acc := .wo }
def INV_CMD_FENCE_EN : Fld := { block := .ctx, off := 0x0b8, lo := 2, width := 1, acc := .wo }
def INV_CMD_FENCE : Fld := { block := .ctx, off := 0x0b8, lo := 4, width := 17, acc := .wo }
def INV_CMD_PAGES : Fld := { block := .ctx, off := 0x0b8, lo := 24, width := 36, acc := .wo }

def INV_PROGRESS_PHASE : Fld := { block := .ctx, off := 0x0c0, lo := 0, width := 3, acc := .ro }
def INV_PROGRESS_DRAIN : Fld := { block := .ctx, off := 0x0c0, lo := 16, width := 16, acc := .ro }
def INV_PROGRESS_REWALKED : Fld := { block := .ctx, off := 0x0c0, lo := 32, width := 32, acc := .ro }

def MMU_STORE_CAP : Fld := { block := .mmu, off := 0x040, lo := 0, width := 20, acc := .ro, reset := 524288 }
def MMU_STORE_USED : Fld := { block := .mmu, off := 0x040, lo := 32, width := 20, acc := .ro }

/-! ## spec/08_plans_lodes.md: Frames, plans, lodes and runs -/

def DEV_TICK_TICK : Fld := { block := .reeve, off := 0x080, lo := 0, width := 64, acc := .ro }

def PLN_SRC_STAITHE : Fld := { block := .owner, off := 0x100, lo := 0, width := 8, acc := .rw }
def PLN_SRC_OFFSET : Fld := { block := .owner, off := 0x100, lo := 12, width := 18, acc := .rw }

def PLN_DESC_VA : Fld := { block := .owner, off := 0x108, lo := 6, width := 42, acc := .rw }
def PLN_DESC_CTX : Fld := { block := .owner, off := 0x108, lo := 48, width := 8, acc := .rw }

def PLN_CMD_OP : Fld := { block := .owner, off := 0x110, lo := 0, width := 3, acc := .wo, legal := [(0, 4)] }
def PLN_CMD_FENCE_EN : Fld := { block := .owner, off := 0x110, lo := 8, width := 1, acc := .wo }
def PLN_CMD_FENCE : Fld := { block := .owner, off := 0x110, lo := 32, width := 17, acc := .wo }

def PLN_STATUS_STATUS : Fld := { block := .owner, off := 0x118, lo := 0, width := 4, acc := .ro }
def PLN_STATUS_BUSY : Fld := { block := .owner, off := 0x118, lo := 4, width := 1, acc := .ro }
def PLN_STATUS_HALTED : Fld := { block := .owner, off := 0x118, lo := 5, width := 1, acc := .ro }
def PLN_STATUS_STAGED : Fld := { block := .owner, off := 0x118, lo := 6, width := 1, acc := .ro }
def PLN_STATUS_DROPPED : Fld := { block := .owner, off := 0x118, lo := 7, width := 1, acc := .ro }
def PLN_STATUS_FAIL_INDEX : Fld := { block := .owner, off := 0x118, lo := 16, width := 16, acc := .ro }

def PLN_ACTIVE_CRC : Fld := { block := .owner, off := 0x120, lo := 0, width := 32, acc := .ro }
def PLN_ACTIVE_LODES : Fld := { block := .owner, off := 0x120, lo := 32, width := 13, acc := .ro }

def PLN_SWITCH_TICK : Fld := { block := .owner, off := 0x128, lo := 0, width := 64, acc := .ro }

def PLN_PROGRESS_DONE : Fld := { block := .owner, off := 0x130, lo := 0, width := 32, acc := .ro }
def PLN_PROGRESS_TOTAL : Fld := { block := .owner, off := 0x130, lo := 32, width := 32, acc := .ro }

def RV_CFG_PLAN_SIG : Fld := { block := .reeve, off := 0x040, lo := 0, width := 1, acc := .rwl }
def RV_CFG_FRAME_SIG : Fld := { block := .reeve, off := 0x040, lo := 1, width := 1, acc := .rwl }

def RV_FRAME_SRC_STAITHE : Fld := { block := .reeve, off := 0x048, lo := 0, width := 8, acc := .rw }
def RV_FRAME_SRC_OFFSET : Fld := { block := .reeve, off := 0x048, lo := 12, width := 18, acc := .rw }

def RV_CMD_OP : Fld := { block := .reeve, off := 0x050, lo := 0, width := 3, acc := .wo, legal := [(0, 5)] }
def RV_CMD_DROP_UNFIT : Fld := { block := .reeve, off := 0x050, lo := 8, width := 1, acc := .wo }
def RV_CMD_FENCE_EN : Fld := { block := .reeve, off := 0x050, lo := 9, width := 1, acc := .wo }
def RV_CMD_FENCE : Fld := { block := .reeve, off := 0x050, lo := 32, width := 17, acc := .wo }

def RV_STATUS_STATUS : Fld := { block := .reeve, off := 0x058, lo := 0, width := 4, acc := .ro }
def RV_STATUS_BUSY : Fld := { block := .reeve, off := 0x058, lo := 4, width := 1, acc := .ro }
def RV_STATUS_HALTED : Fld := { block := .reeve, off := 0x058, lo := 5, width := 1, acc := .ro }
def RV_STATUS_STAGED : Fld := { block := .reeve, off := 0x058, lo := 6, width := 1, acc := .ro }
def RV_STATUS_ARMED : Fld := { block := .reeve, off := 0x058, lo := 7, width := 1, acc := .ro }
def RV_STATUS_FAIL_LANE : Fld := { block := .reeve, off := 0x058, lo := 16, width := 10, acc := .ro }
def RV_STATUS_FAIL_POLDER : Fld := { block := .reeve, off := 0x058, lo := 28, width := 4, acc := .ro }

def RV_FRAME_LENGTH : Fld := { block := .reeve, off := 0x060, lo := 0, width := 17, acc := .ro }
def RV_FRAME_FRAME_ID : Fld := { block := .reeve, off := 0x060, lo := 32, width := 32, acc := .ro }

def RV_FRAME_START_TICK : Fld := { block := .reeve, off := 0x068, lo := 0, width := 64, acc := .ro }

def RV_SWITCH_TICK : Fld := { block := .reeve, off := 0x070, lo := 0, width := 64, acc := .ro }

def RV_PROGRESS_DONE : Fld := { block := .reeve, off := 0x078, lo := 0, width := 32, acc := .ro }
def RV_PROGRESS_TOTAL : Fld := { block := .reeve, off := 0x078, lo := 32, width := 32, acc := .ro }

/-! ## spec/09_towers_memory.md: Towers, vaults, weirs and Freeboard -/

def TWR_SECT_VALID : Fld := { block := .tower, off := 0x100, lo := 0, width := 1, acc := .rw, reset := 1 }
def TWR_SECT_LOG2_N : Fld := { block := .tower, off := 0x100, lo := 8, width := 4, acc := .rw, reset := 5, legal := [(0, 8)] }
def TWR_SECT_FIRST_VAULT : Fld := { block := .tower, off := 0x100, lo := 16, width := 8, acc := .rw, perInst := 32 }
def TWR_SECT_LOCAL_BASE : Fld := { block := .tower, off := 0x100, lo := 32, width := 9, acc := .rw, perIdx := 8 }

def WR_STATE_SLOTS : Fld := { block := .weir, off := 0x040, lo := 0, width := 7, acc := .ro, reset := 64 }
def WR_STATE_TIER : Fld := { block := .weir, off := 0x040, lo := 8, width := 2, acc := .ro }
def WR_STATE_RAW_TIER : Fld := { block := .weir, off := 0x040, lo := 12, width := 2, acc := .ro }

def WR_PLD_CREDIT : Fld := { block := .weir, off := 0x100, lo := 0, width := 16, acc := .rw }
def WR_PLD_LEND : Fld := { block := .weir, off := 0x100, lo := 16, width := 1, acc := .rw, reset := 1 }
def WR_PLD_LEFT : Fld := { block := .weir, off := 0x100, lo := 32, width := 16, acc := .ro }

def TWR_TEMP_MAX : Fld := { block := .tower, off := 0x040, lo := 0, width := 8, acc := .ro }
def TWR_TEMP_HOT_VAULT : Fld := { block := .tower, off := 0x040, lo := 8, width := 5, acc := .ro }
def TWR_TEMP_TIER_HELD : Fld := { block := .tower, off := 0x040, lo := 16, width := 2, acc := .ro }
def TWR_TEMP_ADVISORY : Fld := { block := .tower, off := 0x040, lo := 20, width := 1, acc := .ro }
def TWR_TEMP_BAD_SENSORS : Fld := { block := .tower, off := 0x040, lo := 24, width := 6, acc := .ro }

def TWR_PLOG_GRANULE : Fld := { block := .tower, off := 0x400, lo := 0, width := 34, acc := .ro }
def TWR_PLOG_KIND : Fld := { block := .tower, off := 0x400, lo := 34, width := 2, acc := .ro }
def TWR_PLOG_POLDER : Fld := { block := .tower, off := 0x400, lo := 36, width := 4, acc := .ro }
def TWR_PLOG_BY_POLDER : Fld := { block := .tower, off := 0x400, lo := 40, width := 1, acc := .ro }

def TWR_CFG_UE_LIMIT : Fld := { block := .tower, off := 0x068, lo := 0, width := 8, acc := .rwl, reset := 16, legal := [(1, 255)] }
def TWR_CFG_WEAK_THRESH : Fld := { block := .tower, off := 0x068, lo := 8, width := 4, acc := .rwl, reset := 4, legal := [(1, 15)] }
def TWR_CFG_SCRUB_EN : Fld := { block := .tower, off := 0x068, lo := 16, width := 1, acc := .rwl, reset := 1 }

def TWR_SCRUB_PASSES : Fld := { block := .tower, off := 0x070, lo := 0, width := 16, acc := .ro }
def TWR_SCRUB_LATE : Fld := { block := .tower, off := 0x070, lo := 16, width := 16, acc := .ro }
def TWR_SCRUB_CAND_LOST : Fld := { block := .tower, off := 0x070, lo := 32, width := 16, acc := .ro }

def TWR_CMD_OP : Fld := { block := .tower, off := 0x078, lo := 0, width := 3, acc := .wo, legal := [(0, 4)] }
def TWR_CMD_VAULT : Fld := { block := .tower, off := 0x078, lo := 8, width := 5, acc := .wo }
def TWR_CMD_CAND : Fld := { block := .tower, off := 0x078, lo := 16, width := 3, acc := .wo }
def TWR_CMD_FENCE_EN : Fld := { block := .tower, off := 0x078, lo := 24, width := 1, acc := .wo }
def TWR_CMD_FENCE : Fld := { block := .tower, off := 0x078, lo := 32, width := 17, acc := .wo }

def TWR_CMD_STATUS_STATUS : Fld := { block := .tower, off := 0x080, lo := 0, width := 4, acc := .ro }
def TWR_CMD_STATUS_BUSY : Fld := { block := .tower, off := 0x080, lo := 4, width := 1, acc := .ro }
def TWR_CMD_STATUS_HALTED : Fld := { block := .tower, off := 0x080, lo := 5, width := 1, acc := .ro }
def TWR_CMD_STATUS_COPIED : Fld := { block := .tower, off := 0x080, lo := 8, width := 6, acc := .ro }

def TWR_WEAK_VALID : Fld := { block := .tower, off := 0x0c0, lo := 0, width := 1, acc := .ro }
def TWR_WEAK_VAULT : Fld := { block := .tower, off := 0x0c0, lo := 1, width := 5, acc := .ro }
def TWR_WEAK_BANK : Fld := { block := .tower, off := 0x0c0, lo := 6, width := 4, acc := .ro }
def TWR_WEAK_ROW : Fld := { block := .tower, off := 0x0c0, lo := 10, width := 17, acc := .ro }
def TWR_WEAK_CORR : Fld := { block := .tower, off := 0x0c0, lo := 32, width := 8, acc := .ro }

def TWR_VSTAT_CE : Fld := { block := .tower, off := 0x300, lo := 0, width := 24, acc := .ro }
def TWR_VSTAT_UE : Fld := { block := .tower, off := 0x300, lo := 24, width := 12, acc := .ro }
def TWR_VSTAT_SPARE_LEFT : Fld := { block := .tower, off := 0x300, lo := 36, width := 6, acc := .ro, reset := 48 }
def TWR_VSTAT_WB_DROP : Fld := { block := .tower, off := 0x300, lo := 48, width := 12, acc := .ro }
def TWR_VSTAT_RETIRED : Fld := { block := .tower, off := 0x300, lo := 63, width := 1, acc := .ro }

/-! ## spec/10_embedding_path.md: Embedding tables, gather and pooling -/

def TBL_SRC_STAITHE : Fld := { block := .owner, off := 0x400, lo := 0, width := 8, acc := .rw }
def TBL_SRC_OFFSET : Fld := { block := .owner, off := 0x400, lo := 12, width := 18, acc := .rw }

def TBL_CMD_OP : Fld := { block := .owner, off := 0x408, lo := 0, width := 3, acc := .wo, legal := [(0, 4)] }
def TBL_CMD_TABLE : Fld := { block := .owner, off := 0x408, lo := 8, width := 10, acc := .wo }
def TBL_CMD_FENCE_EN : Fld := { block := .owner, off := 0x408, lo := 24, width := 1, acc := .wo }
def TBL_CMD_FENCE : Fld := { block := .owner, off := 0x408, lo := 32, width := 17, acc := .wo }

def TBL_STATUS_STATUS : Fld := { block := .owner, off := 0x410, lo := 0, width := 4, acc := .ro }
def TBL_STATUS_BUSY : Fld := { block := .owner, off := 0x410, lo := 4, width := 1, acc := .ro }
def TBL_STATUS_HALTED : Fld := { block := .owner, off := 0x410, lo := 5, width := 1, acc := .ro }
def TBL_STATUS_FAIL_OFFSET : Fld := { block := .owner, off := 0x410, lo := 16, width := 16, acc := .ro }

def HMK_CFG_PROMOTE : Fld := { block := .owner, off := 0x420, lo := 0, width := 1, acc := .rw, reset := 1 }
def HMK_CFG_THRESH : Fld := { block := .owner, off := 0x420, lo := 8, width := 8, acc := .rw, reset := 8, legal := [(1, 255)] }

def HMK_CMD_OP : Fld := { block := .owner, off := 0x428, lo := 0, width := 3, acc := .wo, legal := [(0, 5)] }
def HMK_CMD_TABLE : Fld := { block := .owner, off := 0x428, lo := 8, width := 10, acc := .wo }
def HMK_CMD_FENCE_EN : Fld := { block := .owner, off := 0x428, lo := 24, width := 1, acc := .wo }
def HMK_CMD_FENCE : Fld := { block := .owner, off := 0x428, lo := 32, width := 17, acc := .wo }

def HMK_FIRST_ROW : Fld := { block := .owner, off := 0x430, lo := 0, width := 40, acc := .rw }

def HMK_COUNT_COUNT : Fld := { block := .owner, off := 0x438, lo := 0, width := 40, acc := .rw }

def HMK_STATUS_STATUS : Fld := { block := .owner, off := 0x440, lo := 0, width := 4, acc := .ro }
def HMK_STATUS_BUSY : Fld := { block := .owner, off := 0x440, lo := 4, width := 1, acc := .ro }
def HMK_STATUS_HALTED : Fld := { block := .owner, off := 0x440, lo := 5, width := 1, acc := .ro }
def HMK_STATUS_PINNED : Fld := { block := .owner, off := 0x440, lo := 8, width := 21, acc := .ro }
def HMK_STATUS_DONE : Fld := { block := .owner, off := 0x440, lo := 32, width := 32, acc := .ro }

/-! ## spec/11_live_updates.md: Live table updates and epochs -/

def EP_STATE_PUB : Fld := { block := .owner, off := 0x480, lo := 0, width := 32, acc := .ro, reset := 1 }
def EP_STATE_STATE : Fld := { block := .owner, off := 0x480, lo := 32, width := 3, acc := .ro }
def EP_STATE_BUSY : Fld := { block := .owner, off := 0x480, lo := 35, width := 1, acc := .ro }
def EP_STATE_HALTED : Fld := { block := .owner, off := 0x480, lo := 36, width := 1, acc := .ro }
def EP_STATE_RET_VALID : Fld := { block := .owner, off := 0x480, lo := 37, width := 1, acc := .ro }
def EP_STATE_RET_OPEN : Fld := { block := .owner, off := 0x480, lo := 38, width := 1, acc := .ro }
def EP_STATE_TOUCHED : Fld := { block := .owner, off := 0x480, lo := 39, width := 1, acc := .ro }
def EP_STATE_JNL_LOST : Fld := { block := .owner, off := 0x480, lo := 40, width := 1, acc := .ro }

def EP_CMD_OP : Fld := { block := .owner, off := 0x488, lo := 0, width := 3, acc := .wo, legal := [(0, 4)] }
def EP_CMD_FENCE_EN : Fld := { block := .owner, off := 0x488, lo := 8, width := 1, acc := .wo }
def EP_CMD_FENCE : Fld := { block := .owner, off := 0x488, lo := 32, width := 17, acc := .wo }

def EP_PROGRESS_DONE : Fld := { block := .owner, off := 0x490, lo := 0, width := 24, acc := .ro }
def EP_PROGRESS_DRAIN : Fld := { block := .owner, off := 0x490, lo := 32, width := 1, acc := .ro }

def EP_JNL_VA : Fld := { block := .owner, off := 0x498, lo := 6, width := 42, acc := .rw }
def EP_JNL_CTX : Fld := { block := .owner, off := 0x498, lo := 48, width := 8, acc := .rw }

def EP_JNL_SIZE_CAP : Fld := { block := .owner, off := 0x4a0, lo := 0, width := 24, acc := .rw }
def EP_JNL_SIZE_USED : Fld := { block := .owner, off := 0x4a0, lo := 32, width := 24, acc := .ro }

def EP_LAST_FAIL_FENCE : Fld := { block := .owner, off := 0x4a8, lo := 0, width := 17, acc := .ro }
def EP_LAST_FAIL_APPLIED : Fld := { block := .owner, off := 0x4a8, lo := 32, width := 17, acc := .ro }
def EP_LAST_FAIL_VALID : Fld := { block := .owner, off := 0x4a8, lo := 63, width := 1, acc := .ro }

def EP_SAT_SATURATED : Fld := { block := .owner, off := 0x4b0, lo := 0, width := 32, acc := .ro }
def EP_SAT_JNL_FULL : Fld := { block := .owner, off := 0x4b0, lo := 32, width := 16, acc := .ro }

/-! ## spec/13_anvil.md: The Anvil matrix engine -/

def AV_QUEUE_DEPTH : Fld := { block := .anvil, off := 0x040, lo := 0, width := 5, acc := .ro }
def AV_QUEUE_HOLDS : Fld := { block := .anvil, off := 0x040, lo := 16, width := 16, acc := .ro }
def AV_QUEUE_EMPTY_POPS : Fld := { block := .anvil, off := 0x040, lo := 32, width := 8, acc := .ro }
def AV_QUEUE_DISCARDED : Fld := { block := .anvil, off := 0x040, lo := 48, width := 16, acc := .ro }

def AV_RESIDUE_MISMATCHES : Fld := { block := .anvil, off := 0x048, lo := 0, width := 16, acc := .ro }
def AV_RESIDUE_LAST_TICK : Fld := { block := .anvil, off := 0x048, lo := 32, width := 32, acc := .ro }

/-! ## spec/14_planisher.md: The Planisher tile engine -/

def PL_COUNT_STEPS : Fld := { block := .planisher, off := 0x040, lo := 0, width := 32, acc := .ro }
def PL_COUNT_FLAGGED : Fld := { block := .planisher, off := 0x040, lo := 32, width := 16, acc := .ro }
def PL_COUNT_POISON : Fld := { block := .planisher, off := 0x040, lo := 48, width := 16, acc := .ro }

/-! ## spec/15_tarn_riddle.md: Sequence state and selection -/

def TN_SLABS_VA_VA : Fld := { block := .owner, off := 0x4c0, lo := 12, width := 36, acc := .rw }

def TN_SLABS_STRIDE : Fld := { block := .owner, off := 0x4c8, lo := 0, width := 12, acc := .rw, reset := 2, legal := [(1, 2048)] }
def TN_SLABS_COUNT : Fld := { block := .owner, off := 0x4c8, lo := 32, width := 21, acc := .rw, legal := [(0, 1048576)] }

def TN_GEOM_LAYERS : Fld := { block := .owner, off := 0x4d0, lo := 0, width := 5, acc := .rw, reset := 1, legal := [(1, 16)] }
def TN_GEOM_KV_DIM : Fld := { block := .owner, off := 0x4d0, lo := 16, width := 10, acc := .rw, reset := 32, legal := [(32, 512)] }
def TN_GEOM_CAP : Fld := { block := .owner, off := 0x4d0, lo := 32, width := 32, acc := .rw, reset := 1, legal := [(1, 4294967295)] }

def TN_STATUS_CONFLICTS : Fld := { block := .owner, off := 0x4d8, lo := 0, width := 16, acc := .ro }
def TN_STATUS_PIN_FULL : Fld := { block := .owner, off := 0x4d8, lo := 16, width := 16, acc := .ro }

def RD_STATUS_SELECTS : Fld := { block := .riddle, off := 0x040, lo := 0, width := 32, acc := .ro }
def RD_STATUS_NAN_SCORES : Fld := { block := .riddle, off := 0x040, lo := 32, width := 32, acc := .ro }

/-! ## spec/16_causeway.md: The Causeway fabric -/

def CW_STATE_STATE : Fld := { block := .causeway, off := 0x040, lo := 0, width := 3, acc := .ro }
def CW_STATE_SLOW : Fld := { block := .causeway, off := 0x040, lo := 3, width := 1, acc := .ro }
def CW_STATE_QCAUSE : Fld := { block := .causeway, off := 0x040, lo := 4, width := 2, acc := .ro }
def CW_STATE_PEER : Fld := { block := .causeway, off := 0x040, lo := 8, width := 8, acc := .ro }
def CW_STATE_LAT_NS : Fld := { block := .causeway, off := 0x040, lo := 16, width := 16, acc := .ro }
def CW_STATE_RETRAINS_10S : Fld := { block := .causeway, off := 0x040, lo := 32, width := 3, acc := .ro }
def CW_STATE_HOSTILE_10S : Fld := { block := .causeway, off := 0x040, lo := 40, width := 8, acc := .ro }
def CW_STATE_UPS : Fld := { block := .causeway, off := 0x040, lo := 48, width := 16, acc := .ro }

def CW_CMD_OP : Fld := { block := .causeway, off := 0x048, lo := 0, width := 2, acc := .wo, legal := [(0, 2)] }

def CW_POLICY_HOSTILE_LIMIT : Fld := { block := .causeway, off := 0x050, lo := 0, width := 8, acc := .rwl, reset := 8, legal := [(1, 255)] }
def CW_POLICY_SLOW_LIMIT : Fld := { block := .causeway, off := 0x050, lo := 16, width := 16, acc := .rwl, reset := 64, legal := [(1, 65535)] }

def CW_CNT_LINK_UNCORR_BURSTS : Fld := { block := .causeway, off := 0x058, lo := 0, width := 16, acc := .ro }
def CW_CNT_LINK_NAKS : Fld := { block := .causeway, off := 0x058, lo := 16, width := 16, acc := .ro }
def CW_CNT_LINK_RETRAINS : Fld := { block := .causeway, off := 0x058, lo := 32, width := 16, acc := .ro }
def CW_CNT_LINK_TRAIN_TIMEOUTS : Fld := { block := .causeway, off := 0x058, lo := 48, width := 16, acc := .ro }

def CW_CNT_HOSTILE_TAG_FAIL : Fld := { block := .causeway, off := 0x060, lo := 0, width := 12, acc := .ro }
def CW_CNT_HOSTILE_REPLAY : Fld := { block := .causeway, off := 0x060, lo := 12, width := 12, acc := .ro }
def CW_CNT_HOSTILE_OUT_OF_GRANT : Fld := { block := .causeway, off := 0x060, lo := 24, width := 12, acc := .ro }
def CW_CNT_HOSTILE_OVER_RATE : Fld := { block := .causeway, off := 0x060, lo := 36, width := 12, acc := .ro }
def CW_CNT_HOSTILE_SPOOF : Fld := { block := .causeway, off := 0x060, lo := 48, width := 12, acc := .ro }
def CW_CNT_HOSTILE_AUTH_FAIL : Fld := { block := .causeway, off := 0x060, lo := 60, width := 4, acc := .ro }

def CW_CNT_SVC_LATE_SENT : Fld := { block := .causeway, off := 0x068, lo := 0, width := 16, acc := .ro }
def CW_CNT_SVC_LATE_RCVD : Fld := { block := .causeway, off := 0x068, lo := 16, width := 16, acc := .ro }
def CW_CNT_SVC_LATE_RESP : Fld := { block := .causeway, off := 0x068, lo := 32, width := 16, acc := .ro }
def CW_CNT_SVC_NO_ROUTE : Fld := { block := .causeway, off := 0x068, lo := 48, width := 16, acc := .ro }

def CW_ID_DEV_ID : Fld := { block := .causeway, off := 0x400, lo := 0, width := 8, acc := .wct }
def CW_ID_DOMAIN : Fld := { block := .causeway, off := 0x400, lo := 8, width := 16, acc := .wct }
def CW_ID_PORT_MAP : Fld := { block := .causeway, off := 0x400, lo := 32, width := 12, acc := .wct, reset := 4095 }

def CW_TRUST_SRC_STAITHE : Fld := { block := .causeway, off := 0x408, lo := 0, width := 8, acc := .rw }
def CW_TRUST_SRC_OFFSET : Fld := { block := .causeway, off := 0x408, lo := 12, width := 18, acc := .rw }

def CW_TRUST_CMD_OP : Fld := { block := .causeway, off := 0x410, lo := 0, width := 1, acc := .wo }

def CW_TRUST_STATUS_STATUS : Fld := { block := .causeway, off := 0x418, lo := 0, width := 4, acc := .ro }
def CW_TRUST_STATUS_BUSY : Fld := { block := .causeway, off := 0x418, lo := 4, width := 1, acc := .ro }

def CW_PUBKEY_KEY : Fld := { block := .causeway, off := 0x420, lo := 0, width := 64, acc := .ro }

def CW_ROUTE_ENTRY0 : Fld := { block := .causeway, off := 0x480, lo := 0, width := 4, acc := .rw, reset := 15, legal := [(0, 11), (15, 15)] }
def CW_ROUTE_ENTRY1 : Fld := { block := .causeway, off := 0x480, lo := 4, width := 4, acc := .rw, reset := 15, legal := [(0, 11), (15, 15)] }
def CW_ROUTE_ENTRY2 : Fld := { block := .causeway, off := 0x480, lo := 8, width := 4, acc := .rw, reset := 15, legal := [(0, 11), (15, 15)] }
def CW_ROUTE_ENTRY3 : Fld := { block := .causeway, off := 0x480, lo := 12, width := 4, acc := .rw, reset := 15, legal := [(0, 11), (15, 15)] }
def CW_ROUTE_ENTRY4 : Fld := { block := .causeway, off := 0x480, lo := 16, width := 4, acc := .rw, reset := 15, legal := [(0, 11), (15, 15)] }
def CW_ROUTE_ENTRY5 : Fld := { block := .causeway, off := 0x480, lo := 20, width := 4, acc := .rw, reset := 15, legal := [(0, 11), (15, 15)] }
def CW_ROUTE_ENTRY6 : Fld := { block := .causeway, off := 0x480, lo := 24, width := 4, acc := .rw, reset := 15, legal := [(0, 11), (15, 15)] }
def CW_ROUTE_ENTRY7 : Fld := { block := .causeway, off := 0x480, lo := 28, width := 4, acc := .rw, reset := 15, legal := [(0, 11), (15, 15)] }
def CW_ROUTE_ENTRY8 : Fld := { block := .causeway, off := 0x480, lo := 32, width := 4, acc := .rw, reset := 15, legal := [(0, 11), (15, 15)] }
def CW_ROUTE_ENTRY9 : Fld := { block := .causeway, off := 0x480, lo := 36, width := 4, acc := .rw, reset := 15, legal := [(0, 11), (15, 15)] }
def CW_ROUTE_ENTRY10 : Fld := { block := .causeway, off := 0x480, lo := 40, width := 4, acc := .rw, reset := 15, legal := [(0, 11), (15, 15)] }
def CW_ROUTE_ENTRY11 : Fld := { block := .causeway, off := 0x480, lo := 44, width := 4, acc := .rw, reset := 15, legal := [(0, 11), (15, 15)] }
def CW_ROUTE_ENTRY12 : Fld := { block := .causeway, off := 0x480, lo := 48, width := 4, acc := .rw, reset := 15, legal := [(0, 11), (15, 15)] }
def CW_ROUTE_ENTRY13 : Fld := { block := .causeway, off := 0x480, lo := 52, width := 4, acc := .rw, reset := 15, legal := [(0, 11), (15, 15)] }
def CW_ROUTE_ENTRY14 : Fld := { block := .causeway, off := 0x480, lo := 56, width := 4, acc := .rw, reset := 15, legal := [(0, 11), (15, 15)] }
def CW_ROUTE_ENTRY15 : Fld := { block := .causeway, off := 0x480, lo := 60, width := 4, acc := .rw, reset := 15, legal := [(0, 11), (15, 15)] }

def CW_GNT_SEL_SLOT : Fld := { block := .causeway, off := 0x700, lo := 0, width := 6, acc := .rw }

def CW_GNT_W_WORD : Fld := { block := .causeway, off := 0x708, lo := 0, width := 64, acc := .rw }

def CW_GNT_CMD_OP : Fld := { block := .causeway, off := 0x748, lo := 0, width := 2, acc := .wo }

def CW_GNT_STATUS_STATUS : Fld := { block := .causeway, off := 0x750, lo := 0, width := 4, acc := .ro }
def CW_GNT_STATUS_SLOT_STATE : Fld := { block := .causeway, off := 0x750, lo := 4, width := 2, acc := .ro }
def CW_GNT_STATUS_SUSPENDED : Fld := { block := .causeway, off := 0x750, lo := 6, width := 1, acc := .ro }
def CW_GNT_STATUS_RESERVED : Fld := { block := .causeway, off := 0x750, lo := 16, width := 16, acc := .ro }

def CW_IMP_VALID : Fld := { block := .causeway, off := 0x800, lo := 0, width := 1, acc := .rw }
def CW_IMP_POLDER : Fld := { block := .causeway, off := 0x800, lo := 4, width := 4, acc := .rw }
def CW_IMP_PEER : Fld := { block := .causeway, off := 0x800, lo := 8, width := 8, acc := .rw }
def CW_IMP_GRANT : Fld := { block := .causeway, off := 0x800, lo := 16, width := 6, acc := .rw }
def CW_IMP_RATE : Fld := { block := .causeway, off := 0x800, lo := 32, width := 16, acc := .rw }

/-! ## spec/17_power_thermal.md: Power states and cooling -/

def PWR_REQ_LEVEL : Fld := { block := .power, off := 0x040, lo := 0, width := 2, acc := .rw }
def PWR_REQ_STATE : Fld := { block := .power, off := 0x040, lo := 8, width := 2, acc := .rw }

def PWR_STATUS_STATE : Fld := { block := .power, off := 0x048, lo := 0, width := 3, acc := .ro }
def PWR_STATUS_RAIL_OK : Fld := { block := .power, off := 0x048, lo := 8, width := 1, acc := .ro }
def PWR_STATUS_LEVEL_WAIT : Fld := { block := .power, off := 0x048, lo := 9, width := 1, acc := .ro }
def PWR_STATUS_READY_FOR_OFF : Fld := { block := .power, off := 0x048, lo := 10, width := 1, acc := .ro }

def PWR_BOARD_POWER : Fld := { block := .power, off := 0x050, lo := 0, width := 16, acc := .ro }
def PWR_BOARD_PEAK_1S : Fld := { block := .power, off := 0x050, lo := 16, width := 16, acc := .ro }
def PWR_BOARD_SEQ : Fld := { block := .power, off := 0x050, lo := 32, width := 16, acc := .ro }
def PWR_BOARD_STALE : Fld := { block := .power, off := 0x050, lo := 48, width := 1, acc := .ro }

def PWR_ENERGY_MJ : Fld := { block := .power, off := 0x058, lo := 0, width := 64, acc := .ro }

def PWR_TEMP_BASE_MAX : Fld := { block := .power, off := 0x060, lo := 0, width := 8, acc := .ro }

/-! ## spec/18_resets_hasps_longops.md: Resets, hasps and long operations -/

/-- SCOPE 3 has an outcome of its own and is no illegal value in the sense of R51 (Table — `RST_CMD`). -/
def RST_CMD_SCOPE : Fld := { block := .reset, off := 0x040, lo := 0, width := 2, acc := .wo }
def RST_CMD_MGC : Fld := { block := .reset, off := 0x040, lo := 4, width := 1, acc := .wo }

def RST_KEEP_TABLES_KEEP : Fld := { block := .reset, off := 0x048, lo := 0, width := 1, acc := .rw }
def RST_KEEP_TABLES_WILL_KEEP : Fld := { block := .reset, off := 0x048, lo := 1, width := 1, acc := .ro }
def RST_KEEP_TABLES_DEMAND : Fld := { block := .reset, off := 0x048, lo := 16, width := 16, acc := .ro }

def RST_STATUS_CAUSE : Fld := { block := .reset, off := 0x050, lo := 0, width := 3, acc := .ro }
def RST_STATUS_KEPT : Fld := { block := .reset, off := 0x050, lo := 3, width := 1, acc := .ro }

def RST_ENGINE_BLOCK : Fld := { block := .reset, off := 0x058, lo := 0, width := 16, acc := .wo }
def RST_ENGINE_INSTANCE : Fld := { block := .reset, off := 0x058, lo := 16, width := 8, acc := .wo }
def RST_ENGINE_FENCE_EN : Fld := { block := .reset, off := 0x058, lo := 24, width := 1, acc := .wo }
def RST_ENGINE_FENCE : Fld := { block := .reset, off := 0x058, lo := 32, width := 17, acc := .wo }

def RST_ENGINE_STATUS_BUSY : Fld := { block := .reset, off := 0x060, lo := 0, width := 1, acc := .ro }
def RST_ENGINE_STATUS_BG_TICKS : Fld := { block := .reset, off := 0x060, lo := 8, width := 3, acc := .ro }
def RST_ENGINE_STATUS_RESETS : Fld := { block := .reset, off := 0x060, lo := 16, width := 16, acc := .ro }

def HSP_ACQUIRE_IDENT : Fld := { block := .hasp, off := 0x200, lo := 0, width := 32, acc := .ro, reset := 3 }
def HSP_ACQUIRE_STATUS : Fld := { block := .hasp, off := 0x200, lo := 32, width := 3, acc := .ro }
def HSP_ACQUIRE_RELEASE : Fld := { block := .hasp, off := 0x200, lo := 63, width := 1, acc := .wo }

def HSP_STATE_IDENT : Fld := { block := .hasp, off := 0x400, lo := 0, width := 32, acc := .ro, reset := 3 }
def HSP_STATE_STATE : Fld := { block := .hasp, off := 0x400, lo := 32, width := 2, acc := .ro }

/-! ## spec/19_background_integrity.md: Background work and silent-error defence -/

def ASY_SRC_STAITHE : Fld := { block := .assayCentral, off := 0x040, lo := 0, width := 8, acc := .rw }
def ASY_SRC_OFFSET : Fld := { block := .assayCentral, off := 0x040, lo := 12, width := 18, acc := .rw }

def ASY_CMD_OP : Fld := { block := .assayCentral, off := 0x048, lo := 0, width := 2, acc := .wo }
def ASY_CMD_BLOCK : Fld := { block := .assayCentral, off := 0x048, lo := 8, width := 8, acc := .wo }
def ASY_CMD_INSTANCE : Fld := { block := .assayCentral, off := 0x048, lo := 16, width := 8, acc := .wo }
def ASY_CMD_FENCE_EN : Fld := { block := .assayCentral, off := 0x048, lo := 24, width := 1, acc := .wo }
def ASY_CMD_FENCE : Fld := { block := .assayCentral, off := 0x048, lo := 32, width := 17, acc := .wo }

def ASY_STATUS_STATUS : Fld := { block := .assayCentral, off := 0x050, lo := 0, width := 4, acc := .ro }
def ASY_STATUS_BUSY : Fld := { block := .assayCentral, off := 0x050, lo := 4, width := 1, acc := .ro }

def ASY_PACK_SEQ : Fld := { block := .assayCentral, off := 0x058, lo := 0, width := 32, acc := .ro }
def ASY_PACK_TESTS : Fld := { block := .assayCentral, off := 0x058, lo := 32, width := 11, acc := .ro }
def ASY_PACK_SIGNER : Fld := { block := .assayCentral, off := 0x058, lo := 48, width := 4, acc := .ro }
def ASY_PACK_VALID : Fld := { block := .assayCentral, off := 0x058, lo := 63, width := 1, acc := .ro }

def ASY_PACK_ID_ID : Fld := { block := .assayCentral, off := 0x060, lo := 0, width := 64, acc := .ro }

def ASY_CFG_INTERVAL : Fld := { block := .assayCentral, off := 0x068, lo := 0, width := 24, acc := .rwl, reset := 21600, legal := [(0, 604800)] }

def ASY_CPER_BASE_STAITHE : Fld := { block := .assayCentral, off := 0x070, lo := 0, width := 8, acc := .rw }
def ASY_CPER_BASE_OFFSET : Fld := { block := .assayCentral, off := 0x070, lo := 12, width := 18, acc := .rw }

def ASY_CPER_CFG_EN : Fld := { block := .assayCentral, off := 0x078, lo := 0, width := 1, acc := .rw }
def ASY_CPER_CFG_LOG2_SIZE : Fld := { block := .assayCentral, off := 0x078, lo := 4, width := 5, acc := .rw, reset := 6, legal := [(4, 12)] }
def ASY_CPER_CFG_VEC : Fld := { block := .assayCentral, off := 0x078, lo := 16, width := 8, acc := .rw }

def ASY_CPER_HEAD_HEAD : Fld := { block := .assayCentral, off := 0x080, lo := 0, width := 16, acc := .rw }

def ASY_CPER_TAIL_TAIL : Fld := { block := .assayCentral, off := 0x088, lo := 0, width := 16, acc := .ro }
def ASY_CPER_TAIL_LOST : Fld := { block := .assayCentral, off := 0x088, lo := 32, width := 16, acc := .ro }

def ASY_COUNT_TREE : Fld := { block := .assayCentral, off := 0x090, lo := 0, width := 16, acc := .ro }
def ASY_COUNT_BG_CONFLICTS : Fld := { block := .assayCentral, off := 0x090, lo := 32, width := 16, acc := .ro }

def ASY_ENG_HEALTH : Fld := { block := .assayCentral, off := 0x100, lo := 0, width := 2, acc := .ro }
def ASY_ENG_MARKS : Fld := { block := .assayCentral, off := 0x100, lo := 2, width := 2, acc := .ro }
def ASY_ENG_QUEUED : Fld := { block := .assayCentral, off := 0x100, lo := 4, width := 2, acc := .ro }
def ASY_ENG_VERDICT : Fld := { block := .assayCentral, off := 0x100, lo := 6, width := 2, acc := .ro }
def ASY_ENG_PASSES : Fld := { block := .assayCentral, off := 0x100, lo := 16, width := 16, acc := .ro }
def ASY_ENG_LAST_TICK : Fld := { block := .assayCentral, off := 0x100, lo := 32, width := 32, acc := .ro }

/-! ## spec/20_health_patina.md: Wear, end of life and replacement -/

def PAT_INDEX_INDEX : Fld := { block := .patina, off := 0x040, lo := 0, width := 10, acc := .ro }
def PAT_INDEX_WORST_MON : Fld := { block := .patina, off := 0x040, lo := 12, width := 3, acc := .ro }
def PAT_INDEX_WORST_INST : Fld := { block := .patina, off := 0x040, lo := 16, width := 8, acc := .ro }

def PAT_LIFE_DAYS : Fld := { block := .patina, off := 0x048, lo := 0, width := 16, acc := .ro, reset := 65535 }
def PAT_LIFE_LOW : Fld := { block := .patina, off := 0x048, lo := 16, width := 16, acc := .ro, reset := 65535 }
def PAT_LIFE_POINTS : Fld := { block := .patina, off := 0x048, lo := 32, width := 8, acc := .ro }
def PAT_LIFE_VALID : Fld := { block := .patina, off := 0x048, lo := 40, width := 1, acc := .ro }

def PAT_CFG_REPLACE_DAYS : Fld := { block := .patina, off := 0x050, lo := 0, width := 12, acc := .rwl, reset := 120, legal := [(0, 3650)] }

def PAT_CAUSE_LIFE : Fld := { block := .patina, off := 0x058, lo := 0, width := 1, acc := .ro }
def PAT_CAUSE_SPARE : Fld := { block := .patina, off := 0x058, lo := 1, width := 1, acc := .ro }
def PAT_CAUSE_BENCHED : Fld := { block := .patina, off := 0x058, lo := 2, width := 1, acc := .ro }
def PAT_CAUSE_RETIRED : Fld := { block := .patina, off := 0x058, lo := 3, width := 1, acc := .ro }
def PAT_CAUSE_PORTS : Fld := { block := .patina, off := 0x058, lo := 4, width := 1, acc := .ro }
def PAT_CAUSE_FAULT_PORTS_24H : Fld := { block := .patina, off := 0x058, lo := 8, width := 4, acc := .ro }

def PAT_SCORE_RO : Fld := { block := .patina, off := 0x060, lo := 0, width := 10, acc := .ro }
def PAT_SCORE_SPARE : Fld := { block := .patina, off := 0x060, lo := 10, width := 10, acc := .ro }
def PAT_SCORE_BOND : Fld := { block := .patina, off := 0x060, lo := 20, width := 10, acc := .ro }
def PAT_SCORE_EYE : Fld := { block := .patina, off := 0x060, lo := 30, width := 10, acc := .ro }
def PAT_SCORE_CHARGE : Fld := { block := .patina, off := 0x060, lo := 40, width := 10, acc := .ro }
def PAT_SCORE_CYCLES : Fld := { block := .patina, off := 0x060, lo := 50, width := 10, acc := .ro }

def PAT_STATUS_BAD_MON : Fld := { block := .patina, off := 0x068, lo := 0, width := 6, acc := .ro }
def PAT_STATUS_SAMPLES : Fld := { block := .patina, off := 0x068, lo := 16, width := 32, acc := .ro }

/-! ## spec/21_counters.md: Performance counters and dumps -/

def CNT_CTRL_K : Fld := { block := .counters, off := 0x040, lo := 0, width := 16, acc := .rwl, reset := 1, legal := [(1, 65535)] }
def CNT_CTRL_FRAMES : Fld := { block := .counters, off := 0x040, lo := 16, width := 32, acc := .ro }

def CNT_SNAP_SEQ : Fld := { block := .counters, off := 0x048, lo := 0, width := 32, acc := .ro }
def CNT_SNAP_LATCHED : Fld := { block := .counters, off := 0x048, lo := 32, width := 32, acc := .ro }

def CNT_WIN_BANK : Fld := { block := .counters, off := 0x050, lo := 0, width := 5, acc := .rw, legal := [(0, 20)] }
def CNT_WIN_VIEW : Fld := { block := .counters, off := 0x050, lo := 8, width := 1, acc := .rw }

def CNT_DUMP_BASE_STAITHE : Fld := { block := .counters, off := 0x058, lo := 0, width := 8, acc := .rw }
def CNT_DUMP_BASE_OFFSET : Fld := { block := .counters, off := 0x058, lo := 12, width := 18, acc := .rw }

def CNT_DUMP_CFG_EN : Fld := { block := .counters, off := 0x060, lo := 0, width := 1, acc := .rw }
def CNT_DUMP_CFG_LOG2_SIZE : Fld := { block := .counters, off := 0x060, lo := 4, width := 5, acc := .rw, reset := 2, legal := [(1, 10)] }
def CNT_DUMP_CFG_VEC : Fld := { block := .counters, off := 0x060, lo := 16, width := 8, acc := .rw }

def CNT_DUMP_HEAD_HEAD : Fld := { block := .counters, off := 0x068, lo := 0, width := 16, acc := .rw }

def CNT_DUMP_TAIL_TAIL : Fld := { block := .counters, off := 0x070, lo := 0, width := 16, acc := .ro }
def CNT_DUMP_TAIL_LOST : Fld := { block := .counters, off := 0x070, lo := 32, width := 16, acc := .ro }

def CNT_WINV_VALUE : Fld := { block := .counters, off := 0x800, lo := 0, width := 48, acc := .ro }
def CNT_WINV_WRAP : Fld := { block := .counters, off := 0x800, lo := 48, width := 1, acc := .ro }

/-! ## spec/22_management_hallmark.md: Management plane and the Hallmark bank -/

def HM_UID_UID : Fld := { block := .hallmark, off := 0x040, lo := 0, width := 64, acc := .ro }

def HM_VALUES_SECURITY_VERSION : Fld := { block := .hallmark, off := 0x050, lo := 0, width := 8, acc := .wct }
def HM_VALUES_ENVELOPE_CAP : Fld := { block := .hallmark, off := 0x050, lo := 8, width := 2, acc := .wct }
def HM_VALUES_SEALED_ONLY : Fld := { block := .hallmark, off := 0x050, lo := 12, width := 1, acc := .wct }
def HM_VALUES_DEBUG_CLOSE : Fld := { block := .hallmark, off := 0x050, lo := 13, width := 1, acc := .wct }
def HM_VALUES_PORT_MAP : Fld := { block := .hallmark, off := 0x050, lo := 16, width := 12, acc := .wct, reset := 4095 }
def HM_VALUES_DEV_ID : Fld := { block := .hallmark, off := 0x050, lo := 32, width := 8, acc := .wct }
def HM_VALUES_DOMAIN : Fld := { block := .hallmark, off := 0x050, lo := 40, width := 16, acc := .wct }

def HM_STRIKES_SECURITY_VERSION : Fld := { block := .hallmark, off := 0x058, lo := 0, width := 7, acc := .ro }
def HM_STRIKES_OWNER_KEY : Fld := { block := .hallmark, off := 0x058, lo := 8, width := 3, acc := .ro }
def HM_STRIKES_FABRIC_IDENTITY : Fld := { block := .hallmark, off := 0x058, lo := 16, width := 5, acc := .ro }
def HM_STRIKES_ENVELOPE_CAP : Fld := { block := .hallmark, off := 0x058, lo := 24, width := 4, acc := .ro }
def HM_STRIKES_SEALED_ONLY : Fld := { block := .hallmark, off := 0x058, lo := 28, width := 1, acc := .ro }
def HM_STRIKES_DEBUG_CLOSE : Fld := { block := .hallmark, off := 0x058, lo := 29, width := 1, acc := .ro }
def HM_STRIKES_PORT_MAP : Fld := { block := .hallmark, off := 0x058, lo := 32, width := 3, acc := .ro }
def HM_STRIKES_ASSAY_SIGNER : Fld := { block := .hallmark, off := 0x058, lo := 40, width := 4, acc := .ro }

def HM_LOG_ENTRIES : Fld := { block := .hallmark, off := 0x060, lo := 0, width := 11, acc := .ro }
def HM_LOG_REPAIR_ENTRIES : Fld := { block := .hallmark, off := 0x060, lo := 16, width := 10, acc := .ro }
def HM_LOG_REJECTS : Fld := { block := .hallmark, off := 0x060, lo := 32, width := 16, acc := .ro }

def MGC_BOOT_SLOT : Fld := { block := .hallmark, off := 0x068, lo := 0, width := 1, acc := .ro }
def MGC_BOOT_FELL_BACK : Fld := { block := .hallmark, off := 0x068, lo := 1, width := 1, acc := .ro }
def MGC_BOOT_RUN_SVN : Fld := { block := .hallmark, off := 0x068, lo := 8, width := 8, acc := .ro }
def MGC_BOOT_FW_VERSION : Fld := { block := .hallmark, off := 0x068, lo := 32, width := 32, acc := .ro }

def HM_OWNER_KEY_KEY : Fld := { block := .hallmark, off := 0x100, lo := 0, width := 64, acc := .wct }

def HM_SIGNER_HASH : Fld := { block := .hallmark, off := 0x200, lo := 0, width := 64, acc := .wct }

def MBX_CMD_OP : Fld := { block := .junction, off := 0x100, lo := 0, width := 8, acc := .wo }
def MBX_CMD_LEN : Fld := { block := .junction, off := 0x100, lo := 32, width := 10, acc := .wo, legal := [(0, 512)] }

def MBX_STATUS_BUSY : Fld := { block := .junction, off := 0x108, lo := 0, width := 1, acc := .ro }
def MBX_STATUS_DONE : Fld := { block := .junction, off := 0x108, lo := 1, width := 1, acc := .ro }
def MBX_STATUS_RESULT : Fld := { block := .junction, off := 0x108, lo := 4, width := 4, acc := .ro }
def MBX_STATUS_OP : Fld := { block := .junction, off := 0x108, lo := 8, width := 8, acc := .ro }
def MBX_STATUS_RSP_LEN : Fld := { block := .junction, off := 0x108, lo := 16, width := 10, acc := .ro }
def MBX_STATUS_GEN : Fld := { block := .junction, off := 0x108, lo := 32, width := 16, acc := .ro }

def MBX_REQ_DATA : Fld := { block := .junction, off := 0x200, lo := 0, width := 64, acc := .rw }

def MBX_RSP_DATA : Fld := { block := .junction, off := 0x400, lo := 0, width := 64, acc := .ro }

/-! ## spec/23_start_up.md: Bringing the Isovoner up -/

def RST_BOOT_PHASE : Fld := { block := .reset, off := 0x068, lo := 0, width := 3, acc := .ro }
def RST_BOOT_FAIL : Fld := { block := .reset, off := 0x068, lo := 4, width := 4, acc := .ro }
def RST_BOOT_TRAIN_FAIL : Fld := { block := .reset, off := 0x068, lo := 8, width := 8, acc := .ro }
def RST_BOOT_STRAPS : Fld := { block := .reset, off := 0x068, lo := 16, width := 4, acc := .ro }
def RST_BOOT_READY_MS : Fld := { block := .reset, off := 0x068, lo := 32, width := 16, acc := .ro }
def RST_BOOT_TRAIN_RETRY : Fld := { block := .reset, off := 0x068, lo := 48, width := 8, acc := .ro }

/-! ## spec/24_package_pins.md: Package, pins and electrical limits -/

def PMX_SB_FUNC : Fld := { block := .pinmux, off := 0x040, lo := 0, width := 4, acc := .rw, byIdx := [3, 4, 5, 6], legal := [(0, 9)] }
def PMX_SB_POL : Fld := { block := .pinmux, off := 0x040, lo := 4, width := 1, acc := .rw, byIdx := [0, 0, 1] }
def PMX_SB_PULL : Fld := { block := .pinmux, off := 0x040, lo := 5, width := 2, acc := .rw, legal := [(0, 2)] }
def PMX_SB_DIR : Fld := { block := .pinmux, off := 0x040, lo := 8, width := 1, acc := .rw }
def PMX_SB_OUT : Fld := { block := .pinmux, off := 0x040, lo := 9, width := 1, acc := .rw }
def PMX_SB_IN : Fld := { block := .pinmux, off := 0x040, lo := 16, width := 1, acc := .ro }
def PMX_SB_PARKED : Fld := { block := .pinmux, off := 0x040, lo := 17, width := 1, acc := .ro, reset := 1 }
def PMX_SB_QUEUED : Fld := { block := .pinmux, off := 0x040, lo := 18, width := 1, acc := .ro }
def PMX_SB_CUR_FUNC : Fld := { block := .pinmux, off := 0x040, lo := 20, width := 4, acc := .ro }

def PMX_SYNC_IN_TICK : Fld := { block := .pinmux, off := 0x080, lo := 0, width := 32, acc := .ro }
def PMX_SYNC_IN_COUNT : Fld := { block := .pinmux, off := 0x080, lo := 32, width := 16, acc := .ro }

/-! ## spec/25_register_index.md: Register index -/

def DEV_NS_NS : Fld := { block := .clock, off := 0x040, lo := 0, width := 64, acc := .ro }

/-! ## spec/07_translation.md: Device address translation -/

def FLT_HEAD_HEAD : Fld := { block := .ctx, off := 0x090, lo := 0, width := 16, acc := .rw }

def FLT_TAIL_TAIL : Fld := { block := .ctx, off := 0x098, lo := 0, width := 16, acc := .ro }
def FLT_TAIL_LOST : Fld := { block := .ctx, off := 0x098, lo := 32, width := 16, acc := .ro }

/-! ## spec/02_planes_clocks_junctions.md: Planes, clock domains and junctions -/

def JCT_BENCHED_DV_BITS : Fld := { block := .junction, off := 0x058, lo := 0, width := 64, acc := .ro }

/-! ## spec/09_towers_memory.md: Towers, vaults, weirs and Freeboard -/

def TWR_PLOG_HEAD_HEAD : Fld := { block := .tower, off := 0x088, lo := 0, width := 4, acc := .ro }
def TWR_PLOG_HEAD_TOTAL : Fld := { block := .tower, off := 0x088, lo := 16, width := 16, acc := .ro }

def TWR_VTEMP_BYTE0 : Fld := { block := .tower, off := 0x048, lo := 0, width := 8, acc := .ro }
def TWR_VTEMP_BYTE1 : Fld := { block := .tower, off := 0x048, lo := 8, width := 8, acc := .ro }
def TWR_VTEMP_BYTE2 : Fld := { block := .tower, off := 0x048, lo := 16, width := 8, acc := .ro }
def TWR_VTEMP_BYTE3 : Fld := { block := .tower, off := 0x048, lo := 24, width := 8, acc := .ro }
def TWR_VTEMP_BYTE4 : Fld := { block := .tower, off := 0x048, lo := 32, width := 8, acc := .ro }
def TWR_VTEMP_BYTE5 : Fld := { block := .tower, off := 0x048, lo := 40, width := 8, acc := .ro }
def TWR_VTEMP_BYTE6 : Fld := { block := .tower, off := 0x048, lo := 48, width := 8, acc := .ro }
def TWR_VTEMP_BYTE7 : Fld := { block := .tower, off := 0x048, lo := 56, width := 8, acc := .ro }

/-! ## spec/19_background_integrity.md: Background work and silent-error defence -/

def ASY_DRG_HEALTH : Fld := { block := .assay, off := 0x100, lo := 0, width := 2, acc := .ro }
def ASY_DRG_MARKS : Fld := { block := .assay, off := 0x100, lo := 2, width := 2, acc := .ro }
def ASY_DRG_QUEUED : Fld := { block := .assay, off := 0x100, lo := 4, width := 2, acc := .ro }
def ASY_DRG_VERDICT : Fld := { block := .assay, off := 0x100, lo := 6, width := 2, acc := .ro }
def ASY_DRG_PASSES : Fld := { block := .assay, off := 0x100, lo := 16, width := 16, acc := .ro }
def ASY_DRG_LAST_TICK : Fld := { block := .assay, off := 0x100, lo := 32, width := 32, acc := .ro }

end Sys2Proof.Machine.F
end

