-- ==== Sys2Proof/Machine/RegTable.lean ====
section
/-! DEFINITION. The registers of each page (spec/25_register_index.md and the home chapters), as rows of the fields
of Machine/Fields.lean. `own` marks a register whose write has a row of its own in spec/opcode_table.json. -/

namespace Sys2Proof.Machine
open Sys2Proof

/-- One register, or an array of `count` registers `stride` bytes apart, of a page. -/
structure Reg where
  off : Nat
  count : Nat := 1
  stride : Nat := 8
  atomic64 : Bool := false
  own : Bool := false
  fields : List Fld

/-- The eight header registers of a page (R42), by the block whose page carries them. -/
def headerRegs (b : Block) : List Reg :=
  [ { off := 0x010, fields := [F.PG_CTRL_LOCK.on b] },
    { off := 0x020, fields := [F.PG_ERR_BAD_SIZE.on b, F.PG_ERR_HALF_ATOMIC.on b, F.PG_ERR_ILLEGAL_VALUE.on b,
        F.PG_ERR_LOCKED_WRITE.on b] },
    { off := 0x028, fields := [F.PG_ERR_MASK_MASK.on b] },
    { off := 0x030, fields := [F.PG_ERR_FIRST_ERR_BIT.on b, F.PG_ERR_FIRST_VALID.on b, F.PG_ERR_FIRST_OFFSET.on b,
        F.PG_ERR_FIRST_TICK.on b] } ]

/-- Block registers of the junction page. -/
def regs_junction : List Reg :=
  [
    { off := 0x040, fields := [F.JCT_CEIL_MGC_CEIL, F.JCT_CEIL_HOST_REQ, F.JCT_CEIL_EFF_LEVEL, F.JCT_CEIL_CUR_LEVEL, F.JCT_CEIL_EFF_SRC, F.JCT_CEIL_PENDING] },
    { off := 0x048, fields := [F.JCT_HEALTH_REPLACE_DATA, F.JCT_HEALTH_REPLACE_MGC, F.JCT_HEALTH_REPLACE_EFF, F.JCT_HEALTH_FAULT_DATA, F.JCT_HEALTH_FAULT_MGC, F.JCT_HEALTH_FAULT_EFF] },
    { off := 0x050, fields := [F.JCT_BENCHED_ANVIL, F.JCT_BENCHED_PLANISHER, F.JCT_BENCHED_SOLDER, F.JCT_BENCHED_PUNCH, F.JCT_BENCHED_RIDDLE, F.JCT_BENCHED_TARN, F.JCT_BENCHED_LADLE] },
    { off := 0x078, fields := [F.JCT_PORT_EN_HOST_EN, F.JCT_PORT_EN_MGC_EN, F.JCT_PORT_EN_QUAR, F.JCT_PORT_EN_EFF] },
    { off := 0x080, fields := [F.JCT_RESET_HOST_SCOPE, F.JCT_RESET_MGC_SCOPE, F.JCT_RESET_EFF_SCOPE, F.JCT_RESET_GEN_CTRL, F.JCT_RESET_GEN_MGMT] },
    { off := 0x088, fields := [F.JCT_ZERO_MGC_REQ, F.JCT_ZERO_BUSY, F.JCT_ZERO_DONE] },
    { off := 0x100, own := true, fields := [F.MBX_CMD_OP, F.MBX_CMD_LEN] },
    { off := 0x108, fields := [F.MBX_STATUS_BUSY, F.MBX_STATUS_DONE, F.MBX_STATUS_RESULT, F.MBX_STATUS_OP, F.MBX_STATUS_RSP_LEN, F.MBX_STATUS_GEN] },
    { off := 0x200, count := 64, fields := [F.MBX_REQ_DATA] },
    { off := 0x400, count := 64, fields := [F.MBX_RSP_DATA] },
    { off := 0x058, count := 4, fields := [F.JCT_BENCHED_DV_BITS] } ]

/-- Block registers of the directory page. -/
def regs_directory : List Reg :=
  [
    { off := 0x040, fields := [F.DIR_COUNT_BAR0_ENTRIES, F.DIR_COUNT_BAR2_PAGES] },
    { off := 0x100, count := 480, fields := [F.DIR_ENTRY_FIRST_PAGE, F.DIR_ENTRY_COUNT, F.DIR_ENTRY_BLOCK_TYPE, F.DIR_ENTRY_FIRST_INSTANCE, F.DIR_ENTRY_FIRST_INDEX, F.DIR_ENTRY_MODE] } ]

/-- Block registers of the polder page. -/
def regs_polder : List Reg :=
  [
    { off := 0x040, own := true, fields := [F.PLD_CMD_OP, F.PLD_CMD_FENCE_EN, F.PLD_CMD_FENCE] },
    { off := 0x048, fields := [F.PLD_STATE_STATE, F.PLD_STATE_HALTED, F.PLD_STATE_MODE, F.PLD_STATE_SEALED_ONLY, F.PLD_STATE_TDISP, F.PLD_STATE_LAST_STATUS, F.PLD_STATE_GEN] },
    { off := 0x050, fields := [F.PLD_CFG_MODE, F.PLD_CFG_SCRUB_ON_FLR, F.PLD_CFG_CNT_VIS] },
    { off := 0x060, count := 4, fields := [F.PLD_VAULTS_VAULTS] },
    { off := 0x080, fields := [F.PLD_WAYS_WAYS] },
    { off := 0x088, fields := [F.PLD_MERE_UNITS] },
    { off := 0x090, own := true, fields := [F.PLD_ASSIGN_KIND, F.PLD_ASSIGN_RELEASE, F.PLD_ASSIGN_INDEX, F.PLD_ASSIGN_COUNT, F.PLD_ASSIGN_CTX] },
    { off := 0x098, fields := [F.PLD_ASSIGN_STATUS_STATUS, F.PLD_ASSIGN_STATUS_BUSY, F.PLD_ASSIGN_STATUS_DONE] },
    { off := 0x0a0, fields := [F.PLD_ZERO_PROGRESS_DONE, F.PLD_ZERO_PROGRESS_TOTAL] } ]

/-- Block registers of the owner page. -/
def regs_owner : List Reg :=
  [
    { off := 0x040, fields := [F.PLD_COND_TIER, F.PLD_COND_NEXT_TIER, F.PLD_COND_LEVEL, F.PLD_COND_NEXT_LEVEL, F.PLD_COND_PENDING, F.PLD_COND_ADVISORY] },
    { off := 0x048, fields := [F.PLD_HAVE_CONTEXTS, F.PLD_HAVE_QUEUES, F.PLD_HAVE_FENCE_BLOCKS, F.PLD_HAVE_MOBJ_BLOCKS, F.PLD_HAVE_EXTENTS] },
    { off := 0x050, fields := [F.PLD_SCRUB_ON_WARM] },
    { off := 0x0c0, fields := [F.EVR_BASE_STAITHE, F.EVR_BASE_OFFSET] },
    { off := 0x0c8, fields := [F.EVR_CFG_EN, F.EVR_CFG_LOG2_SIZE, F.EVR_CFG_VEC] },
    { off := 0x0d0, fields := [F.EVR_HEAD_HEAD] },
    { off := 0x0d8, fields := [F.EVR_TAIL_TAIL, F.EVR_TAIL_LOST] },
    { off := 0x200, count := 16, stride := 32, fields := [F.STH_BASE_ADDR] },
    { off := 0x208, count := 16, stride := 32, fields := [F.STH_CFG_EN, F.STH_CFG_CLASS, F.STH_CFG_BERTHS, F.STH_CFG_RAW] },
    { off := 0x210, count := 16, stride := 32, fields := [F.STH_STATUS_HELD, F.STH_STATUS_SKIPPED] },
    { off := 0x1f8, fields := [F.STH_STAGE_USED, F.STH_STAGE_WAITING] },
    { off := 0x0e0, fields := [F.MOB_LO_CLASS, F.MOB_LO_WRITE, F.MOB_LO_VA, F.MOB_LO_CTX] },
    { off := 0x0e8, fields := [F.MOB_HI_PAGES] },
    { off := 0x0f0, own := true, fields := [F.MOB_CMD_OP, F.MOB_CMD_SLOT, F.MOB_CMD_FENCE_EN, F.MOB_CMD_FENCE] },
    { off := 0x0f8, fields := [F.MOB_STATUS_STATUS, F.MOB_STATUS_BUSY, F.MOB_STATUS_HALTED, F.MOB_STATUS_STORE_USED, F.MOB_STATUS_WALKED] },
    { off := 0x100, fields := [F.PLN_SRC_STAITHE, F.PLN_SRC_OFFSET] },
    { off := 0x108, fields := [F.PLN_DESC_VA, F.PLN_DESC_CTX] },
    { off := 0x110, own := true, fields := [F.PLN_CMD_OP, F.PLN_CMD_FENCE_EN, F.PLN_CMD_FENCE] },
    { off := 0x118, fields := [F.PLN_STATUS_STATUS, F.PLN_STATUS_BUSY, F.PLN_STATUS_HALTED, F.PLN_STATUS_STAGED, F.PLN_STATUS_DROPPED, F.PLN_STATUS_FAIL_INDEX] },
    { off := 0x120, fields := [F.PLN_ACTIVE_CRC, F.PLN_ACTIVE_LODES] },
    { off := 0x128, fields := [F.PLN_SWITCH_TICK] },
    { off := 0x130, fields := [F.PLN_PROGRESS_DONE, F.PLN_PROGRESS_TOTAL] },
    { off := 0x400, fields := [F.TBL_SRC_STAITHE, F.TBL_SRC_OFFSET] },
    { off := 0x408, own := true, fields := [F.TBL_CMD_OP, F.TBL_CMD_TABLE, F.TBL_CMD_FENCE_EN, F.TBL_CMD_FENCE] },
    { off := 0x410, fields := [F.TBL_STATUS_STATUS, F.TBL_STATUS_BUSY, F.TBL_STATUS_HALTED, F.TBL_STATUS_FAIL_OFFSET] },
    { off := 0x420, fields := [F.HMK_CFG_PROMOTE, F.HMK_CFG_THRESH] },
    { off := 0x428, own := true, fields := [F.HMK_CMD_OP, F.HMK_CMD_TABLE, F.HMK_CMD_FENCE_EN, F.HMK_CMD_FENCE] },
    { off := 0x430, fields := [F.HMK_FIRST_ROW] },
    { off := 0x438, fields := [F.HMK_COUNT_COUNT] },
    { off := 0x440, fields := [F.HMK_STATUS_STATUS, F.HMK_STATUS_BUSY, F.HMK_STATUS_HALTED, F.HMK_STATUS_PINNED, F.HMK_STATUS_DONE] },
    { off := 0x480, fields := [F.EP_STATE_PUB, F.EP_STATE_STATE, F.EP_STATE_BUSY, F.EP_STATE_HALTED, F.EP_STATE_RET_VALID, F.EP_STATE_RET_OPEN, F.EP_STATE_TOUCHED, F.EP_STATE_JNL_LOST] },
    { off := 0x488, own := true, fields := [F.EP_CMD_OP, F.EP_CMD_FENCE_EN, F.EP_CMD_FENCE] },
    { off := 0x490, fields := [F.EP_PROGRESS_DONE, F.EP_PROGRESS_DRAIN] },
    { off := 0x498, fields := [F.EP_JNL_VA, F.EP_JNL_CTX] },
    { off := 0x4a0, fields := [F.EP_JNL_SIZE_CAP, F.EP_JNL_SIZE_USED] },
    { off := 0x4a8, fields := [F.EP_LAST_FAIL_FENCE, F.EP_LAST_FAIL_APPLIED, F.EP_LAST_FAIL_VALID] },
    { off := 0x4b0, fields := [F.EP_SAT_SATURATED, F.EP_SAT_JNL_FULL] },
    { off := 0x4c0, fields := [F.TN_SLABS_VA_VA] },
    { off := 0x4c8, fields := [F.TN_SLABS_STRIDE, F.TN_SLABS_COUNT] },
    { off := 0x4d0, fields := [F.TN_GEOM_LAYERS, F.TN_GEOM_KV_DIM, F.TN_GEOM_CAP] },
    { off := 0x4d8, fields := [F.TN_STATUS_CONFLICTS, F.TN_STATUS_PIN_FULL] } ]

/-- Block registers of the ctx page. -/
def regs_ctx : List Reg :=
  [
    { off := 0x040, fields := [F.CTX_CFG_ENABLE] },
    { off := 0x050, fields := [F.CTX_FENCES_BASE, F.CTX_FENCES_COUNT] },
    { off := 0x058, fields := [F.CTX_MIRROR_EN, F.CTX_MIRROR_ADDR] },
    { off := 0x060, fields := [F.CTX_IRQ_MODE, F.CTX_IRQ_VEC, F.CTX_IRQ_COAL_COUNT, F.CTX_IRQ_COAL_TICKS] },
    { off := 0x068, own := true, fields := [F.CTX_CMD_OP] },
    { off := 0x070, fields := [F.CTX_STATUS_STATE, F.CTX_STATUS_MIRROR_FAULT, F.CTX_STATUS_RUNS, F.CTX_STATUS_GEN] },
    { off := 0x048, atomic64 := true, fields := [F.CTX_ROOT_ADDR] },
    { off := 0x080, fields := [F.FLT_BASE_STAITHE, F.FLT_BASE_OFFSET] },
    { off := 0x088, fields := [F.FLT_CFG_EN, F.FLT_CFG_LOG2_SIZE, F.FLT_CFG_VEC] },
    { off := 0x0a0, own := true, fields := [F.FLT_RESUME_FAULT_ID, F.FLT_RESUME_OP] },
    { off := 0x0a8, fields := [F.FLT_PENDING_PENDING, F.FLT_PENDING_STALLED, F.FLT_PENDING_STALE] },
    { off := 0x0b0, fields := [F.INV_ADDR_VA] },
    { off := 0x0b8, own := true, fields := [F.INV_CMD_OP, F.INV_CMD_FENCE_EN, F.INV_CMD_FENCE, F.INV_CMD_PAGES] },
    { off := 0x0c0, fields := [F.INV_PROGRESS_PHASE, F.INV_PROGRESS_DRAIN, F.INV_PROGRESS_REWALKED] },
    { off := 0x090, fields := [F.FLT_HEAD_HEAD] },
    { off := 0x098, fields := [F.FLT_TAIL_TAIL, F.FLT_TAIL_LOST] } ]

/-- Block registers of the queue page. -/
def regs_queue : List Reg :=
  [
    { off := 0x040, fields := [F.Q_CFG_CTX] },
    { off := 0x048, fields := [F.Q_STATUS_DEPTH, F.Q_STATUS_TORN, F.Q_STATUS_REARM_IGNORED, F.Q_STATUS_DROPPED] } ]

/-- Block registers of the fence page. -/
def regs_fence : List Reg :=
  [
    { off := 0x040, own := true, fields := [F.FNC_CMD_OP, F.FNC_CMD_BLOCK, F.FNC_CMD_FENCE_EN, F.FNC_CMD_FENCE] },
    { off := 0x048, fields := [F.FNC_PROGRESS_DONE, F.FNC_PROGRESS_HELD, F.FNC_PROGRESS_BUSY] } ]

/-- Block registers of the mmu page. -/
def regs_mmu : List Reg :=
  [
    { off := 0x040, fields := [F.MMU_STORE_CAP, F.MMU_STORE_USED] } ]

/-- Block registers of the reeve page. -/
def regs_reeve : List Reg :=
  [
    { off := 0x080, fields := [F.DEV_TICK_TICK] },
    { off := 0x040, fields := [F.RV_CFG_PLAN_SIG, F.RV_CFG_FRAME_SIG] },
    { off := 0x048, fields := [F.RV_FRAME_SRC_STAITHE, F.RV_FRAME_SRC_OFFSET] },
    { off := 0x050, own := true, fields := [F.RV_CMD_OP, F.RV_CMD_DROP_UNFIT, F.RV_CMD_FENCE_EN, F.RV_CMD_FENCE] },
    { off := 0x058, fields := [F.RV_STATUS_STATUS, F.RV_STATUS_BUSY, F.RV_STATUS_HALTED, F.RV_STATUS_STAGED, F.RV_STATUS_ARMED, F.RV_STATUS_FAIL_LANE, F.RV_STATUS_FAIL_POLDER] },
    { off := 0x060, fields := [F.RV_FRAME_LENGTH, F.RV_FRAME_FRAME_ID] },
    { off := 0x068, fields := [F.RV_FRAME_START_TICK] },
    { off := 0x070, fields := [F.RV_SWITCH_TICK] },
    { off := 0x078, fields := [F.RV_PROGRESS_DONE, F.RV_PROGRESS_TOTAL] } ]

/-- Block registers of the tower page. -/
def regs_tower : List Reg :=
  [
    { off := 0x100, count := 48, fields := [F.TWR_SECT_VALID, F.TWR_SECT_LOG2_N, F.TWR_SECT_FIRST_VAULT, F.TWR_SECT_LOCAL_BASE] },
    { off := 0x040, fields := [F.TWR_TEMP_MAX, F.TWR_TEMP_HOT_VAULT, F.TWR_TEMP_TIER_HELD, F.TWR_TEMP_ADVISORY, F.TWR_TEMP_BAD_SENSORS] },
    { off := 0x400, count := 16, fields := [F.TWR_PLOG_GRANULE, F.TWR_PLOG_KIND, F.TWR_PLOG_POLDER, F.TWR_PLOG_BY_POLDER] },
    { off := 0x068, fields := [F.TWR_CFG_UE_LIMIT, F.TWR_CFG_WEAK_THRESH, F.TWR_CFG_SCRUB_EN] },
    { off := 0x070, fields := [F.TWR_SCRUB_PASSES, F.TWR_SCRUB_LATE, F.TWR_SCRUB_CAND_LOST] },
    { off := 0x078, own := true, fields := [F.TWR_CMD_OP, F.TWR_CMD_VAULT, F.TWR_CMD_CAND, F.TWR_CMD_FENCE_EN, F.TWR_CMD_FENCE] },
    { off := 0x080, fields := [F.TWR_CMD_STATUS_STATUS, F.TWR_CMD_STATUS_BUSY, F.TWR_CMD_STATUS_HALTED, F.TWR_CMD_STATUS_COPIED] },
    { off := 0x0c0, count := 8, fields := [F.TWR_WEAK_VALID, F.TWR_WEAK_VAULT, F.TWR_WEAK_BANK, F.TWR_WEAK_ROW, F.TWR_WEAK_CORR] },
    { off := 0x300, count := 32, fields := [F.TWR_VSTAT_CE, F.TWR_VSTAT_UE, F.TWR_VSTAT_SPARE_LEFT, F.TWR_VSTAT_WB_DROP, F.TWR_VSTAT_RETIRED] },
    { off := 0x088, fields := [F.TWR_PLOG_HEAD_HEAD, F.TWR_PLOG_HEAD_TOTAL] },
    { off := 0x048, count := 4, fields := [F.TWR_VTEMP_BYTE0, F.TWR_VTEMP_BYTE1, F.TWR_VTEMP_BYTE2, F.TWR_VTEMP_BYTE3, F.TWR_VTEMP_BYTE4, F.TWR_VTEMP_BYTE5, F.TWR_VTEMP_BYTE6, F.TWR_VTEMP_BYTE7] } ]

/-- Block registers of the weir page. -/
def regs_weir : List Reg :=
  [
    { off := 0x040, fields := [F.WR_STATE_SLOTS, F.WR_STATE_TIER, F.WR_STATE_RAW_TIER] },
    { off := 0x100, count := 16, fields := [F.WR_PLD_CREDIT, F.WR_PLD_LEND, F.WR_PLD_LEFT] } ]

/-- Block registers of the anvil page. -/
def regs_anvil : List Reg :=
  [
    { off := 0x040, fields := [F.AV_QUEUE_DEPTH, F.AV_QUEUE_HOLDS, F.AV_QUEUE_EMPTY_POPS, F.AV_QUEUE_DISCARDED] },
    { off := 0x048, fields := [F.AV_RESIDUE_MISMATCHES, F.AV_RESIDUE_LAST_TICK] } ]

/-- Block registers of the planisher page. -/
def regs_planisher : List Reg :=
  [
    { off := 0x040, fields := [F.PL_COUNT_STEPS, F.PL_COUNT_FLAGGED, F.PL_COUNT_POISON] } ]

/-- Block registers of the riddle page. -/
def regs_riddle : List Reg :=
  [
    { off := 0x040, fields := [F.RD_STATUS_SELECTS, F.RD_STATUS_NAN_SCORES] } ]

/-- Block registers of the causeway page. -/
def regs_causeway : List Reg :=
  [
    { off := 0x040, fields := [F.CW_STATE_STATE, F.CW_STATE_SLOW, F.CW_STATE_QCAUSE, F.CW_STATE_PEER, F.CW_STATE_LAT_NS, F.CW_STATE_RETRAINS_10S, F.CW_STATE_HOSTILE_10S, F.CW_STATE_UPS] },
    { off := 0x048, own := true, fields := [F.CW_CMD_OP] },
    { off := 0x050, fields := [F.CW_POLICY_HOSTILE_LIMIT, F.CW_POLICY_SLOW_LIMIT] },
    { off := 0x058, fields := [F.CW_CNT_LINK_UNCORR_BURSTS, F.CW_CNT_LINK_NAKS, F.CW_CNT_LINK_RETRAINS, F.CW_CNT_LINK_TRAIN_TIMEOUTS] },
    { off := 0x060, fields := [F.CW_CNT_HOSTILE_TAG_FAIL, F.CW_CNT_HOSTILE_REPLAY, F.CW_CNT_HOSTILE_OUT_OF_GRANT, F.CW_CNT_HOSTILE_OVER_RATE, F.CW_CNT_HOSTILE_SPOOF, F.CW_CNT_HOSTILE_AUTH_FAIL] },
    { off := 0x068, fields := [F.CW_CNT_SVC_LATE_SENT, F.CW_CNT_SVC_LATE_RCVD, F.CW_CNT_SVC_LATE_RESP, F.CW_CNT_SVC_NO_ROUTE] },
    { off := 0x400, fields := [F.CW_ID_DEV_ID, F.CW_ID_DOMAIN, F.CW_ID_PORT_MAP] },
    { off := 0x408, fields := [F.CW_TRUST_SRC_STAITHE, F.CW_TRUST_SRC_OFFSET] },
    { off := 0x410, own := true, fields := [F.CW_TRUST_CMD_OP] },
    { off := 0x418, fields := [F.CW_TRUST_STATUS_STATUS, F.CW_TRUST_STATUS_BUSY] },
    { off := 0x420, count := 12, fields := [F.CW_PUBKEY_KEY] },
    { off := 0x480, count := 64, fields := [F.CW_ROUTE_ENTRY0, F.CW_ROUTE_ENTRY1, F.CW_ROUTE_ENTRY2, F.CW_ROUTE_ENTRY3, F.CW_ROUTE_ENTRY4, F.CW_ROUTE_ENTRY5, F.CW_ROUTE_ENTRY6, F.CW_ROUTE_ENTRY7, F.CW_ROUTE_ENTRY8, F.CW_ROUTE_ENTRY9, F.CW_ROUTE_ENTRY10, F.CW_ROUTE_ENTRY11, F.CW_ROUTE_ENTRY12, F.CW_ROUTE_ENTRY13, F.CW_ROUTE_ENTRY14, F.CW_ROUTE_ENTRY15] },
    { off := 0x700, fields := [F.CW_GNT_SEL_SLOT] },
    { off := 0x708, count := 8, fields := [F.CW_GNT_W_WORD] },
    { off := 0x748, own := true, fields := [F.CW_GNT_CMD_OP] },
    { off := 0x750, fields := [F.CW_GNT_STATUS_STATUS, F.CW_GNT_STATUS_SLOT_STATE, F.CW_GNT_STATUS_SUSPENDED, F.CW_GNT_STATUS_RESERVED] },
    { off := 0x800, count := 64, fields := [F.CW_IMP_VALID, F.CW_IMP_POLDER, F.CW_IMP_PEER, F.CW_IMP_GRANT, F.CW_IMP_RATE] } ]

/-- Block registers of the power page. -/
def regs_power : List Reg :=
  [
    { off := 0x040, own := true, fields := [F.PWR_REQ_LEVEL, F.PWR_REQ_STATE] },
    { off := 0x048, fields := [F.PWR_STATUS_STATE, F.PWR_STATUS_RAIL_OK, F.PWR_STATUS_LEVEL_WAIT, F.PWR_STATUS_READY_FOR_OFF] },
    { off := 0x050, fields := [F.PWR_BOARD_POWER, F.PWR_BOARD_PEAK_1S, F.PWR_BOARD_SEQ, F.PWR_BOARD_STALE] },
    { off := 0x058, fields := [F.PWR_ENERGY_MJ] },
    { off := 0x060, fields := [F.PWR_TEMP_BASE_MAX] } ]

/-- Block registers of the reset page. -/
def regs_reset : List Reg :=
  [
    { off := 0x040, own := true, fields := [F.RST_CMD_SCOPE, F.RST_CMD_MGC] },
    { off := 0x048, fields := [F.RST_KEEP_TABLES_KEEP, F.RST_KEEP_TABLES_WILL_KEEP, F.RST_KEEP_TABLES_DEMAND] },
    { off := 0x050, fields := [F.RST_STATUS_CAUSE, F.RST_STATUS_KEPT] },
    { off := 0x058, own := true, fields := [F.RST_ENGINE_BLOCK, F.RST_ENGINE_INSTANCE, F.RST_ENGINE_FENCE_EN, F.RST_ENGINE_FENCE] },
    { off := 0x060, fields := [F.RST_ENGINE_STATUS_BUSY, F.RST_ENGINE_STATUS_BG_TICKS, F.RST_ENGINE_STATUS_RESETS] },
    { off := 0x068, fields := [F.RST_BOOT_PHASE, F.RST_BOOT_FAIL, F.RST_BOOT_TRAIN_FAIL, F.RST_BOOT_STRAPS, F.RST_BOOT_READY_MS, F.RST_BOOT_TRAIN_RETRY] } ]

/-- Block registers of the hasp page. -/
def regs_hasp : List Reg :=
  [
    { off := 0x200, count := 64, atomic64 := true, own := true, fields := [F.HSP_ACQUIRE_IDENT, F.HSP_ACQUIRE_STATUS, F.HSP_ACQUIRE_RELEASE] },
    { off := 0x400, count := 64, fields := [F.HSP_STATE_IDENT, F.HSP_STATE_STATE] } ]

/-- Block registers of the assayCentral page. -/
def regs_assayCentral : List Reg :=
  [
    { off := 0x040, fields := [F.ASY_SRC_STAITHE, F.ASY_SRC_OFFSET] },
    { off := 0x048, own := true, fields := [F.ASY_CMD_OP, F.ASY_CMD_BLOCK, F.ASY_CMD_INSTANCE, F.ASY_CMD_FENCE_EN, F.ASY_CMD_FENCE] },
    { off := 0x050, fields := [F.ASY_STATUS_STATUS, F.ASY_STATUS_BUSY] },
    { off := 0x058, fields := [F.ASY_PACK_SEQ, F.ASY_PACK_TESTS, F.ASY_PACK_SIGNER, F.ASY_PACK_VALID] },
    { off := 0x060, fields := [F.ASY_PACK_ID_ID] },
    { off := 0x068, fields := [F.ASY_CFG_INTERVAL] },
    { off := 0x070, fields := [F.ASY_CPER_BASE_STAITHE, F.ASY_CPER_BASE_OFFSET] },
    { off := 0x078, fields := [F.ASY_CPER_CFG_EN, F.ASY_CPER_CFG_LOG2_SIZE, F.ASY_CPER_CFG_VEC] },
    { off := 0x080, fields := [F.ASY_CPER_HEAD_HEAD] },
    { off := 0x088, fields := [F.ASY_CPER_TAIL_TAIL, F.ASY_CPER_TAIL_LOST] },
    { off := 0x090, fields := [F.ASY_COUNT_TREE, F.ASY_COUNT_BG_CONFLICTS] },
    { off := 0x100, count := 46, fields := [F.ASY_ENG_HEALTH, F.ASY_ENG_MARKS, F.ASY_ENG_QUEUED, F.ASY_ENG_VERDICT, F.ASY_ENG_PASSES, F.ASY_ENG_LAST_TICK] } ]

/-- Block registers of the patina page. -/
def regs_patina : List Reg :=
  [
    { off := 0x040, fields := [F.PAT_INDEX_INDEX, F.PAT_INDEX_WORST_MON, F.PAT_INDEX_WORST_INST] },
    { off := 0x048, fields := [F.PAT_LIFE_DAYS, F.PAT_LIFE_LOW, F.PAT_LIFE_POINTS, F.PAT_LIFE_VALID] },
    { off := 0x050, fields := [F.PAT_CFG_REPLACE_DAYS] },
    { off := 0x058, fields := [F.PAT_CAUSE_LIFE, F.PAT_CAUSE_SPARE, F.PAT_CAUSE_BENCHED, F.PAT_CAUSE_RETIRED, F.PAT_CAUSE_PORTS, F.PAT_CAUSE_FAULT_PORTS_24H] },
    { off := 0x060, fields := [F.PAT_SCORE_RO, F.PAT_SCORE_SPARE, F.PAT_SCORE_BOND, F.PAT_SCORE_EYE, F.PAT_SCORE_CHARGE, F.PAT_SCORE_CYCLES] },
    { off := 0x068, fields := [F.PAT_STATUS_BAD_MON, F.PAT_STATUS_SAMPLES] } ]

/-- Block registers of the counters page. -/
def regs_counters : List Reg :=
  [
    { off := 0x040, fields := [F.CNT_CTRL_K, F.CNT_CTRL_FRAMES] },
    { off := 0x048, fields := [F.CNT_SNAP_SEQ, F.CNT_SNAP_LATCHED] },
    { off := 0x050, fields := [F.CNT_WIN_BANK, F.CNT_WIN_VIEW] },
    { off := 0x058, fields := [F.CNT_DUMP_BASE_STAITHE, F.CNT_DUMP_BASE_OFFSET] },
    { off := 0x060, fields := [F.CNT_DUMP_CFG_EN, F.CNT_DUMP_CFG_LOG2_SIZE, F.CNT_DUMP_CFG_VEC] },
    { off := 0x068, fields := [F.CNT_DUMP_HEAD_HEAD] },
    { off := 0x070, fields := [F.CNT_DUMP_TAIL_TAIL, F.CNT_DUMP_TAIL_LOST] },
    { off := 0x800, count := 256, fields := [F.CNT_WINV_VALUE, F.CNT_WINV_WRAP] } ]

/-- Block registers of the hallmark page. -/
def regs_hallmark : List Reg :=
  [
    { off := 0x040, count := 2, fields := [F.HM_UID_UID] },
    { off := 0x050, fields := [F.HM_VALUES_SECURITY_VERSION, F.HM_VALUES_ENVELOPE_CAP, F.HM_VALUES_SEALED_ONLY, F.HM_VALUES_DEBUG_CLOSE, F.HM_VALUES_PORT_MAP, F.HM_VALUES_DEV_ID, F.HM_VALUES_DOMAIN] },
    { off := 0x058, fields := [F.HM_STRIKES_SECURITY_VERSION, F.HM_STRIKES_OWNER_KEY, F.HM_STRIKES_FABRIC_IDENTITY, F.HM_STRIKES_ENVELOPE_CAP, F.HM_STRIKES_SEALED_ONLY, F.HM_STRIKES_DEBUG_CLOSE, F.HM_STRIKES_PORT_MAP, F.HM_STRIKES_ASSAY_SIGNER] },
    { off := 0x060, fields := [F.HM_LOG_ENTRIES, F.HM_LOG_REPAIR_ENTRIES, F.HM_LOG_REJECTS] },
    { off := 0x068, fields := [F.MGC_BOOT_SLOT, F.MGC_BOOT_FELL_BACK, F.MGC_BOOT_RUN_SVN, F.MGC_BOOT_FW_VERSION] },
    { off := 0x100, count := 12, fields := [F.HM_OWNER_KEY_KEY] },
    { off := 0x200, count := 48, fields := [F.HM_SIGNER_HASH] } ]

/-- Block registers of the pinmux page. -/
def regs_pinmux : List Reg :=
  [
    { off := 0x040, count := 8, own := true, fields := [F.PMX_SB_FUNC, F.PMX_SB_POL, F.PMX_SB_PULL, F.PMX_SB_DIR, F.PMX_SB_OUT, F.PMX_SB_IN, F.PMX_SB_PARKED, F.PMX_SB_QUEUED, F.PMX_SB_CUR_FUNC] },
    { off := 0x080, fields := [F.PMX_SYNC_IN_TICK, F.PMX_SYNC_IN_COUNT] } ]

/-- Block registers of the clock page. -/
def regs_clock : List Reg :=
  [
    { off := 0x040, fields := [F.DEV_NS_NS] } ]

/-- Block registers of the assay page. -/
def regs_assay : List Reg :=
  [
    { off := 0x100, count := 32, fields := [F.ASY_DRG_HEALTH, F.ASY_DRG_MARKS, F.ASY_DRG_QUEUED, F.ASY_DRG_VERDICT, F.ASY_DRG_PASSES, F.ASY_DRG_LAST_TICK] } ]

/-- The block registers of each kind of page. Pages with a header only have none. -/
def blockRegs : Block → List Reg
  | .junction => regs_junction
  | .directory => regs_directory
  | .polder => regs_polder
  | .owner => regs_owner
  | .ctx => regs_ctx
  | .queue => regs_queue
  | .fence => regs_fence
  | .mmu => regs_mmu
  | .reeve => regs_reeve
  | .tower => regs_tower
  | .weir => regs_weir
  | .anvil => regs_anvil
  | .planisher => regs_planisher
  | .riddle => regs_riddle
  | .causeway => regs_causeway
  | .power => regs_power
  | .reset => regs_reset
  | .hasp => regs_hasp
  | .assayCentral => regs_assayCentral
  | .patina => regs_patina
  | .counters => regs_counters
  | .hallmark => regs_hallmark
  | .pinmux => regs_pinmux
  | .clock => regs_clock
  | .assay => regs_assay
  | .dredge => []
  | .hummock => []
  | .solder => []
  | .punch => []
  | .tarn => []
  | .ladle => []

end Sys2Proof.Machine
end

