-- ==== Sys2Proof/Machine/Ops.lean ====
section
/-! DEFINITION. The shared operations: bytes and bits, who owns what, page errors, records and interrupts to the host,
fences, and translation through the store. -/

namespace Sys2Proof.Machine
open Sys2Proof

/-! ## Bytes and bits -/

/-- The low `n` bytes of a number, lowest first (spec/00_scope.md, Byte order). -/
def leBytes : Nat → Nat → List Byte
  | 0, _ => []
  | n + 1, v => BitVec.ofNat 8 v :: leBytes n (v / 256)

/-- The number whose bytes these are, lowest first. -/
def ofLe : List Byte → Nat
  | [] => 0
  | b :: t => b.toNat + 256 * ofLe t

/-- `n` bytes from position `off`; bytes past the end read 0. -/
def slice (bs : List Byte) (off n : Nat) : List Byte :=
  let t := (bs.drop off).take n
  t ++ List.replicate (n - t.length) 0

/-- The little-endian number of `n` bytes at position `off`. -/
def numAt (bs : List Byte) (off n : Nat) : Nat := ofLe (slice bs off n)

/-- Bits [lo + w - 1 : lo] of a number. -/
def bitsOf (v lo w : Nat) : Nat := v / 2 ^ lo % 2 ^ w

/-- Bit `i` of a number. -/
def bitAt (v i : Nat) : Bool := v / 2 ^ i % 2 == 1

/-- A number with bit `i` set. -/
def setBit (v i : Nat) : Nat := if bitAt v i then v else v + 2 ^ i

/-- A number with bit `i` cleared. -/
def clrBit (v i : Nat) : Nat := if bitAt v i then v - 2 ^ i else v

/-- The bits of `a` that `b` does not have, over `w` bits. -/
def bitsDiff (w a b : Nat) : Nat :=
  (List.range w).foldl (fun acc i => if bitAt a i && !bitAt b i then acc + 2 ^ i else acc) 0

/-- The bits that `a` or `b` has, over `w` bits. -/
def bitsOr (w a b : Nat) : Nat :=
  (List.range w).foldl (fun acc i => if bitAt a i || bitAt b i then acc + 2 ^ i else acc) 0

/-- The bits that both have, over `w` bits. -/
def bitsAnd (w a b : Nat) : Nat :=
  (List.range w).foldl (fun acc i => if bitAt a i && bitAt b i then acc + 2 ^ i else acc) 0

/-- The positions of the set bits below `w`, rising. -/
def bitList (w v : Nat) : List Nat := (List.range w).filter (bitAt v)

/-- 1 or 0. -/
def b2n (b : Bool) : Nat := if b then 1 else 0

/-- Quotient rounded up. -/
def ceilDiv (a b : Nat) : Nat := if b = 0 then 0 else (a + b - 1) / b

/-- The low 32 bits. -/
def low32 (v : Nat) : Nat := v % 2 ^ 32

/-! ## Free values -/

/-- Take the next free value (notes/assumptions/2.md). -/
def State.fresh (s : State) : Nat × State := (Config.freeValue s.free, { s with free := s.free + 1 })

/-- What `DEV_NS` shows: the nanoseconds since the last COLD reset as the register counts them, by 4 at each cycle of
MCLK, 250 MHz (Table — `DEV_NS`, R7). -/
def State.devNs (s : State) : Nat := s.ns / 4 * 4

/-- Send something out. -/
def State.emit (s : State) (o : Out) : State := { s with out := o :: s.out }

/-! ## Counters (spec/21_counters.md, R462 to R465) -/

/-- Count `n` events in device counter `k`. The table holds the whole count; VALUE and WRAP are read from it (R462). -/
def State.count (s : State) (k n : Nat) : State := { s with counts := SMap.put 0 s.counts k (SMap.get 0 s.counts k + n) }

/-- Count `n` events in counter `j` of polder `o`; events of the PF count in no polder's counters (R465). -/
def State.countP (s : State) (o j n : Nat) : State := if o = 16 then s else s.count (1280 + 160 * o + j) n

/-- The number of a counter of the device group (Table — Device counters). -/
def devCnt (j : Nat) : Nat := 1136 + j

/-! ## Objects and their owners (R63, R86) -/

/-- The number of an object kind, as `PLD_ASSIGN.KIND` codes it. -/
def objCode : ObjKind → Nat
  | .context => 1 | .queue => 2 | .fenceBlock => 3 | .mobjBlock => 4 | .extent => 5

/-- How many objects of a kind the part has (R86). -/
def objCount : ObjKind → Nat
  | .context => 256 | .queue => 1024 | .fenceBlock => 128 | .mobjBlock => 256 | .extent => 196608

/-- How many objects of a kind one polder may hold: 64 contexts, 256 queues. -/
def objLimit : ObjKind → Nat
  | .context => 64 | .queue => 256 | .fenceBlock => 128 | .mobjBlock => 256 | .extent => 196608

/-- The key of an object in the ownership table. -/
def objKey (k : ObjKind) (i : Nat) : Nat := objCode k * 2 ^ 20 + i

/-- The owner index of an extent that passes between owners and is not clean, so that neither holds it (R69, R72, R543):
until its zeroing ends, or for ever when it has a part in a retired vault (R225). -/
def noOwner : Nat := 17

/-- The owner index of an object: a polder, 16 for the PF, or `noOwner`. -/
def State.ownerOf (s : State) (k : ObjKind) (i : Nat) : Nat := (SMap.get (16, 0) s.own (objKey k i)).1

/-- The local index of an object in its owner's view (R56); in the PF's view it is the global one. -/
def State.localOf (s : State) (k : ObjKind) (i : Nat) : Nat :=
  let e := SMap.get (16, 0) s.own (objKey k i)
  if e.1 = 16 then i else e.2

/-- Give an object to a polder under a local index, or back to the PF. -/
def State.setOwner (s : State) (k : ObjKind) (i o l : Nat) : State :=
  { s with own := SMap.put (16, 0) s.own (objKey k i) (if o = 16 then (16, 0) else (o, l)) }

/-- The objects of a kind that a polder holds, as (global, local). -/
def State.heldBy (s : State) (o : Nat) (k : ObjKind) : List (Nat × Nat) :=
  (s.own.filter (fun e => e.1 / 2 ^ 20 == objCode k && e.2.1 == o)).map (fun e => (e.1 % 2 ^ 20, e.2.2))

/-- The global number of an object named in an owner's view, when the owner holds it. -/
def State.fromLocal (s : State) (o : Nat) (k : ObjKind) (l : Nat) : Option Nat :=
  if o = 16 then (if l < objCount k ∧ s.ownerOf k l = 16 then some l else none)
  else ((s.heldBy o k).find? (fun e => e.2 == l)).map (·.1)

/-- The lowest local index of a kind that no object of the polder has (R56). -/
def State.freeLocal (s : State) (o : Nat) (k : ObjKind) : Nat :=
  let used := (s.heldBy o k).map (·.2)
  ((List.range (used.length + 1)).find? (fun l => !used.contains l)).getD 0

/-- The polder states (Table — `PLD_STATE`). -/
def pFree : Nat := 0
def pConfiguring : Nat := 1
def pActive : Nat := 2
def pDraining : Nat := 3
def pResetting : Nat := 4
def pZeroing : Nat := 5

/-- The state of polder p. -/
def State.pst (s : State) (p : Nat) : Nat := s.rd F.PLD_STATE_STATE p

/-- Is the polder SEALED (R70)? The PF's runs keep planned timing as a SEALED polder's do (R13, notes/assumptions/7.md). -/
def State.isSealed (s : State) (o : Nat) : Bool := o == 16 || s.rd F.PLD_CFG_MODE o == 0

/-- The key of a zeroable item. -/
def ZeroItem.key : ZeroItem → Nat
  | .extent e => e
  | .way w => 2 ^ 20 + w
  | .mereUnit u => 2 ^ 21 + u

/-- Is the item clean (R543)? -/
def State.isClean (s : State) (z : ZeroItem) : Bool := !(SMap.get false s.dirty z.key)

/-- Mark an item written, or clean. -/
def State.setDirty (s : State) (z : ZeroItem) (b : Bool) : State :=
  { s with dirty := SMap.put false s.dirty z.key b }

/-- Is a zeroing of the item pending? -/
def State.zeroPending (s : State) (z : ZeroItem) : Bool := s.zeroJobs.any (fun j => decide (j.item = z))

/-- The polder whose `PLD_MERE` holds a Mere unit, or 16 for the PF. -/
def State.mereHolder (s : State) (u : Nat) : Nat :=
  ((List.range 16).find? (fun p => decide (s.pst p ≠ pFree) && bitAt (s.rd F.PLD_MERE_UNITS p) u)).getD 16

/-- The polder whose `PLD_WAYS` holds a Hummock way, or 16 for the PF. -/
def State.wayHolder (s : State) (w : Nat) : Nat :=
  ((List.range 16).find? (fun p => decide (s.pst p ≠ pFree) && bitAt (s.rd F.PLD_WAYS_WAYS p) w)).getD 16

/-! ## Posted writes and interrupts -/

/-- Is Bus Master Enable set for the function of this owner (R128)? -/
def State.bme (s : State) (o : Nat) : Bool := !s.bmeOff.contains o

/-- The bus address of Staithe n of an owner (R111). -/
def State.sthBase (s : State) (o n : Nat) : Nat := s.rdi F.STH_BASE_ADDR o n * 4096

/-- What an MSI-X table dword reads at reset: vector control reads 1, masked, as the PCI Express base specification
defines; every other dword reads 0. -/
def msixReset (k : Nat) : Nat := if k % 4 = 3 then 1 else 0

/-- Send a vector of an owner's table: a message, or its PBA bit when the vector is masked (R103). -/
def State.sendMsix (s : State) (o vec : Nat) : State :=
  let k := o * 4096 + 4 * vec + 3
  if SMap.get (msixReset k) s.msix k % 2 = 1 then { s with pba := SMap.put false s.pba (o * 4096 + vec) true }
  else ((s.emit (.msix o vec)).count (devCnt 6) 1).countP o 7 1

/-- The fields of a ring in host memory: where it lies, its size, its vector, its head and tail (R104, R149). -/
structure RingRegs where
  staithe : Fld
  offset : Fld
  en : Fld
  log2 : Fld
  vec : Fld
  head : Fld
  tail : Fld
  lost : Fld
  /-- The device counter and the polder counter of a record written, and the device counter of a record lost. -/
  devCount : Option Nat := none
  polCount : Option Nat := none
  lostCount : Option Nat := none

/-- Do the requests of an owner's function travel in an IDE selective stream: those of a TDISP-locked polder do (R110)? -/
def State.ideOf (s : State) (o : Nat) : Bool :=
  decide (o < 16) && (s.rd F.PLD_STATE_TDISP o == 1 || s.rd F.PLD_STATE_TDISP o == 2)

/-- A posted write of an owner's function to host memory (R110). -/
def State.hostWrite (s : State) (o addr : Nat) (bs : List Byte) (relaxed : Bool := false) : State :=
  s.emit (.write o addr bs { noSnoop := false, relaxed := relaxed, ide := s.ideOf o })

/-- A read of host memory by an owner's function (R110, R131). -/
def State.hostRead (s : State) (o addr len : Nat) : State :=
  s.emit (.read o addr len { noSnoop := false, relaxed := false, ide := s.ideOf o })

/-- Write one record to a ring of owner `o` (R104, R105): nothing while the ring is off or Bus Master Enable is 0
(notes/assumptions/8.md); a record that finds the ring full is discarded and counted in LOST, and the next record that
is written carries LOST_PRIOR. `mk` makes the record from its two low bits, PHASE and LOST_PRIOR. -/
def State.ringPut (s : State) (r : RingRegs) (rid o inst size : Nat) (mk : Nat → List Byte) : State :=
  if s.rd r.en inst = 0 ∨ s.bme o = false then s else
  let n := 2 ^ s.rd r.log2 inst
  let tail := s.rd r.tail inst
  let ring := SMap.get { phase := true, lost := false } s.rings rid
  if (tail + 1) % n = s.rd r.head inst % n then
    let s1 := s.bump r.lost inst 1
    let s2 := { s1 with rings := SMap.put { phase := true, lost := false } s.rings rid { ring with lost := true } }
    match r.lostCount with | some k => s2.count k 1 | none => s2
  else
    let addr := s.sthBase o (s.rd r.staithe inst) + s.rd r.offset inst * 4096 + size * tail
    let s1 := s.hostWrite o addr (mk (b2n ring.phase + 2 * b2n ring.lost))
    let tail' := (tail + 1) % n
    let s2 := { s1.wr r.tail inst tail' with
      rings := SMap.put { phase := true, lost := false } s1.rings rid
        { phase := if tail' = 0 then !ring.phase else ring.phase, lost := false } }
    let s3 := match r.devCount with | some k => s2.count k 1 | none => s2
    let s4 := match r.polCount with | some k => s3.countP o k 1 | none => s3
    s4.sendMsix o (s.rd r.vec inst)

/-- The event ring of an owner. -/
def evRing : RingRegs :=
  { staithe := F.EVR_BASE_STAITHE, offset := F.EVR_BASE_OFFSET, en := F.EVR_CFG_EN, log2 := F.EVR_CFG_LOG2_SIZE,
    vec := F.EVR_CFG_VEC, head := F.EVR_HEAD_HEAD, tail := F.EVR_TAIL_TAIL, lost := F.EVR_TAIL_LOST,
    devCount := some (devCnt 8), polCount := some 8, lostCount := some (devCnt 9) }

/-- The event codes of R106. -/
def evPageErr : Nat := 0x0001
def evRunDropped : Nat := 0x0002
def evMirrorFault : Nat := 0x0003
def evFreeboardTier : Nat := 0x0010
def evLevelChange : Nat := 0x0011
def evAdvisory : Nat := 0x0012
def evReplace : Nat := 0x0020
def evEngineBenched : Nat := 0x0021
def evVaultRetired : Nat := 0x0022
def evPortQuarantined : Nat := 0x0023
def evFault : Nat := 0x0024
def evHaspBroken : Nat := 0x0030
def evDumpOverrun : Nat := 0x0040

/-- Raise an event to the ring of one owner (Table — Event record). `src` names the polder concerned, in the PF ring
only. -/
def State.raise (s : State) (o code arg0 arg1 : Nat) (src : Option Nat := none) : State :=
  s.ringPut evRing o o o 32 (fun low =>
    leBytes 8 (low + (if o = 16 then match src with | some p => 4 + p * 16 | none => 0 else 0)
      + code * 2 ^ 16 + low32 s.tick * 2 ^ 32)
    ++ leBytes 8 s.devNs ++ leBytes 8 arg0 ++ leBytes 8 arg1)

/-- Raise an event to the PF and to every polder that is not FREE. A FREE polder has no ring. -/
def State.raiseAll (s : State) (code arg0 arg1 : Nat) : State :=
  (List.range 17).foldl (fun t o => if o = 16 ∨ t.pst o ≠ pFree then t.raise o code arg0 arg1 else t) s

/-! ## Pages (spec/03_register_pages.md) -/

/-- The owner index of a page (R57). The HASP page is shared (R58), and no table says which function its PG_OWNER names or
whose ring takes its EV_PAGE_ERR: the model takes the PF (notes/assumptions/66.md). -/
def State.pageOwner (s : State) (b : Block) (inst : Nat) : Nat :=
  match b with
  | .ctx => s.ownerOf .context inst
  | .queue => s.ownerOf .queue inst
  | .owner | .counters | .directory => inst
  | _ => 16

/-- The page number of a page in its owner's view (BAR0; a QUEUE page's number is that of BAR2). -/
def State.pageNumber (s : State) (b : Block) (inst : Nat) : Nat :=
  match b with
  | .directory => 0x000 | .clock => 0x002 | .reset => 0x003 | .power => 0x004 | .junction => 0x005
  | .pinmux => 0x006 | .hasp => 0x007 | .hallmark => 0x008 | .patina => 0x009 | .counters => 0x00A
  | .assayCentral => 0x00B | .reeve => 0x010 | .mmu => 0x011 | .fence => 0x012
  | .polder => 0x020 + inst
  | .owner => if inst = 16 then 0x001 else 0x021
  | .tower => 0x040 + inst | .weir => 0x048 + inst | .dredge => 0x050 + inst | .hummock => 0x058 + inst
  | .solder => 0x060 + inst | .anvil => 0x068 + inst | .planisher => 0x070 + inst | .assay => 0x078 + inst
  | .punch => 0x080 + inst | .riddle => 0x082 + inst | .tarn => 0x084 + inst | .ladle => 0x090 + inst
  | .causeway => 0x0A0 + inst
  | .ctx => if s.ownerOf .context inst = 16 then 0x100 + inst else 0x040 + s.localOf .context inst
  | .queue => s.localOf .queue inst

/-- The copy of `PG_ERR_FIRST` of a page. -/
def State.pgErrFirst (s : State) (b : Block) (inst : Nat) : Nat :=
  s.rd (F.PG_ERR_FIRST_ERR_BIT.on b) inst + s.rd (F.PG_ERR_FIRST_VALID.on b) inst * 2 ^ 7
    + s.rd (F.PG_ERR_FIRST_OFFSET.on b) inst * 2 ^ 8 + s.rd (F.PG_ERR_FIRST_TICK.on b) inst * 2 ^ 32

/-- The error bits of `PG_ERR`. -/
inductive PgErr where
  | badSize | halfAtomic | illegalValue | lockedWrite
  deriving DecidableEq, Repr

/-- The number of an error bit. -/
def PgErr.bit : PgErr → Nat
  | .badSize => 0 | .halfAtomic => 1 | .illegalValue => 2 | .lockedWrite => 3

/-- The field of an error bit. -/
def PgErr.fld : PgErr → Fld
  | .badSize => F.PG_ERR_BAD_SIZE | .halfAtomic => F.PG_ERR_HALF_ATOMIC
  | .illegalValue => F.PG_ERR_ILLEGAL_VALUE | .lockedWrite => F.PG_ERR_LOCKED_WRITE

/-- Record an error on a page (R43): its bit of `PG_ERR` is set; the first error that is not masked is captured and
raises EV_PAGE_ERR to the page's owner. -/
def State.pageErr (s : State) (b : Block) (inst off : Nat) (e : PgErr) : State :=
  let s1 := s.wr (e.fld.on b) inst 1
  if bitAt (s1.rd (F.PG_ERR_MASK_MASK.on b) inst) e.bit ∨ s1.rd (F.PG_ERR_FIRST_VALID.on b) inst = 1 then s1 else
  let s2 := (((s1.wr (F.PG_ERR_FIRST_ERR_BIT.on b) inst e.bit).wr (F.PG_ERR_FIRST_VALID.on b) inst 1).wr
    (F.PG_ERR_FIRST_OFFSET.on b) inst off).wr (F.PG_ERR_FIRST_TICK.on b) inst (low32 s.tick)
  let o := s2.pageOwner b inst
  s2.raise o evPageErr (s2.pageNumber b inst) (s2.pgErrFirst b inst)

/-- A write that carries an illegal value is discarded whole (R51). -/
def State.illegal (s : State) (b : Block) (inst off : Nat) : State := s.pageErr b inst off .illegalValue

/-! ## Translation through the store (spec/07_translation.md) -/

/-- What a device-virtual address translates to, or the kind of the failure (Table — Fault record). -/
inductive Xl where
  | vault (addr : Nat)
  | mere (off : Nat)
  | host (addr : Nat)
  | fail (kind : Nat)
  deriving DecidableEq, Repr

/-- The kinds of a translation failure. -/
def kNotPresent : Nat := 1
def kWriteDenied : Nat := 2
def kNoObject : Nat := 3
def kBadEntry : Nat := 4
def kBadTarget : Nat := 5
def kBroken : Nat := 6
def kClass : Nat := 7
def kNoSlot : Nat := 8

/-- Does a leaf of a context of owner `o` translate (R130, R75)? A vault or Mere page does when the owner holds its
extent or unit; for a PF context also when a polder whose TDISP state is CONFIG_UNLOCKED does. A unit or an extent that
changes holder and is not clean belongs to nobody until its zeroing ends (R72, R543). -/
def State.mayMap (s : State) (o target addr : Nat) : Bool :=
  if target = 2 then true else
  let h := if target = 0 then s.ownerOf .extent (addr / 2 ^ 21) else s.mereHolder (addr / 2 ^ 20)
  let inRange := if target = 0 then addr < 0x6000000000 else addr < 0x4000000
  let zeroing := target == 1 && s.zeroJobs.any (fun j => decide (j.item = .mereUnit (addr / 2 ^ 20) ∧ j.polder = 16))
  inRange && !zeroing && (h == o || (o == 16 && decide (h < 16) && s.rd F.PLD_STATE_TDISP h == 0))

/-- May a walk record such a leaf, or acceptance check 8 pass it? While a TDISP lock of a polder waits for the PF runs that
hold translations into it, no new one is made (R82, notes/assumptions/107.md). -/
def State.mayEnter (s : State) (o target addr : Nat) : Bool :=
  let h := if target = 0 then s.ownerOf .extent (addr / 2 ^ 21) else s.mereHolder (addr / 2 ^ 20)
  s.mayMap o target addr &&
    !(o == 16 && target != 2 && decide (h < 16) && (SMap.get polderAux0 s.polders h).lockWait.isSome)

/-- The valid memory object of a context that covers a page. -/
def State.mobAt (s : State) (c page : Nat) : Option Mob :=
  s.mobs.find? (fun m => decide (m.ctx = c ∧ m.page ≤ page ∧ page < m.page + m.pages))

/-- The store entry of an object that covers a page. -/
def Mob.entAt (m : Mob) (page : Nat) : Option Ent :=
  m.ents.find? (fun e => decide (e.page ≤ page ∧ page < e.page + e.pages))

/-- Look a byte address up in the store, as the object that covers it gives. -/
def State.xlateIn (s : State) (m : Mob) (va : Nat) (write : Bool) : Xl :=
  if m.broken then .fail kBroken else
  match m.entAt (va / 4096) with
  | none => .fail kNotPresent
  | some e =>
    match e.res with
    | .badEntry => .fail kBadEntry
    | .badTarget => .fail kBadTarget
    | .leaf target addr w =>
      if write && !(w && m.write) then .fail kWriteDenied else
      if !s.mayMap (s.ownerOf .context m.ctx) target addr then .fail kBadTarget else
      let a := addr + (va - e.page * 4096)
      if target = 0 then .vault a else if target = 1 then .mere a else .host a

/-- Look a byte address of a context up in the store (R129). -/
def State.xlate (s : State) (c va : Nat) (write : Bool) : Xl :=
  match s.mobAt c (va / 4096) with
  | none => .fail kNoObject
  | some m => s.xlateIn m va write

/-- A data-dependent address translates only in a valid PINNED object, and not to a host page (R142). -/
def State.xlatePinned (s : State) (c va : Nat) (write : Bool) : Xl :=
  match s.mobAt c (va / 4096) with
  | none => .fail kNoObject
  | some m =>
    if !m.pinned then .fail kClass else
    match s.xlateIn m va write with
    | .host _ => .fail kNoObject
    | r => r

/-! ## Fences (spec/05_host_objects_fences.md) -/

/-- The state of a fence, by its global number. -/
def State.fence (s : State) (f : Nat) : FenceSt := SMap.get .armed s.fences f

/-- The word of a fence (Table — Fence word). ARMED and HELD both read 0. -/
def FenceSt.word : FenceSt → Nat
  | .armed => 0
  | .held _ => 0
  | .signalled e t =>
    1 + (match e with | none => 0 | some c => 2 + c.code * 2 ^ 16) + low32 t * 2 ^ 32

/-- The global number of a fence in an owner's view, when the owner holds its block (R88). -/
def State.fenceGlobal (s : State) (o idx : Nat) : Option Nat :=
  (s.fromLocal o .fenceBlock (idx / 512)).map (fun b => b * 512 + idx % 512)

/-- The number of a fence in its owner's view (R88). -/
def State.fenceView (s : State) (f : Nat) : Nat := s.localOf .fenceBlock (f / 512) * 512 + f % 512

/-- Does the fence window of a context cover a fence of its owner's view? -/
def State.inWindow (s : State) (c v : Nat) : Bool :=
  decide (s.rd F.CTX_FENCES_BASE c ≤ v) && decide (v < s.rd F.CTX_FENCES_BASE c + s.rd F.CTX_FENCES_COUNT c)

/-- The mirror write of a signal (R102): the word goes to the mirror entry's host page, which must lie in a PINNED writable
object of the context; a translation fault skips the write, clears EN, sets MIRROR_FAULT and raises EV_MIRROR_FAULT. An
address whose leaf is no host page counts as a fault, and while Bus Master Enable is 0 the write is left out and nothing else
happens: R102 says neither (notes/assumptions/122.md). -/
def State.mirror (s : State) (c f v : Nat) : State :=
  if s.rd F.CTX_MIRROR_EN c = 0 then s else
  let o := s.ownerOf .context c
  let va := s.rd F.CTX_MIRROR_ADDR c * 8 + 8 * (v - s.rd F.CTX_FENCES_BASE c)
  let pinned := match s.mobAt c (va / 4096) with | some m => m.pinned | none => false
  match pinned, s.xlate c va true with
  | true, .host a =>
    if s.bme o then (s.hostWrite o a (leBytes 8 (s.fence f).word)).count (devCnt 7) 1 else s
  | _, _ =>
    ((s.wr F.CTX_MIRROR_EN c 0).wr F.CTX_STATUS_MIRROR_FAULT c 1).raise o evMirrorFault
      (s.localOf .context c + v * 2 ^ 32) va

/-- Notify one context of a signal in its window (R103). A write of `CTX_IRQ` between two signals is looked at with the
next signal or at the timeout, since R103 names no other moment (notes/assumptions/123.md). -/
def State.notifyIrq (s : State) (c : Nat) : State :=
  let o := s.ownerOf .context c
  if s.rd F.CTX_IRQ_MODE c = 1 then s.sendMsix o (s.rd F.CTX_IRQ_VEC c)
  else if s.rd F.CTX_IRQ_MODE c = 2 then
    let k := SMap.get { count := 0, first := 0 } s.coal c
    let k' : Coal := { count := k.count + 1, first := if k.count = 0 then s.tick else k.first }
    if k'.count ≥ s.rd F.CTX_IRQ_COAL_COUNT c then
      ({ s with coal := SMap.put { count := 0, first := 0 } s.coal c { count := 0, first := 0 } }).sendMsix o
        (s.rd F.CTX_IRQ_VEC c)
    else { s with coal := SMap.put { count := 0, first := 0 } s.coal c k' }
  else s

/-- Does the window of a context cover fence `f` of its owner? -/
def State.coversFence (s : State) (f c : Nat) : Bool :=
  s.ownerOf .context c == s.ownerOf .fenceBlock (f / 512) && s.inWindow c (s.fenceView f)

/-- What the contexts whose windows cover fence `f` do when it signals: the mirror writes, then the interrupts (R101), each in
ascending order of the contexts (notes/assumptions/114.md). -/
def State.notifyAll (s : State) (f : Nat) : State :=
  let cs := (List.range 256).filter (s.coversFence f)
  cs.foldl State.notifyIrq (cs.foldl (fun t c => t.mirror c f (s.fenceView f)) s)

/-- Where the outcome of a fence counts in its polder's counters (Table — Polder counters). -/
def outcomeCnt : Option Err → Nat
  | none => 16
  | some e => 17 + 5 * (e.code / 256 - 1) + (e.code % 256 - 1)

/-- Count a signal (Table — Device counters, Table — Polder counters). -/
def State.countSignal (s : State) (o : Nat) (e : Option Err) : State :=
  let s1 := ((s.count (devCnt 4) 1).countP o 6 1).countP o (outcomeCnt e) 1
  if e.isSome then s1.count (devCnt 5) 1 else s1

/-- Signal a HELD fence (R96): the word, then the mirror writes, then the interrupts, for every context of the fence's
owner whose window covers it (R101, R102). A fence that is not held is left alone. -/
def State.signal (s : State) (f : Nat) (e : Option Err) : State :=
  match s.fence f with
  | .held _ =>
    let s0 := { s with fences := SMap.put .armed s.fences f (.signalled e (low32 s.tick)) }
    let s1 := s0.countSignal (s.ownerOf .fenceBlock (f / 512)) e
    s1.notifyAll f
  | _ => s

/-- Take the fence that a command names (R96): an ARMED fence of the owner becomes HELD by the command. A fence that is
not ARMED, or not of the owner, is not taken: the command runs and signals nothing (notes/assumptions/9.md). -/
def State.takeFence (s : State) (o : Nat) (fe : Option Nat) (op : OpSel) : Option Nat × State :=
  match fe with
  | none => (none, s)
  | some idx =>
    match s.fenceGlobal o idx with
    | none => (none, s)
    | some f =>
      match s.fence f with
      | .armed => (some f, { s with fences := SMap.put .armed s.fences f (.held (.cmd op)) })
      | _ => (none, s)

/-- Signal the fence of a command, if it has one. -/
def State.signalOpt (s : State) (f : Option Nat) (e : Option Err) : State :=
  match f with
  | none => s
  | some f => s.signal f e

/-- The MGC runs its firmware (R476, R477). -/
def State.mgcRuns (s : State) : Bool := s.mgc.up && !s.mgc.recovery

/-- The lower of two error codes (R98). -/
def Err.lower (a b : Err) : Err := if a.code ≤ b.code then a else b

/-- The lowest code of a list. -/
def Err.lowest : List Err → Option Err
  | [] => none
  | e :: t => match Err.lowest t with
    | none => some e
    | some e' => some (e.lower e')

end Sys2Proof.Machine
end

