-- ==== Sys2Proof/Machine/Sha.lean ====
section
/-! DEFINITION. SHA-384 (FIPS 180-4), which the log's key digests, the fourth measurement and the trust anchors use
(R480, Table — Log entry, Table — Trust record). The constants are computed as the standard defines them, from the roots of
the first primes. -/

namespace Sys2Proof.Machine
open Sys2Proof

/-- The largest r below 2^b with r^k at most n. -/
def rootFloor (k n : Nat) : Nat → Nat → Nat
  | 0, r => r
  | b + 1, r => rootFloor k n b (if (r + 2 ^ b) ^ k ≤ n then r + 2 ^ b else r)

/-- The first 64 bits of the fractional part of the k-th root of p. -/
def rootBits (k p : Nat) : Nat := rootFloor k (p * 2 ^ (64 * k)) 70 0 % 2 ^ 64

/-- The first 80 primes. -/
def shaPrimes : List Nat :=
  (List.range 410).filter (fun n => 2 ≤ n && (List.range 19).all (fun i => n % (i + 2) != 0 || n == i + 2))

/-- A round's constant: of the cube root of its prime. The initial value: of the square roots of the ninth to the
sixteenth prime, in two halves of four words. -/
def shaConst (n : Nat) : Word := BitVec.ofNat 64 (rootBits 3 (shaPrimes.getD n 0))
def shaStart : List Word × List Word :=
  let at_ (n : Nat) : Word := BitVec.ofNat 64 (rootBits 2 (shaPrimes.getD n 0))
  ((List.range 4).map (fun i => at_ (8 + i)), (List.range 4).map (fun i => at_ (12 + i)))

/-- The sum, bit by bit, of a word's rotations to the right. -/
def spins (x : Word) (rs : List Nat) : Word := rs.foldl (fun acc r => acc ^^^ x.rotateRight r) 0

/-- A word with one bit of padding, zeros and its length in bits, to whole blocks of 128 bytes. -/
def shaPad (bs : List Byte) : List Byte :=
  let n := bs.length
  bs ++ [0x80] ++ List.replicate ((239 - n % 128) % 128) 0 ++ (leBytes 16 (8 * n)).reverse

/-- Word `i` of a block, its first byte leading. -/
def shaWordAt (block : List Byte) (i : Nat) : Word := BitVec.ofNat 64 (ofLe (slice block (8 * i) 8).reverse)

/-- The schedule word that follows the given ones, of which the newest is first. -/
def shaFollow (ws : List Word) : Word :=
  let back (k : Nat) : Word := ws.getD (k - 1) 0
  (spins (back 2) [19, 61] ^^^ (back 2 >>> 6)) + back 7 + (spins (back 15) [1, 8] ^^^ (back 15 >>> 7)) + back 16

/-- The 80 schedule words of a block, newest first. -/
def shaWords (block : List Byte) : List Word :=
  (List.range 64).foldl (fun ws _ => shaFollow ws :: ws) ((List.range 16).map (shaWordAt block)).reverse

/-- One round: each half of the working variables takes a new first word and drops its last. -/
def shaStep (v : List Word × List Word) (x : Word × Nat) : List Word × List Word :=
  let p (n : Nat) : Word := v.1.getD n 0
  let q (n : Nat) : Word := v.2.getD n 0
  let choose := q 2 ^^^ (q 0 &&& (q 1 ^^^ q 2))
  let most := (p 0 &&& p 1) ||| (p 2 &&& (p 0 ||| p 1))
  let t := q 3 + spins (q 0) [14, 18, 41] + choose + shaConst x.2 + x.1
  ((t + spins (p 0) [28, 34, 39] + most) :: v.1.take 3, (p 3 + t) :: v.2.take 3)

/-- Take in one block. -/
def shaTake (h : List Word × List Word) (block : List Byte) : List Word × List Word :=
  let v := ((shaWords block).reverse.zipIdx).foldl shaStep h
  (List.zipWith (· + ·) h.1 v.1, List.zipWith (· + ·) h.2 v.2)

/-- SHA-384 of a byte string: 48 bytes, the first six words of the final value. -/
def sha384 (bs : List Byte) : List Byte :=
  let m := shaPad bs
  let h := (List.range (m.length / 128)).foldl (fun h i => shaTake h (slice m (128 * i) 128)) shaStart
  ((h.1 ++ h.2).take 6).flatMap (fun w => (leBytes 8 w.toNat).reverse)

end Sys2Proof.Machine
end

