-- ==== Sys2Proof/Machine/Ecdsa.lean ====
section
/-! DEFINITION. ECDSA over P-384 with SHA-384 (FIPS 186-5), by which plans, frames, Assay packs and authorisation records
are signed (spec/08, Image formats; spec/19, R447; spec/22, R489). Keys and signatures are two 48-byte numbers, each with
its first byte leading. -/

namespace Sys2Proof.Machine
open Sys2Proof

/-- The prime of the field, and the order of the base point. -/
def fieldP : Nat := 2 ^ 384 - 2 ^ 128 - 2 ^ 96 + 2 ^ 32 - 1
def orderN : Nat := 2 ^ 384 - 2 ^ 192 + 0xC7634D81F4372DDF581A0DB248B0A77AECEC196ACCC52973

/-- The constant of the curve y² = x³ − 3x + b. -/
def curveB : Nat :=
  0xB3312FA7E23EE7E4988E056BE3F82D19181D9C6EFE8141120314088F5013875AC656398D8A2ED19D2A85C8EDD3EC2AEF

/-- Differences in the field. -/
def fSub (a b : Nat) : Nat := (a + fieldP - b % fieldP) % fieldP
def fMul (a b : Nat) : Nat := a * b % fieldP

/-- Is a pair of numbers a point of the curve? -/
def onCurve (x y : Nat) : Bool :=
  decide (x < fieldP) && decide (y < fieldP) && fMul y y == (fSub (x * x * x) (3 * x) + curveB) % fieldP

/-- A point by its Jacobian coordinates: x = X / Z², y = Y / Z³, and Z = 0 at the point at infinity. -/
structure CurvePt where
  X : Nat
  Y : Nat
  Z : Nat

def ptZero : CurvePt := ⟨1, 1, 0⟩
def ptBase : CurvePt :=
  ⟨0xAA87CA22BE8B05378EB1C71EF320AD746E1D3B628BA79B9859F741E082542A385502F25DBF55296C3A545E3872760AB7,
   0x3617DE4A96262C6F5D9E98BF9292DC29F8F41DBD289A147CE9DA3113B5F0B8C00A60B1CE1D7E819D7A431D7C90EA0E5F, 1⟩

/-- Twice a point. -/
def CurvePt.twice (a : CurvePt) : CurvePt :=
  let zz := fMul a.Z a.Z
  let yy := fMul a.Y a.Y
  let w := fMul 4 (fMul a.X yy)
  let m := fMul 3 (fMul (fSub a.X zz) (a.X + zz))
  let x := fSub (m * m) (2 * w)
  ⟨x, fSub (m * fSub w x) (8 * yy * yy), fMul 2 (a.Y * a.Z)⟩

/-- The sum of two points. -/
def CurvePt.plus (a b : CurvePt) : CurvePt :=
  if a.Z = 0 then b else if b.Z = 0 then a else
  let za := fMul a.Z a.Z
  let zb := fMul b.Z b.Z
  let ua := fMul a.X zb
  let h := fSub (b.X * za) ua
  let sa := fMul a.Y (b.Z * zb)
  let r := fSub (b.Y * fMul a.Z za) sa
  if h = 0 then (if r = 0 then a.twice else ptZero) else
  let hh := fMul h h
  let hhh := fMul h hh
  let v := fMul ua hh
  let x := fSub (r * r) (hhh + 2 * v)
  ⟨x, fSub (r * fSub v x) (sa * hhh), fMul h (a.Z * b.Z)⟩

/-- The bits of a number below 2^384, the highest first. -/
def bits384 (n : Nat) : List Bool := (List.range 384).map (fun i => n.testBit (383 - i))

/-- u·a + v·b, bit by bit. -/
def ptMix (u v : Nat) (a b : CurvePt) : CurvePt :=
  let ab := a.plus b
  (List.zip (bits384 u) (bits384 v)).foldl (fun q d => match d with
    | (true, true) => q.twice.plus ab
    | (true, false) => q.twice.plus a
    | (false, true) => q.twice.plus b
    | (false, false) => q.twice) ptZero

/-- The power a^e modulo n. -/
def powMod (n a e : Nat) : Nat := (bits384 e).foldl (fun x d => if d then x * x % n * a % n else x * x % n) 1

/-- A number whose first byte leads. -/
def beNat (bs : List Byte) : Nat := ofLe bs.reverse

/-- A key of 96 bytes is a valid point of the curve. -/
def keyOk (key : List Byte) : Bool :=
  key.length == 96 && onCurve (beNat (slice key 0 48)) (beNat (slice key 48 48))

/-- Does a signature of 96 bytes, r and then s, over a message verify against a key? -/
def ecdsaOk (key msg sig : List Byte) : Bool :=
  let r := beNat (slice sig 0 48)
  let s := beNat (slice sig 48 48)
  if keyOk key = false ∨ sig.length ≠ 96 ∨ r = 0 ∨ orderN ≤ r ∨ s = 0 ∨ orderN ≤ s then false else
  let w := powMod orderN s (orderN - 2)
  let p := ptMix (beNat (sha384 msg) * w % orderN) (r * w % orderN) ptBase
    ⟨beNat (slice key 0 48), beNat (slice key 48 48), 1⟩
  p.Z != 0 && fMul p.X (powMod fieldP (p.Z * p.Z % fieldP) (fieldP - 2)) % orderN == r

end Sys2Proof.Machine
end

