-- ==== Sys2Proof/Machine/Bank.lean ====
section
/-! DEFINITION. What the Hallmark bank holds: the counted settings, their strikes and their values, as the permanent log
and the key rows give them (spec/22_management_hallmark.md, R487, R495), and the signatures that the owner's key verifies. -/

namespace Sys2Proof.Machine
open Sys2Proof

/-! ## Settings (Table — Counted settings) -/

def hmSecurity : Nat := 0
def hmOwnerKey : Nat := 1
def hmFabric : Nat := 2
def hmCap : Nat := 3
def hmSealedOnly : Nat := 4
def hmDebugClose : Nat := 5
def hmPortMap : Nat := 6
def hmRepair : Nat := 7
def hmSigner : Nat := 8

/-- The strike limit of a setting; FIELD_REPAIR's is for each vault. -/
def strikeLimit : Nat → Nat
  | 0 => 64
  | 1 => 4
  | 2 => 16
  | 3 => 8
  | 4 => 1
  | 5 => 1
  | 6 => 4
  | 7 => 48
  | _ => 8

/-- The outcomes of a log entry. -/
def ocStruck : Nat := 0
def ocLimit : Nat := 1
def ocValue : Nat := 2
def ocVoid : Nat := 3

/-- Is the entry a strike of the setting; for FIELD_REPAIR and ASSAY_SIGNER, of the target too? -/
def LogEntry.struckFor (e : LogEntry) (setting target : Nat) : Bool :=
  e.setting == setting && e.outcome == ocStruck && ((setting != hmRepair && setting != hmSigner) || e.target == target)

/-- The strike count of a setting (R495): STRUCK entries, or for keys the key rows used. -/
def Bank.strikes (b : Bank) (setting target : Nat) : Nat :=
  if setting = hmOwnerKey then b.ownerRows.length
  else if setting = hmSigner then b.signerRows.length
  else (b.log.filter (fun e => e.struckFor setting target)).length

/-- The latest STRUCK entry of a setting. -/
def Bank.latest (b : Bank) (setting target : Nat) : Option LogEntry :=
  b.log.reverse.find? (fun e => e.struckFor setting target)

/-- The value of a scalar setting (R487, R495): NEW of its latest STRUCK entry, or its unstruck value. -/
def Bank.value (b : Bank) (setting : Nat) : Nat :=
  match b.latest setting 0 with
  | some e => e.new
  | none => if setting = hmCap then b.factoryCap else if setting = hmPortMap then 0xFFF else 0

/-- The OWNER_KEY in force: the row that the latest STRUCK entry names; none while the device is unclaimed. -/
def Bank.ownerKey (b : Bank) : Option (List Byte) :=
  (b.latest hmOwnerKey 0).bind (fun e => b.ownerRows[e.strike - 1]?)

/-- The hash in a signer slot; an empty or revoked slot holds zeros. -/
def Bank.signer (b : Bank) (slot : Nat) : List Byte :=
  match (b.latest hmSigner slot).bind (fun e => b.signerRows[e.strike - 1]?) with
  | some (_, h) => h
  | none => List.replicate 48 0

/-- The signature of an image or a record verifies against OWNER_KEY; none does while the device is unclaimed. -/
def Bank.ownerSigned (b : Bank) (msg sig : List Byte) : Bool :=
  match b.ownerKey with
  | some k => ecdsaOk k msg sig
  | none => false

end Sys2Proof.Machine
end

