-- ==== Sys2Proof/Machine/Numerics.lean ====
section
/-! DEFINITION. Number formats, rounding and the arithmetic of every engine (spec/12_numerics.md, R280 to R299). A float
is held as its bits; arithmetic is exact, on integers and powers of two, and is rounded once. -/

namespace Sys2Proof.Machine
open Sys2Proof

/-! ## Values -/

/-- What a float's bits mean: NaN, an infinity, or (−1)^neg × m × 2^e. -/
inductive Fv where
  | nan
  | inf (neg : Bool)
  | fin (neg : Bool) (m : Nat) (e : Int)
  deriving DecidableEq, Repr

/-- Decode an IEEE pattern of `eb` exponent and `mb` mantissa bits; `flush` reads a subnormal as a zero of the same
sign (R288). -/
def decodeF (eb mb : Nat) (flush : Bool) (w : Nat) : Fv :=
  let m := w % 2 ^ mb
  let ex := w / 2 ^ mb % 2 ^ eb
  let neg := bitAt w (eb + mb)
  let bias : Int := 2 ^ (eb - 1) - 1
  if ex = 2 ^ eb - 1 then (if m = 0 then .inf neg else .nan)
  else if ex = 0 then (if flush then .fin neg 0 0 else .fin neg m (1 - bias - mb))
  else .fin neg (m + 2 ^ mb) (ex - bias - mb)

/-- FP32, BF16 and FP16 (Table — Formats). -/
def fp32 (w : Nat) : Fv := decodeF 8 23 true w
def bf16 (w : Nat) : Fv := decodeF 8 7 true w
def fp16 (w : Nat) : Fv := decodeF 5 10 true w

/-- E5M2, and E4M3, which has no infinity. -/
def e5m2 (w : Nat) : Fv := decodeF 5 2 false w
def e4m3 (w : Nat) : Fv :=
  if w % 128 = 127 then .nan
  else
    let ex := w / 8 % 16
    if ex = 0 then .fin (bitAt w 7) (w % 8) (-9) else .fin (bitAt w 7) (w % 8 + 8) (ex - 10)

/-- Read an integer code of `n` bits, two's complement (R281). -/
def sext (n w : Nat) : Int := if 2 ^ (n - 1) ≤ w % 2 ^ n then (w % 2 ^ n : Int) - 2 ^ n else (w % 2 ^ n : Int)

/-- The low 32 bits of an integer. -/
def wrap32 (i : Int) : Nat := (i % 2 ^ 32).toNat

/-- The low `n` bits of an integer. -/
def wrapN (n : Nat) (i : Int) : Nat := (i % 2 ^ n).toNat

/-! ## Rounding (R287) -/

/-- Round num / den × 2^e to `p` significant bits, ties to even, with an unbounded exponent: mantissa and exponent. -/
def roundTo (p num den : Nat) (e : Int) : Nat × Int :=
  if num = 0 ∨ den = 0 then (0, 0) else
  let k : Int := (p : Int) - 1 - ((num.log2 : Int) - (den.log2 : Int))
  let scaled (k : Int) : Nat × Nat := if 0 ≤ k then (num * 2 ^ k.toNat, den) else (num, den * 2 ^ (-k).toNat)
  let pick (k : Int) : Bool := let (a, b) := scaled k; decide (2 ^ (p - 1) * b ≤ a) && decide (a < 2 ^ p * b)
  let k := if pick k then k else if pick (k + 1) then k + 1 else k - 1
  let (a, b) := scaled k
  let q := a / b
  let r := a % b
  let q := if b < 2 * r ∨ (2 * r = b ∧ q % 2 = 1) then q + 1 else q
  (q, e - k)

/-- Round num / den × 2^e to an integer, ties to even. -/
def roundInt (num den : Nat) (e : Int) : Nat :=
  let (a, b) := if 0 ≤ e then (num * 2 ^ e.toNat, den) else (num, den * 2 ^ (-e).toNat)
  if b = 0 then 0 else
  let q := a / b
  let r := a % b
  if b < 2 * r ∨ (2 * r = b ∧ q % 2 = 1) then q + 1 else q

/-- The exponent of the leading bit of m × 2^e. -/
def topExp (m : Nat) (e : Int) : Int := e + (m.log2 : Int)

/-- The `mb` bits below the leading bit of m. -/
def fraction (mb m : Nat) : Nat :=
  (if mb ≤ m.log2 then m / 2 ^ (m.log2 - mb) else m * 2 ^ (mb - m.log2)) % 2 ^ mb

/-- The canonical NaN, infinities and sign of FP32. -/
def nan32 : Nat := 0x7FC00000
def inf32 (neg : Bool) : Nat := (if neg then 2 ^ 31 else 0) + 0x7F800000
def zero32 (neg : Bool) : Nat := if neg then 2 ^ 31 else 0
def one32 : Nat := 0x3F800000

/-- FP32 of a value already rounded to 24 bits: infinity above the range, a flushed zero below the smallest normal. -/
def pack32 (neg : Bool) (r : Nat × Int) : Nat :=
  if r.1 = 0 then zero32 neg else
  let ex := topExp r.1 r.2
  if 127 < ex then inf32 neg
  else if ex < -126 then zero32 neg
  else zero32 neg + (ex + 127).toNat * 2 ^ 23 + fraction 23 r.1

/-- RNE32 of (−1)^neg × num / den × 2^e. -/
def rne32 (neg : Bool) (num den : Nat) (e : Int) : Nat := pack32 neg (roundTo 24 num den e)

/-- RNE32 of an integer times a power of two; `z` is the sign of a zero. -/
def rneI (i : Int) (e : Int) (z : Bool) : Nat :=
  if i = 0 then zero32 z else rne32 (decide (i < 0)) i.natAbs 1 e

/-- FP32 of a value, rounded. -/
def toFp32 : Fv → Nat
  | .nan => nan32
  | .inf n => inf32 n
  | .fin n m e => rne32 n m 1 e

/-- Is the pattern a NaN, an infinity, finite? -/
def isNan32 (w : Nat) : Bool := match fp32 w with | .nan => true | _ => false
def isInf32 (w : Nat) : Bool := match fp32 w with | .inf _ => true | _ => false
def isFin32 (w : Nat) : Bool := match fp32 w with | .fin _ _ _ => true | _ => false

/-- FP32 with a subnormal flushed and every NaN canonical (R282, R288). -/
def canon32 (w : Nat) : Nat := toFp32 (fp32 w)

/-! ## Exact sums and FP32 arithmetic (R289) -/

/-- A signed integer times a power of two. -/
structure Ex where
  i : Int
  e : Int
  deriving DecidableEq, Repr

def Ex.add (a b : Ex) : Ex :=
  let e := min a.e b.e
  ⟨a.i * 2 ^ (a.e - e).toNat + b.i * 2 ^ (b.e - e).toNat, e⟩

def Ex.mul (a b : Ex) : Ex := ⟨a.i * b.i, a.e + b.e⟩

/-- The signed value of a finite float. -/
def finEx (n : Bool) (m : Nat) (e : Int) : Ex := ⟨if n then -(m : Int) else m, e⟩

/-- The sum of two values, rounded once. -/
def addFv (a b : Fv) : Nat :=
  match a, b with
  | .nan, _ => nan32
  | _, .nan => nan32
  | .inf x, .inf y => if x = y then inf32 x else nan32
  | .inf x, _ => inf32 x
  | _, .inf y => inf32 y
  | .fin nx mx ex, .fin ny my ey =>
    let t := (finEx nx mx ex).add (finEx ny my ey)
    rneI t.i t.e (nx && ny)

/-- The exact product of two values. -/
def mulFv (a b : Fv) : Fv :=
  match a, b with
  | .nan, _ => .nan
  | _, .nan => .nan
  | .inf x, .inf y => .inf (x != y)
  | .inf x, .fin y m _ => if m = 0 then .nan else .inf (x != y)
  | .fin x m _, .inf y => if m = 0 then .nan else .inf (x != y)
  | .fin x mx ex, .fin y my ey => .fin (x != y) (mx * my) (ex + ey)

/-- Negate. -/
def negFv : Fv → Fv
  | .nan => .nan
  | .inf n => .inf (!n)
  | .fin n m e => .fin (!n) m e

def fadd (a b : Nat) : Nat := addFv (fp32 a) (fp32 b)
def fsub (a b : Nat) : Nat := addFv (fp32 a) (negFv (fp32 b))
def fmul (a b : Nat) : Nat := toFp32 (mulFv (fp32 a) (fp32 b))

/-- a × b + c, rounded once (R330). -/
def ffma (a b c : Nat) : Nat := addFv (mulFv (fp32 a) (fp32 b)) (fp32 c)

/-- a / b, rounded once. -/
def fdiv (a b : Nat) : Nat :=
  match fp32 a, fp32 b with
  | .nan, _ => nan32
  | _, .nan => nan32
  | .inf _, .inf _ => nan32
  | .inf x, .fin y _ _ => inf32 (x != y)
  | .fin x _ _, .inf y => zero32 (x != y)
  | .fin x mx ex, .fin y my ey =>
    if my = 0 then (if mx = 0 then nan32 else inf32 (x != y))
    else if mx = 0 then zero32 (x != y)
    else rne32 (x != y) mx my (ex - ey)

/-- Compare two values that are not NaN: −1, 0, 1; +0 and −0 are equal. -/
def cmpFv (a b : Fv) : Int :=
  match a, b with
  | .inf x, .inf y => if x = y then 0 else if x then -1 else 1
  | .inf x, _ => if x then -1 else 1
  | _, .inf y => if y then 1 else -1
  | .fin nx mx ex, .fin ny my ey =>
    let t := (finEx nx mx ex).add ⟨-(finEx ny my ey).i, ey⟩
    if t.i < 0 then -1 else if t.i = 0 then 0 else 1
  | _, _ => 0

/-- The sign of a value. -/
def signFv : Fv → Bool
  | .nan => false
  | .inf n => n
  | .fin n _ _ => n

/-- FMAX and FMIN: canonical NaN when either operand is NaN, and −0 below +0 (R330). -/
def fmax (a b : Nat) : Nat :=
  match fp32 a, fp32 b with
  | .nan, _ => nan32
  | _, .nan => nan32
  | x, y =>
    let c := cmpFv x y
    if c < 0 ∨ (c = 0 ∧ signFv x = true) then toFp32 y else toFp32 x

def fmin (a b : Nat) : Nat :=
  match fp32 a, fp32 b with
  | .nan, _ => nan32
  | _, .nan => nan32
  | x, y =>
    let c := cmpFv x y
    if 0 < c ∨ (c = 0 ∧ signFv y = true) then toFp32 y else toFp32 x

/-! ## Roots and transcendental functions (R331) -/

/-- Floor of the square root, from bit `b` down. -/
def isqrtFrom (n : Nat) : Nat → Nat → Nat
  | 0, r => r
  | b + 1, r => let r' := r + 2 ^ b; isqrtFrom n b (if r' * r' ≤ n then r' else r)

def isqrt (n : Nat) : Nat := isqrtFrom n (n.log2 / 2 + 1) 0

/-- RNE32 of the square root of a finite value that is not negative. A value that is no exact square is taken half an
integer above its floor at 60 bits, which rounds as the exact root does. -/
def fsqrt (a : Nat) : Nat :=
  match fp32 a with
  | .nan => nan32
  | .inf n => if n then nan32 else inf32 false
  | .fin n m e =>
    if m = 0 then zero32 n else if n then nan32 else
    let (m1, e1) := if e % 2 = 0 then (m, e) else (2 * m, e - 1)
    let big := m1 * 2 ^ 80
    let r := isqrt big
    if r * r = big then rne32 false r 1 (e1 / 2 - 40) else rne32 false (2 * r + 1) 2 (e1 / 2 - 40)

/-- RNE32 of 1 / a. -/
def frcp (a : Nat) : Nat := fdiv one32 a

/-- RNE32 of 1 / √a. -/
def frsq (a : Nat) : Nat :=
  match fp32 a with
  | .nan => nan32
  | .inf n => if n then nan32 else zero32 false
  | .fin n m e =>
    if m = 0 then inf32 n else if n then nan32 else
    let (m1, e1) := if e % 2 = 0 then (m, e) else (2 * m, e - 1)
    let r := isqrt (2 ^ 140 / m1)
    if r * r * m1 = 2 ^ 140 then rne32 false r 1 (-70 - e1 / 2) else rne32 false (2 * r + 1) 2 (-70 - e1 / 2)

/-- A closed interval of fixed-point numbers. -/
structure Iv where
  lo : Nat
  hi : Nat

/-- Terms of the exponential series of an interval of numbers that are not negative, at scale 2^P: term and sum so far,
bounded below and above. -/
def expTerms (P : Nat) (x : Iv) : Nat → Nat → Iv → Iv → Iv
  | 0, _, t, sum => ⟨sum.lo, sum.hi + 2 * t.hi + 2⟩
  | fuel + 1, n, t, sum =>
    let t' : Iv := ⟨t.lo * x.lo / (2 ^ P * n), t.hi * x.hi / (2 ^ P * n) + 1⟩
    expTerms P x fuel (n + 1) t' ⟨sum.lo + t'.lo, sum.hi + t'.hi⟩

/-- The exponential of an interval: `N` terms, where N is at least twice the number, so that the tail is at most twice
the last term. -/
def expIv (P N : Nat) (x : Iv) : Iv := expTerms P x N 1 ⟨2 ^ P, 2 ^ P⟩ ⟨2 ^ P, 2 ^ P⟩

/-- Terms of the series of artanh(a / b), for a / b at most 1/3. -/
def artanhTerms (a b : Nat) : Nat → Nat → Iv → Iv → Iv
  | 0, _, t, sum => ⟨sum.lo, sum.hi + t.hi + 1⟩
  | fuel + 1, k, t, sum =>
    let sum' : Iv := ⟨sum.lo + t.lo / (2 * k + 1), sum.hi + t.hi / (2 * k + 1) + 1⟩
    artanhTerms a b fuel (k + 1) ⟨t.lo * (a * a) / (b * b), t.hi * (a * a) / (b * b) + 1⟩ sum'

/-- artanh(a / b) at scale 2^P. -/
def artanhIv (P a b : Nat) : Iv :=
  artanhTerms a b P 0 ⟨2 ^ P * a / b, 2 ^ P * a / b + 1⟩ ⟨0, 0⟩

/-- ln 2 = 2 artanh(1/3). -/
def ln2Iv (P : Nat) : Iv := let t := artanhIv P 1 3; ⟨2 * t.lo, 2 * t.hi⟩

/-- Round an interval once its two ends round alike; each precision is tried in turn. -/
def settle (f : Nat → Nat × Nat) : List Nat → Nat
  | [] => 0
  | [P] => (f P).1
  | P :: t => let (a, b) := f P; if a = b then a else settle f t

/-- The precisions that the searches try. -/
def precisions : List Nat := [64, 128, 256, 640]

/-- RNE32 of 2^a. -/
def fexp2 (a : Nat) : Nat :=
  match fp32 a with
  | .nan => nan32
  | .inf n => if n then zero32 false else inf32 false
  | .fin n m e =>
    if m = 0 then one32 else
    let big : Bool := decide (7 ≤ topExp m e)
    if big && !n then inf32 false
    else if decide (8 ≤ topExp m e) then zero32 false else
    -- |a| < 256: a = k + f with 0 ≤ f < 1, f = num / 2^d
    let d := (-e).toNat
    let mag : Int := if 0 ≤ e then m * 2 ^ e.toNat else m
    let v : Int := if n then -mag else mag
    let k := v / 2 ^ d
    let num := (v % 2 ^ d).toNat
    if num = 0 then rne32 false 1 1 k else
    settle (fun P =>
      let l := ln2Iv P
      let r := expIv P (P + 8) ⟨l.lo * num / 2 ^ d, l.hi * num / 2 ^ d + 1⟩
      (rne32 false r.lo 1 (k - P), rne32 false r.hi 1 (k - P))) precisions

/-- RNE32 of log2 a. -/
def flog2 (a : Nat) : Nat :=
  match fp32 a with
  | .nan => nan32
  | .inf n => if n then nan32 else inf32 false
  | .fin n m e =>
    if m = 0 then inf32 true else if n then nan32 else
    let k := topExp m e
    let b := 2 ^ m.log2
    if m = b then rneI k 0 false else
    settle (fun P =>
      -- log2 a = k + 2 artanh((m − b) / (m + b)) / ln 2
      let l := ln2Iv P
      let t := artanhIv P (m - b) (m + b)
      let lo := 2 ^ P * (2 * t.lo) / l.hi
      let hi := 2 ^ P * (2 * t.hi) / l.lo + 1
      (rneI (k * 2 ^ P + lo) (-P) false, rneI (k * 2 ^ P + hi) (-P) false)) precisions

/-- e^(num / 2^d) as an interval, for an exponent below 128. -/
def expOf (P num d : Nat) : Iv := expIv P (P + 300) ⟨2 ^ P * num / 2 ^ d, 2 ^ P * num / 2 ^ d + 1⟩

/-- RNE32 of tanh a. Beyond 16 it is 1. -/
def ftanh (a : Nat) : Nat :=
  match fp32 a with
  | .nan => nan32
  | .inf n => rne32 n 1 1 0
  | .fin n m e =>
    if m = 0 then zero32 n
    else if decide (4 ≤ topExp m e) then rne32 n 1 1 0 else
    let d := (-e).toNat
    let num := if 0 ≤ e then 2 * m * 2 ^ e.toNat else 2 * m
    settle (fun P =>
      let x := expOf P num d
      (rne32 n (x.lo - 2 ^ P) (x.lo + 2 ^ P) 0, rne32 n (x.hi - 2 ^ P) (x.hi + 2 ^ P) 0)) precisions

/-- RNE32 of 1 / (1 + e^−a). Beyond 64 it is 1; below −128 it is flushed. -/
def fsigm (a : Nat) : Nat :=
  match fp32 a with
  | .nan => nan32
  | .inf n => if n then zero32 false else one32
  | .fin n m e =>
    if m = 0 then rne32 false 1 1 (-1)
    else if decide (6 ≤ topExp m e) && !n then one32
    else if decide (7 ≤ topExp m e) then zero32 false else
    let d := (-e).toNat
    let num := if 0 ≤ e then m * 2 ^ e.toNat else m
    settle (fun P =>
      let x := expOf P num d
      if n then (rne32 false (2 ^ P) (2 ^ P + x.hi) 0, rne32 false (2 ^ P) (2 ^ P + x.lo) 0)
      else (rne32 false x.lo (2 ^ P + x.lo) 0, rne32 false x.hi (2 ^ P + x.hi) 0)) precisions

/-! ## Conversions (R290, R291) -/

/-- A converted value: bits, and whether it saturated or was invalid. -/
structure Conv where
  bits : Nat
  sat : Bool := false
  inv : Bool := false
  deriving DecidableEq, Repr

/-- Narrow a value to BF16. -/
def toBf16 (v : Fv) : Conv :=
  match v with
  | .nan => { bits := 0x7FC0, inv := true }
  | .inf n => { bits := (if n then 2 ^ 15 else 0) + 0x7F7F, sat := true }
  | .fin n m e =>
    let s := if n then 2 ^ 15 else 0
    let r := roundTo 8 m 1 e
    if r.1 = 0 then { bits := s } else
    let ex := topExp r.1 r.2
    if 127 < ex then { bits := s + 0x7F7F, sat := true }
    else if ex < -126 then { bits := s }
    else { bits := s + (ex + 127).toNat * 2 ^ 7 + fraction 7 r.1 }

/-- Narrow a value to an 8-bit float of `mb` mantissa bits and bias `b`, whose largest finite code is `top` and whose
smallest normal exponent is 1 − b. A value below it takes the nearest subnormal code (R288). -/
def toFp8 (mb b top : Nat) (nanCode : Nat) (v : Fv) : Conv :=
  match v with
  | .nan => { bits := nanCode, inv := true }
  | .inf n => { bits := (if n then 128 else 0) + top, sat := true }
  | .fin n m e =>
    let s := if n then 128 else 0
    let r := roundTo (mb + 1) m 1 e
    if r.1 = 0 then { bits := s } else
    let ex := topExp r.1 r.2
    if ex < 1 - (b : Int) then { bits := s + roundInt m 1 (e + b + mb - 1) }
    else
      let code := (ex + b).toNat * 2 ^ mb + fraction mb r.1
      if top < code then { bits := s + top, sat := true } else { bits := s + code }

def toE4m3 (v : Fv) : Conv := toFp8 3 7 0x7E 0x7F v
def toE5m2 (v : Fv) : Conv := toFp8 2 15 0x7B 0x7E v

/-- int32 to FP32. -/
def cvtif (w : Nat) : Nat := rneI (sext 32 w) 0 false

/-- A signed integer nearest to a finite value. -/
def fvInt (n : Bool) (m : Nat) (e : Int) : Int := let k : Int := roundInt m 1 e; if n then -k else k

/-- FP32 to int32: half to even, clamped, NaN gives 0. -/
def cvtfi (w : Nat) : Conv :=
  match fp32 w with
  | .nan => { bits := 0, inv := true }
  | .inf n => { bits := if n then 2 ^ 31 else 2 ^ 31 - 1, sat := true }
  | .fin n m e =>
    if decide (40 < topExp m e) && m != 0 then { bits := if n then 2 ^ 31 else 2 ^ 31 - 1, sat := true } else
    let i := fvInt n m e
    if i < -2 ^ 31 then { bits := 2 ^ 31, sat := true }
    else if 2 ^ 31 - 1 < i then { bits := 2 ^ 31 - 1, sat := true }
    else { bits := wrap32 i }

/-- The quantiser's last step: round q to an integer and clamp it to ±lim (R292). The code is an int32. -/
def quantFin (q lim : Nat) : Conv :=
  match fp32 q with
  | .nan => { bits := 0, inv := true }
  | .inf n => { bits := wrap32 (if n then -(lim : Int) else lim), sat := true }
  | .fin n m e =>
    if decide (20 < topExp m e) && m != 0 then { bits := wrap32 (if n then -(lim : Int) else lim), sat := true } else
    let i := fvInt n m e
    if i < -(lim : Int) then { bits := wrap32 (-(lim : Int)), sat := true }
    else if (lim : Int) < i then { bits := lim, sat := true }
    else { bits := wrap32 i }

/-- t × 2^k, formed exactly and rounded once. -/
def scaleExp (t : Nat) (k : Int) : Nat :=
  match fp32 t with
  | .nan => nan32
  | .inf n => inf32 n
  | .fin n m e => rne32 n m 1 (e + k)

/-- Quantise with an FP32 factor, or with a shift (R292). -/
def quantF (t f lim : Nat) : Conv := quantFin (fdiv t f) lim
def quantS (t : Nat) (k : Int) (lim : Nat) : Conv := quantFin (scaleExp t (-k)) lim

/-- A shift byte read at run time: bits [5:0] as a signed 6-bit value (R286). -/
def shiftOf (b : Nat) : Int := sext 6 b

/-! ## Element formats -/

/-- Bits of one element: Q8, Q4, E4M3, E5M2, BF16 as the table record and the Anvil descriptor list them. -/
inductive EFmt where
  | q8 | q4 | bf16 | e4m3 | e5m2
  deriving DecidableEq, Repr

def EFmt.width : EFmt → Nat
  | .q8 => 8 | .q4 => 4 | .bf16 => 16 | .e4m3 => 8 | .e5m2 => 8

/-- Element `j` of packed bytes; in Q4 the even element is the low nibble (R231). -/
def elemAt (f : EFmt) (bs : List Byte) (j : Nat) : Nat :=
  match f with
  | .q4 => numAt bs (j / 2) 1 / 16 ^ (j % 2) % 16
  | .bf16 => numAt bs (2 * j) 2
  | _ => numAt bs j 1

/-- Is the format an integer code? -/
def EFmt.isCode : EFmt → Bool
  | .q8 | .q4 => true
  | _ => false

/-- The value of an element. -/
def EFmt.val (f : EFmt) (w : Nat) : Fv :=
  match f with
  | .q8 => let i := sext 8 w; .fin (decide (i < 0)) i.natAbs 0
  | .q4 => let i := sext 4 w; .fin (decide (i < 0)) i.natAbs 0
  | .bf16 => Machine.bf16 w
  | .e4m3 => Machine.e4m3 w
  | .e5m2 => Machine.e5m2 w

/-! ## CRC-32C -/

/-- One bit of the reflected Castagnoli polynomial. -/
def crcBit (c : Nat) : Nat := if c % 2 = 1 then Nat.xor (c / 2) 0x82F63B78 else c / 2

/-- One byte. -/
def crcByte (c b : Nat) : Nat :=
  crcBit (crcBit (crcBit (crcBit (crcBit (crcBit (crcBit (crcBit (Nat.xor c b))))))))

/-- CRC-32C of a byte string. -/
def crc32c (bs : List Byte) : Nat := Nat.xor (bs.foldl (fun c b => crcByte c b.toNat) 0xFFFFFFFF) 0xFFFFFFFF

end Sys2Proof.Machine
end

