-- ==== Sys2Proof/Machine/Runs.lean ====
section
/-! DEFINITION. Runs: their lode, their berths and their end (spec/05_host_objects_fences.md, spec/06_staithe.md,
spec/08_plans_lodes.md). -/

namespace Sys2Proof.Machine
open Sys2Proof

/-! ## Lodes and steps -/

/-- The plan in force of an owner. -/
def State.planOf (s : State) (o : Nat) : Option Plan := SMap.get none s.plans o

/-- A lode of a plan. -/
def Plan.lode (p : Plan) (n : Nat) : Option Lode := p.lodes[n]?

/-- A lode of the plan in force of an owner. -/
def State.lodeOf (s : State) (o n : Nat) : Option Lode := (s.planOf o).bind (fun p => p.lode n)

/-- The steps of a lode. -/
def Plan.stepsOf (p : Plan) (l : Lode) : List PStep := (p.steps.drop l.firstStep).take l.stepCount

/-- A run that has not ended, by number. -/
def State.run? (s : State) (id : Nat) : Option Run := s.runs.find? (fun r => r.id == id)

/-- Replace a run's record. -/
def State.setRun (s : State) (r : Run) : State :=
  { s with runs := s.runs.map (fun r' => if r'.id = r.id then r else r') }

/-- The plan that a run follows: the one it was admitted under, else the plan in force. -/
def State.runPlan (s : State) (r : Run) : Option Plan := match r.under with | some p => some p | none => s.planOf r.owner

/-- The lode of a run. -/
def State.runLode (s : State) (r : Run) : Option Lode := (s.runPlan r).bind (fun p => p.lode r.lode)

/-- The steps of a run's lode. -/
def State.stepsOf (s : State) (r : Run) : List PStep :=
  match s.runPlan r with
  | none => []
  | some p => match p.lode r.lode with
    | none => []
    | some l => p.stepsOf l

/-- Does the lode book a Solder lane, 0x110 to 0x117 (R258)? -/
def Plan.updateLode (p : Plan) (l : Lode) : Bool :=
  (p.stepsOf l).any (fun x => decide (0x110 ≤ x.lane ∧ x.lane < 0x118))

/-- Is the run an update run? -/
def State.isUpdate (s : State) (r : Run) : Bool :=
  match s.runPlan r, s.runLode r with
  | some p, some l => p.updateLode l
  | _, _ => false

/-- Change a run's record. -/
def State.modRun (s : State) (id : Nat) (f : Run → Run) : State :=
  { s with runs := s.runs.map (fun r => if r.id = id then f r else r) }

/-- One step of a run. -/
def State.stepOf (s : State) (r : Run) (i : Nat) : Option PStep := (s.stepsOf r)[i]?

/-- Set the state of step `i` of a run. -/
def Run.setStep (r : Run) (i : Nat) (x : StepSt) : Run :=
  { r with steps := r.steps.mapIdx (fun j y => if j = i then x else y) }

/-! ## Berths (spec/06_staithe.md) -/

/-- A berth reference of a run block (Table — Berth reference). -/
structure BerthRef where
  staithe : Nat
  berth : Nat
  len : Nat
  seq : Nat
  deriving DecidableEq, Repr

/-- Decode a berth reference. -/
def berthRef (w : Nat) : BerthRef :=
  { berth := bitsOf w 0 18, staithe := bitsOf w 20 4, len := bitsOf w 24 22, seq := bitsOf w 48 16 }

/-- Word `i` of a run block. -/
def Run.word (r : Run) (i : Nat) : Nat := r.block.getD i 0

/-- NO_INPUT, NO_OUTPUT and OUT_CHK (Table — Run block). -/
def Run.noInput (r : Run) : Bool := bitAt (r.word 0) 16
def Run.noOutput (r : Run) : Bool := bitAt (r.word 0) 17
def Run.outChk (r : Run) : Bool := bitAt (r.word 0) 18

/-- The input and output references of a run. -/
def Run.inRef (r : Run) : BerthRef := berthRef (r.word 1)
def Run.outRef (r : Run) : BerthRef := berthRef (r.word 2)

/-- Bytes of one berth of a Staithe (R111). -/
def State.berthSize (s : State) (o n : Nat) : Nat := 4096 * 2 ^ s.rdi F.STH_CFG_CLASS o n

/-- The bus address of a berth (R111). -/
def State.berthAddr (s : State) (o : Nat) (b : BerthRef) : Nat :=
  s.sthBase o b.staithe + b.berth * s.berthSize o b.staithe

/-- The OWNER codes of a berth header (R112). -/
def ownHost : Nat := 0
def ownDeviceBusy : Nat := 2
def ownRetired : Nat := 3

/-- Write word 0 of a berth header: OWNER, SEQ and LENGTH (R112), as one 8-byte posted write. -/
def State.header0 (s : State) (o : Nat) (b : BerthRef) (own len : Nat) : State :=
  if s.bme o then s.hostWrite o (s.berthAddr o b) (leBytes 8 (own + b.seq * 2 ^ 16 + len * 2 ^ 32)) else s

/-- Does a run of the owner hold this berth (R116)? -/
def State.berthHeld (s : State) (o : Nat) (b : BerthRef) : Bool :=
  s.returning.any (fun x => x.owner == o && x.staithe == b.staithe && x.berth == b.berth) ||
  s.runs.any (fun r => r.owner == o &&
    ((r.inHeld && r.inRef.staithe == b.staithe && r.inRef.berth == b.berth) ||
     (r.outHeld && r.outRef.staithe == b.staithe && r.outRef.berth == b.berth)))

/-- Return the berths that a failed run still holds (R121): the input as HOST, once the staging read under way has
completed, and the output as RETIRED with LENGTH 0. The LENGTH in the input's header is not stated; it is a free value
(notes/assumptions/10.md). -/
def State.returnBerths (s : State) (r : Run) : State :=
  let s1 := if r.inHeld then
      let (v, t) := s.fresh
      if r.staging = .reading then
        { t with returning := t.returning ++ [{ run := r.id, owner := r.owner, staithe := r.inRef.staithe
                                                berth := r.inRef.berth, seq := r.inRef.seq, len := low32 v }] }
      else t.header0 r.owner r.inRef ownHost (low32 v)
    else s
  if r.outHeld then s1.header0 r.owner r.outRef ownRetired 0 else s1

/-- The staging read of a run that has failed completes: its input berth returns (R121). -/
def State.berthReturns (s : State) (id : Nat) : State :=
  match s.returning.find? (fun x => x.run == id) with
  | some x => State.header0 { s with returning := s.returning.filter (fun y => y.run != id) } x.owner
      { staithe := x.staithe, berth := x.berth, len := 0, seq := x.seq } ownHost x.len
  | none => s

/-! ## The end of a run -/

/-- Tiles of a run still queued are discarded and counted (R311). -/
def State.dropTiles (s : State) (id : Nat) : State :=
  (List.range 8).foldl (fun t a =>
    let q := SMap.get [] t.tiles a
    let keep := q.filter (fun x => x.run != id)
    if keep.length = q.length then t else
      ({ t with tiles := SMap.put [] t.tiles a keep }).bump F.AV_QUEUE_DISCARDED a (q.length - keep.length)) s

/-- Pending faults that no run waits on any longer stop being pending (R148). -/
def State.leaveFaults (s : State) (id : Nat) : State :=
  let fs := s.faults.map (fun f => { f with runs := f.runs.filter (· != id) })
  { s with faults := fs.filter (fun f => !f.runs.isEmpty) }

/-- When the last admitted run of a context in RESETTING has ended, the CONTEXT reset finishes (R89): the counts of its
queues clear, GEN advances and STATE returns to DISABLED. -/
def State.finishCtxReset (s : State) (c : Nat) : State :=
  if s.rd F.CTX_STATUS_STATE c = 2 ∧ s.runs.all (fun r => r.ctx != c) = true then
    let s1 := (List.range 1024).foldl (fun t q =>
      if t.rd F.Q_CFG_CTX q = c then
        ((t.wr F.Q_STATUS_TORN q 0).wr F.Q_STATUS_REARM_IGNORED q 0).wr F.Q_STATUS_DROPPED q 0
      else t) s
    ((s1.bump F.CTX_STATUS_GEN c 1).wr F.CTX_STATUS_STATE c 0).wr F.CTX_CFG_ENABLE c 0
  else s

/-- The TDISP messages of the PCI Express base specification that the part answers, by their response codes; protocol
number 4 of `Out.reply` (R81, notes/assumptions/18.md). -/
def State.tdispReply (s : State) (code p : Nat) (data : List Nat) : State := s.emit (.reply 4 code (p :: data))

/-- Does an entry translate into the extents or Mere units of polder p? -/
def State.entInto (s : State) (p : Nat) (e : Ent) : Bool :=
  match e.res with
  | .leaf 0 addr _ => (List.range (ceilDiv (addr % 2 ^ 21 + e.pages * 4096) (2 ^ 21))).any (fun i =>
      s.ownerOf .extent (addr / 2 ^ 21 + i) == p)
  | .leaf 1 addr _ => (List.range (ceilDiv (addr % 2 ^ 20 + e.pages * 4096) (2 ^ 20))).any (fun i =>
      s.mereHolder (addr / 2 ^ 20 + i) == p)
  | _ => false

/-- Every PF translation into polder p is invalidated: an entry of a PAGEABLE object reads BAD_TARGET from then on, and
a PINNED object that had one is BROKEN (R75, R82). -/
def State.cutPf (s : State) (p : Nat) : State :=
  { s with mobs := s.mobs.map (fun m =>
      if m.owner = 16 ∧ m.ents.any (s.entInto p) = true then
        if m.pinned then { m with broken := true, ents := m.ents.filter (fun e => !s.entInto p e) }
        else { m with ents := m.ents.map (fun e => if s.entInto p e then { e with res := .badTarget } else e) }
      else m) }

/-- The lock of polder p completes once no PF run holds a translation into the polder any longer: the PF's translations
are invalid and TDISP reads CONFIG_LOCKED (R82). -/
def State.finishLock (s : State) (p : Nat) : State :=
  let a := SMap.get polderAux0 s.polders p
  match a.lockWait with
  | some [] => (State.wr { s.cutPf p with polders := SMap.put polderAux0 s.polders p { a with lockWait := none } }
      F.PLD_STATE_TDISP p 1).tdispReply 0x03 p []
  | _ => s

/-- A run that has ended no longer holds up any TDISP lock. -/
def State.leaveLocks (s : State) (id : Nat) : State :=
  (List.range 16).foldl (fun t p =>
    let a := SMap.get polderAux0 t.polders p
    match a.lockWait with
    | none => t
    | some l =>
      let a' : PolderAux := { a with lockWait := some (l.filter (· != id)) }
      State.finishLock { t with polders := SMap.put polderAux0 t.polders p a' } p) s

/-- The Anvils and Planishers that worked for a run are idle, and its scale registers are dropped (R304). -/
def State.idleEngines (s : State) (id : Nat) : State :=
  { s with
    avJobs := s.avJobs.filter (fun e => match e.2 with | some j => j.run != id | none => true)
    avScale := s.avScale.filter (fun e => match e.2 with | some j => j.run != id | none => true)
    pls := s.pls.filter (fun e => match e.2 with | some j => j.run != id | none => true) }

/-- Take a run out: its instance, staging space, faults, tiles and outstanding requests go, and its fence signals. -/
def State.finishRun (s : State) (r : Run) (e : Option Err) : State :=
  let s1 := { s with runs := s.runs.filter (fun r' => r'.id != r.id)
                     requests := s.requests.filter (fun q => q.run != r.id) }
  let s2 := ((s1.leaveFaults r.id).dropTiles r.id).idleEngines r.id
  ((s2.signal r.fence e).finishCtxReset r.ctx).leaveLocks r.id

/-- What a failed update run leaves in `EP_LAST_FAIL`: its fence and the entries that it applied (R272). -/
def State.lastFail (s : State) (r : Run) : State :=
  if s.isUpdate r then
    ((s.wr F.EP_LAST_FAIL_FENCE r.owner (s.fenceView r.fence)).wr F.EP_LAST_FAIL_APPLIED r.owner
      (r.data.map (·.applied)).sum).wr F.EP_LAST_FAIL_VALID r.owner 1
  else s

/-- The ticks that a failed run booked stay idle until its planned end (R97). -/
def State.keepIdle (s : State) (r : Run) : State :=
  if r.phase = .queued then s else { s with ended := s.ended ++ [r] }

/-- A run fails: its berths return, then its fence signals with the code (R97, R121). -/
def State.failRun (s : State) (id : Nat) (e : Err) : State :=
  match s.run? id with
  | none => s
  | some r => (((s.lastFail r).returnBerths r).finishRun r (some e)).keepIdle r

/-- A run completes without error. -/
def State.completeRun (s : State) (id : Nat) : State :=
  match s.run? id with
  | none => s
  | some r => s.finishRun r none

/-- Fail every run that satisfies a test, in acceptance order. -/
def State.failAll (s : State) (q : Run → Bool) (e : Err) : State :=
  (s.runs.filter q).foldl (fun t r => t.failRun r.id e) s

/-- Mark every run that satisfies a test to fail at its next step boundary. -/
def State.stopAll (s : State) (q : Run → Bool) (e : Err) : State :=
  { s with runs := s.runs.map (fun r => if q r then { r with stop := some ((r.stop.map (·.lower e)).getD e) } else r) }

/-- Drop the berth holds of an owner's runs without a header write (R121, last rows but one). -/
def State.dropHolds (s : State) (o : Nat) : State :=
  { s with
    runs := s.runs.map (fun r => if r.owner = o then { r with inHeld := false, outHeld := false } else r)
    returning := s.returning.filter (fun x => x.owner != o) }

end Sys2Proof.Machine
end

