-- ==== Sys2Proof/Machine/Health.lean ====
section
/-! DEFINITION. The health of the part: faults, replace causes, engine marks and CPER records
(spec/19_background_integrity.md, spec/20_health_patina.md, R36, R537). -/

namespace Sys2Proof.Machine
open Sys2Proof

/-! ## Engines, by their lane (R155, Table — Lanes) -/

/-- Is the lane an engine lane, or the vault lane of a Dredge? -/
def isEngineLane (l : Nat) : Bool := decide (l < 0x11E) || (decide (0x120 ≤ l) && decide (l < 0x130))

/-- The block type code of the engine of a lane (Table — Block type codes). -/
def laneBlock (l : Nat) : Nat :=
  if l < 0x100 then 0x0A else if l < 0x108 then 0x0E else if l < 0x110 then 0x0F else if l < 0x118 then 0x0D
  else if l < 0x11A then 0x0C else if l < 0x11C then 0x11 else if l < 0x11E then 0x10 else 0x12

/-- The instance of the engine of a lane: the vault for a Dredge. -/
def laneInst (l : Nat) : Nat :=
  if l < 0x100 then l else if l < 0x118 then l % 8 else if l < 0x11E then l % 2 else l - 0x120

/-- The lane of an engine given by block type and instance, when it exists. -/
def engineLane (block inst : Nat) : Option Nat :=
  if block = 0x0A ∧ inst < 256 then some inst
  else if block = 0x0E ∧ inst < 8 then some (0x100 + inst)
  else if block = 0x0F ∧ inst < 8 then some (0x108 + inst)
  else if block = 0x0D ∧ inst < 8 then some (0x110 + inst)
  else if block = 0x0C ∧ inst < 2 then some (0x118 + inst)
  else if block = 0x11 ∧ inst < 2 then some (0x11A + inst)
  else if block = 0x10 ∧ inst < 2 then some (0x11C + inst)
  else if block = 0x12 ∧ inst < 16 then some (0x120 + inst)
  else none

/-- The index of an engine in `ASY_ENGi`, which follows the bit order of `JCT_BENCHED`. -/
def asyIdx (l : Nat) : Nat := if l < 0x120 then l - 0x100 else l - 0x120 + 30

/-- Read and write a field of the engine's Assay register: `ASY_DRGv` for a Dredge, else `ASY_ENGi`. -/
def State.asy (s : State) (fe fd : Fld) (l : Nat) : Nat :=
  if l < 0x100 then s.rdi fd (l / 32) (l % 32) else s.rdi fe 0 (asyIdx l)

def State.setAsy (s : State) (fe fd : Fld) (l v : Nat) : State :=
  if l < 0x100 then s.wri fd (l / 32) (l % 32) v else s.wri fe 0 (asyIdx l) v

/-- The health of an engine: 0 HEALTHY, 1 SUSPECT, 2 BENCHED (R440). -/
def State.health (s : State) (l : Nat) : Nat := s.asy F.ASY_ENG_HEALTH F.ASY_DRG_HEALTH l
def State.setHealth (s : State) (l v : Nat) : State := s.setAsy F.ASY_ENG_HEALTH F.ASY_DRG_HEALTH l v
def State.setQueued (s : State) (l v : Nat) : State := s.setAsy F.ASY_ENG_QUEUED F.ASY_DRG_QUEUED l v
def State.setMarks (s : State) (l v : Nat) : State := s.setAsy F.ASY_ENG_MARKS F.ASY_DRG_MARKS l (min v 3)
def State.setLastTick (s : State) (l : Nat) : State :=
  s.setAsy F.ASY_ENG_LAST_TICK F.ASY_DRG_LAST_TICK l (low32 s.tick)

/-- Is the engine of a lane benched? -/
def State.benched (s : State) (l : Nat) : Bool := isEngineLane l && s.health l == 2

/-- Does a step book the lane? -/
def PStep.books (p : PStep) (l : Nat) : Bool := decide (p.lane ≤ l) && decide (l < p.lane + p.laneCount)

/-- Does the plan need the engine of a lane (R443)? -/
def Plan.needs (p : Plan) (l : Nat) : Bool := p.steps.any (fun x => x.books l)

/-! ## The health junction (R31, R537) -/

/-- `JCT_HEALTH` as it reads, with its effective fields (R31). -/
def State.jctHealth (s : State) : Nat :=
  let rd := s.rd F.JCT_HEALTH_REPLACE_DATA 0
  let rm := s.rd F.JCT_HEALTH_REPLACE_MGC 0
  let fd := s.rd F.JCT_HEALTH_FAULT_DATA 0
  let fm := s.rd F.JCT_HEALTH_FAULT_MGC 0
  rd + 2 * rm + 4 * max rd rm + 16 * fd + 32 * fm + 64 * max fd fm

/-- Send a PlatformEventMessage for a state sensor, when events are enabled (R460, R481). -/
def State.platformEvent (s : State) (sensor old new : Nat) : State :=
  match s.eventReceiver with
  | none => s
  | some eid => s.emit (.reply 2 0x0A [eid, sensor, old, new])

/-- The state of the fault sensor 0x0023: 1 normal, 2 fault, by `JCT_HEALTH.FAULT_EFF` (Table — Sensors). -/
def State.faultSensor (s : State) : Nat := 1 + s.jctHealth / 64 % 2

/-- A change of a sensor's state sends its event (R481). -/
def State.sensorEvent (s : State) (sensor old new : Nat) : State :=
  if new = old then s else s.platformEvent sensor old new

/-- Write FAULT_DATA or FAULT_MGC; each change raises EV_FAULT to the PF ring (R537), and a change of FAULT_EFF is the
fault sensor's (R481). -/
def State.setFault (s : State) (f : Fld) (v : Nat) : State :=
  if s.rd f 0 = v then s else
  let s1 := s.wr f 0 v
  (s1.raise 16 evFault s1.jctHealth 0).sensorEvent 0x0023 s.faultSensor s1.faultSensor

/-! ## CPER records (R452, R453) -/

/-- The GUID {7a3c1e58-2b94-4d61-9f0e-5c8a13d7b246} in the byte order of a UEFI GUID. -/
def mendotricGuid : List Byte :=
  leBytes 4 0x7a3c1e58 ++ leBytes 2 0x2b94 ++ leBytes 2 0x4d61 ++
    [0x9f, 0x0e, 0x5c, 0x8a, 0x13, 0xd7, 0xb2, 0x46]

/-- A CPER record around a section body (Table — CPER fields); the order of the header fields is that of appendix N of
the UEFI specification (notes/assumptions/11.md). -/
def cperBytes (severity id : Nat) (body : List Byte) : List Byte :=
  leBytes 4 0x52455043 ++ leBytes 2 0x0101 ++ leBytes 4 0xFFFFFFFF ++ leBytes 2 1 ++ leBytes 4 severity ++
  leBytes 4 0 ++ leBytes 4 256 ++ leBytes 8 0 ++ leBytes 32 0 ++ mendotricGuid ++ mendotricGuid ++ leBytes 8 id ++
  leBytes 4 0 ++ leBytes 8 0 ++ leBytes 12 0 ++
  leBytes 4 200 ++ leBytes 4 56 ++ leBytes 4 0x0100 ++ leBytes 4 1 ++ mendotricGuid ++ leBytes 16 0 ++
  leBytes 4 severity ++ [0x49, 0x53, 0x4F, 0x56, 0x4F, 0x4E, 0x45, 0x52] ++ leBytes 12 0 ++ body

/-- The CPER ring. -/
def cperRing : RingRegs :=
  { staithe := F.ASY_CPER_BASE_STAITHE, offset := F.ASY_CPER_BASE_OFFSET, en := F.ASY_CPER_CFG_EN,
    log2 := F.ASY_CPER_CFG_LOG2_SIZE, vec := F.ASY_CPER_CFG_VEC, head := F.ASY_CPER_HEAD_HEAD,
    tail := F.ASY_CPER_TAIL_TAIL, lost := F.ASY_CPER_TAIL_LOST }

/-- Write a CPER record; the ring has no PHASE bit (R453). -/
def State.cper (s : State) (severity : Nat) (body : List Byte) : State :=
  { s.ringPut cperRing 20 16 0 256 (fun _ => cperBytes severity s.cperCount body) with
    cperCount := s.cperCount + 1 }

/-- PACK_ID of the pack in force, 0 when none. -/
def State.packId (s : State) : Nat := if s.rd F.ASY_PACK_VALID 0 = 1 then s.rd F.ASY_PACK_ID_ID 0 else 0

/-- What the record of an engine mark says beside the engine (Table — Section body). -/
structure MarkInfo where
  cause : Nat
  test : Nat := 0xFFFF
  polder : Nat := 0xFF
  tile : Nat := 0xFFFF
  resExp : Nat := 0
  resObs : Nat := 0
  digest : Nat := 0

/-- The section body of an engine record (Table — Section body). -/
def State.engineBody (s : State) (l : Nat) (m : MarkInfo) : List Byte :=
  leBytes 2 1 ++ leBytes 1 m.cause ++ leBytes 1 (s.health l) ++ leBytes 2 (laneBlock l) ++ leBytes 1 (laneInst l) ++
  leBytes 1 (s.asy F.ASY_ENG_MARKS F.ASY_DRG_MARKS l) ++ leBytes 8 s.tick ++ leBytes 8 s.devNs ++ leBytes 8 s.packId ++
  leBytes 2 m.test ++ leBytes 1 m.polder ++ leBytes 1 0 ++ leBytes 2 m.tile ++ leBytes 1 m.resExp ++
  leBytes 1 m.resObs ++ leBytes 16 m.digest

/-! ## Replace causes (R457, R458) -/

/-- The replace causes, by their bit in `PAT_CAUSE`. -/
inductive Cause where
  | life | spare | benched | retired | ports
  deriving DecidableEq, Repr

def Cause.bit : Cause → Nat
  | .life => 0 | .spare => 1 | .benched => 2 | .retired => 3 | .ports => 4

def Cause.fld : Cause → Fld
  | .life => F.PAT_CAUSE_LIFE | .spare => F.PAT_CAUSE_SPARE | .benched => F.PAT_CAUSE_BENCHED
  | .retired => F.PAT_CAUSE_RETIRED | .ports => F.PAT_CAUSE_PORTS

/-- The master field of `JCT_HEALTH` that a cause sets (Table — Replace causes). -/
def Cause.master : Cause → Fld
  | .life | .spare => F.JCT_HEALTH_REPLACE_MGC
  | .benched | .retired | .ports => F.JCT_HEALTH_REPLACE_DATA

/-- FAULT_PORTS_24H: quarantines with cause FAULT in the last 24 h, 0 to 12. -/
def State.faultPorts (s : State) : Nat :=
  min 12 (s.faultQuar.filter (fun t => decide (s.ns < t + 86400000000000))).length

/-- `PAT_CAUSE` and `PAT_LIFE` as they read. -/
def State.patCause (s : State) : Nat :=
  s.rd F.PAT_CAUSE_LIFE 0 + 2 * s.rd F.PAT_CAUSE_SPARE 0 + 4 * s.rd F.PAT_CAUSE_BENCHED 0
    + 8 * s.rd F.PAT_CAUSE_RETIRED 0 + 16 * s.rd F.PAT_CAUSE_PORTS 0 + 256 * s.faultPorts

def State.patLife (s : State) : Nat :=
  s.rd F.PAT_LIFE_DAYS 0 + 2 ^ 16 * s.rd F.PAT_LIFE_LOW 0 + 2 ^ 32 * s.rd F.PAT_LIFE_POINTS 0
    + 2 ^ 40 * s.rd F.PAT_LIFE_VALID 0

/-- A replace cause arises (R458): when its bit goes from 0 to 1, the master field is set, EV_REPLACE rises, one CPER
record is written and the replace sensor follows. -/
def State.setCause (s : State) (c : Cause) : State :=
  if s.rd c.fld 0 = 1 then s else
  let before := s.jctHealth / 4 % 2
  let s1 := (s.wr c.fld 0 1).wr c.master 0 1
  let s2 := s1.raise 16 evReplace s1.jctHealth 0
  let body := leBytes 2 1 ++ leBytes 1 4 ++ leBytes 1 0 ++ leBytes 2 0x1D ++ leBytes 1 c.bit ++ leBytes 1 0 ++
    leBytes 8 s.tick ++ leBytes 8 s.devNs ++ leBytes 8 s.packId ++ leBytes 2 0xFFFF ++ leBytes 1 0xFF ++ leBytes 1 0 ++
    leBytes 2 0xFFFF ++ leBytes 2 0 ++ leBytes 8 s1.patCause ++ leBytes 8 s1.patLife
  let s3 := s2.cper 0 body
  if before = 0 then s3.platformEvent 0x0020 1 2 else s3

/-! ## Engine marks and benching (R439 to R442) -/

/-- The window count of an engine: its marks within the last 24 h on `DEV_NS` (R440); a mark exactly 24 h old is out
(notes/assumptions/12.md). -/
def State.windowCount (s : State) (l : Nat) : Nat :=
  ((SMap.get [] s.marks l).filter (fun t => decide (s.ns < t + 86400000000000))).length

/-- A run that has a step on the engine not yet ended. -/
def State.needsEngine (s : State) (r : Run) (l : Nat) : Bool :=
  (List.zip (s.stepsOf r) r.steps).any (fun x => x.1.books l && decide (x.2 ≠ .complete))

/-- A lane's Assay work has ended with a verdict or a benching: TEST fences of the lane signal `e`, and a sweep with no
lane left signals E_NONE (Table — Assay registers). -/
def State.asyEnded (s : State) (l : Nat) (e : Option Err) : State :=
  let a := s.assay
  let s1 := { s with assay := { a with
    tests := a.tests.filter (fun x => x.2 != l)
    sweeps := (a.sweeps.map (fun x => (x.1, x.2.filter (· != l)))).filter (fun x => !x.2.isEmpty) } }
  let s2 := (a.tests.filter (fun x => x.2 == l)).foldl (fun t x => t.signal x.1 e) s1
  (a.sweeps.filter (fun x => x.2.all (· == l))).foldl (fun t x => t.signal x.1 none) s2

/-- No Assay run stays on a lane that is benched (R440, R441). -/
def State.dropAssay (s : State) (l : Nat) : State :=
  State.asyEnded { s with assay := { s.assay with
    sched := s.assay.sched.filter (· != l), runs := s.assay.runs.filter (fun r => r.lane != l) } } l (some .engineBenched)

/-- An engine becomes BENCHED (R441). -/
def State.bench (s : State) (l : Nat) : State :=
  let s1 := (((s.setHealth l 2).setQueued l 0).dropAssay l).setCause .benched
  let s2 := { s1 with benchedHist := if s1.benchedHist.contains l then s1.benchedHist else l :: s1.benchedHist }
  let s3 := s2.failAll (fun r => r.phase == .admitted && s2.needsEngine r l) .engineBenched
  let arg := laneBlock l + laneInst l * 2 ^ 16
  let s4 := s3.raise 16 evEngineBenched arg 0
  (List.range 16).foldl (fun t p =>
    match t.planOf p with
    | some pl => if pl.needs l then t.raise p evEngineBenched arg 0 else t
    | none => t) s4

/-- A marking detection (R440): the mark is dated, the window counted, and the engine becomes SUSPECT or BENCHED. -/
def State.mark (s : State) (l : Nat) (m : MarkInfo) : State :=
  let s1 := { s with marks := SMap.put [] s.marks l (s.ns :: SMap.get [] s.marks l) }
  let n := s1.windowCount l
  let s2 := (s1.setMarks l n).setLastTick l
  if s2.health l = 2 then s2
  else if 3 ≤ n then
    let s3 := s2.setHealth l 2
    (s3.cper 1 (s3.engineBody l m)).bench l
  else
    let s3 := (s2.setHealth l 1).setQueued l 1
    s3.cper 0 (s3.engineBody l m)

end Sys2Proof.Machine
end

