-- ==== Sys2Proof/Machine/Memory.lean ====
section
/-! DEFINITION. Vault memory and Mere: sections, granules, ECC and poison, retirement, and the reads and writes of
engines through a context (spec/09_towers_memory.md). -/

namespace Sys2Proof.Machine
open Sys2Proof

/-! ## Sections (R193 to R195) -/

/-- A section is valid. -/
def State.sectValid (s : State) (x : Nat) : Bool := s.rdi F.TWR_SECT_VALID (x / 48) (x % 48) == 1

/-- The vaults that hold part of a section: first vault and number. -/
def State.sectVaults (s : State) (x : Nat) : Nat × Nat :=
  (s.rdi F.TWR_SECT_FIRST_VAULT (x / 48) (x % 48), 2 ^ s.rdi F.TWR_SECT_LOG2_N (x / 48) (x % 48))

/-- The vault and vault-local address of a device-physical address in a valid section (R194). -/
def State.locate (s : State) (a : Nat) : Option (Nat × Nat) :=
  let x := a / 2 ^ 30
  if x < 384 ∧ s.sectValid x = true then
    let o := a % 2 ^ 30
    let (f, n) := s.sectVaults x
    let g := o / 4096
    some (f + g % n, s.rdi F.TWR_SECT_LOCAL_BASE (x / 48) (x % 48) * 2 ^ 22 + g / n * 4096 + o % 4096)
  else none

/-- Bytes of one vault: 1.5 GiB (R191). -/
def vaultBytes : Nat := 0x60000000

/-- The key of a byte of vault memory. -/
def vaultKey (v l : Nat) : Nat := v * vaultBytes + l

/-- Is a vault retired? -/
def State.retired (s : State) (v : Nat) : Bool := s.rdi F.TWR_VSTAT_RETIRED (v / 32) (v % 32) == 1

/-- Does an extent have any part in a retired vault (R225)? -/
def State.extentRetired (s : State) (e : Nat) : Bool :=
  let (f, n) := s.sectVaults (e / 512)
  s.sectValid (e / 512) && (List.range n).any (fun i => s.retired (f + i))

/-- Is the item never zeroed (R225)? -/
def State.neverZeroed (s : State) (z : ZeroItem) : Bool :=
  match z with | .extent e => s.extentRetired e | _ => false

/-- Is every vault of an extent in a polder's vault set (R64)? -/
def State.extentInSet (s : State) (p e : Nat) : Bool :=
  let (f, n) := s.sectVaults (e / 512)
  s.sectValid (e / 512) && (List.range n).all (fun i => bitAt (s.rdi F.PLD_VAULTS_VAULTS p ((f + i) / 64)) ((f + i) % 64))

/-! ## Retirement (R222 to R225) -/

/-- A vault is retired: its queued write-backs, weak-row candidates and cached lines go (R246), the cause and the event rise,
and Patina history records it. Its runs fail when they find an access to it (R223). -/
def State.retireVault (s : State) (v : Nat) : State :=
  if s.retired v then s else
  let t := v / 32
  let s1 := s.wri F.TWR_VSTAT_RETIRED t (v % 32) 1
  let s2 := (List.range 8).foldl (fun u j =>
    if u.rdi F.TWR_WEAK_VALID t j = 1 ∧ u.rdi F.TWR_WEAK_VAULT t j = v % 32 then u.wri F.TWR_WEAK_VALID t j 0 else u) s1
  let s3 := { s2 with writeBacks := SMap.put [] s2.writeBacks v []
                      lines := s2.lines.filter (fun x => match x.2 with
                        | some h => (match s2.locate (h.line * 128) with | some (v', _) => v' != v | none => true)
                        | none => true)
                      retiredHist := if s2.retiredHist.contains v then s2.retiredHist else v :: s2.retiredHist }
  let s4 := ({ s3 with zeroJobs := s3.zeroJobs.filter (fun j => !s3.neverZeroed j.item) }.setCause .retired).raise 16
    evVaultRetired v 0
  (List.range 16).foldl (fun u p =>
    if (u.heldBy p .extent).any (fun e =>
        let (f, n) := u.sectVaults (e.1 / 512); decide (f ≤ v) && decide (v < f + n))
    then u.raise p evVaultRetired v 0 else u) s4

/-- The retirement condition on UE is a state, tested whenever UE or UE_LIMIT changes (R222). -/
def State.testRetire (s : State) (v : Nat) : State :=
  if s.rd F.TWR_CFG_UE_LIMIT (v / 32) < s.rdi F.TWR_VSTAT_UE (v / 32) (v % 32) then s.retireVault v else s

/-! ## ECC (R211 to R218) -/

/-- Who makes an access: a run (with its polder, 16 for the PF), or background work. -/
inductive Who where
  | run (id owner : Nat)
  | background
  deriving DecidableEq, Repr

/-- Write a poison-log entry (R216). KIND: 0 run read, 1 run partial write, 2 background read. -/
def State.plog (s : State) (v a kind : Nat) (w : Who) : State :=
  let t := v / 32
  let i := s.rd F.TWR_PLOG_HEAD_HEAD t
  let (p, by') := match w with
    | .run _ o => if o = 16 then (0, 0) else (o, 1)
    | .background => (0, 0)
  let s1 := (((s.wri F.TWR_PLOG_GRANULE t i (a / 32)).wri F.TWR_PLOG_KIND t i kind).wri F.TWR_PLOG_POLDER t i p).wri
    F.TWR_PLOG_BY_POLDER t i by'
  let s2 := (s1.wr F.TWR_PLOG_HEAD_HEAD t (i + 1)).bump F.TWR_PLOG_HEAD_TOTAL t 1
  match w with
  | .run _ o => s2.countP o 71 1
  | .background => s2

/-- The row of a vault-local address: bank and row (R192). -/
def rowOf (l : Nat) : Nat × Nat := (bitsOf l 10 4, bitsOf l 14 17)

/-- The number of a row over all vaults. -/
def rowKey (v l : Nat) : Nat := (v * 16 + (rowOf l).1) * 98304 + (rowOf l).2

/-- The row of a granule's byte has made at least WEAK_THRESH corrections within the pass and becomes a candidate (R218):
in the first free entry, or counted in CAND_LOST. -/
def State.candRow (s : State) (v l : Nat) : State :=
  let t := v / 32
  let key := rowKey v l
  let n := SMap.get 0 s.rowCorr key
  if n < s.rd F.TWR_CFG_WEAK_THRESH t ∨ SMap.get false s.rowCand key = true ∨ s.retired v = true then s else
  let s1 := { s with rowCand := SMap.put false s.rowCand key true }
  let (b, r) := rowOf l
  if (List.range 8).any (fun j => s1.rdi F.TWR_WEAK_VALID t j == 1 && s1.rdi F.TWR_WEAK_VAULT t j == v % 32 &&
      s1.rdi F.TWR_WEAK_BANK t j == b && s1.rdi F.TWR_WEAK_ROW t j == r) then s1 else
  match (List.range 8).find? (fun j => s1.rdi F.TWR_WEAK_VALID t j == 0) with
  | none => s1.bump F.TWR_SCRUB_CAND_LOST t 1
  | some j => ((((s1.wri F.TWR_WEAK_VALID t j 1).wri F.TWR_WEAK_VAULT t j (v % 32)).wri F.TWR_WEAK_BANK t j b).wri
      F.TWR_WEAK_ROW t j r).wri F.TWR_WEAK_CORR t j (min n 255)

/-- Count a correction in a row (R218). -/
def State.weakRow (s : State) (v l : Nat) : State :=
  State.candRow { s with rowCorr := SMap.put 0 s.rowCorr (rowKey v l) (SMap.get 0 s.rowCorr (rowKey v l) + 1) } v l

/-- Every row of a tower is tested again after WEAK_THRESH has changed (R218). -/
def State.testWeak (s : State) (t : Nat) : State :=
  (s.rowCorr.filter (fun e => e.1 / (16 * 98304) / 32 == t)).foldl (fun u e =>
    u.candRow (e.1 / (16 * 98304)) (e.1 / 98304 % 16 * 2 ^ 10 + e.1 % 98304 * 2 ^ 14)) s

/-- Queue the write-back of a corrected granule (R214): at most one for a granule and 16 for a vault; a further one is
dropped and counted. -/
def State.queueWb (s : State) (v g : Nat) : State :=
  let q := SMap.get [] s.writeBacks v
  if q.contains g then s
  else if q.length < 16 then { s with writeBacks := SMap.put [] s.writeBacks v (q ++ [g]) }
  else s.bumpi F.TWR_VSTAT_WB_DROP (v / 32) (v % 32) 1

/-- A correction (CE). -/
def State.countCe (s : State) (v l : Nat) (w : Who) : State :=
  let s1 := (s.bumpSat F.TWR_VSTAT_CE (v / 32) (v % 32) 1).count (512 + 32 * (v / 32) + 3) 1
  let s2 := match w with | .run _ o => s1.countP o 70 1 | .background => s1
  s2.weakRow v l

/-- An uncorrectable detection (UE). -/
def State.countUe (s : State) (v : Nat) : State :=
  ((s.bumpSat F.TWR_VSTAT_UE (v / 32) (v % 32) 1).count (512 + 32 * (v / 32) + 4) 1).testRetire v

/-- What an access finds: bytes, or the code with which its run fails. -/
inductive Got where
  | bytes (b : List Byte)
  | fail (e : Err)
  deriving DecidableEq, Repr

/-- Read `n` bytes of a sparse byte memory. -/
def readMem (m : SMap Byte) (k n : Nat) : List Byte := (List.range n).map (fun i => SMap.get 0 m (k + i))

/-- Write bytes into a sparse byte memory. -/
def writeMem : SMap Byte → Nat → List Byte → SMap Byte
  | m, _, [] => m
  | m, k, b :: t => writeMem (SMap.put 0 m k b) (k + 1) t

/-- A write that reaches a granule cancels its queued write-back (R214). -/
def State.cancelWb (s : State) (v g : Nat) : State :=
  { s with writeBacks := SMap.put [] s.writeBacks v ((SMap.get [] s.writeBacks v).filter (· != g)) }

/-- Has a repair that runs or is halted already copied the granule at vault-local address `l` of vault v (R219)? -/
def State.copied (s : State) (v l : Nat) : Bool :=
  s.ops.any (fun o => match o.task with
    | .repair c w => w == v && rowOf l == (s.rdi F.TWR_WEAK_BANK (v / 32) c, s.rdi F.TWR_WEAK_ROW (v / 32) c) &&
        decide (l % 1024 / 32 < o.done)
    | _ => false)

/-- A write to a row under repair is also written to the spare row (R219). Of a granule not copied yet the copy will take
what the row then holds. A partial write merges, but into a granule copied as poison it does not (R213). -/
def State.mirrorSpare (s : State) (v l : Nat) (bs : List Byte) : State :=
  let k := vaultKey v l
  if s.copied v l && (bs.length == 32 || SMap.get Ecc.clean s.spareEcc (k / 32) == .clean) then
    { s with spare := writeMem s.spare k bs, spareEcc := SMap.put .clean s.spareEcc (k / 32) .clean }
  else s

/-- Read within one granule of vault memory at device-physical address `a` (Table — Granule reads). -/
def State.readVault (s : State) (w : Who) (a n : Nat) : Got × State :=
  match s.locate a with
  | none => (.fail .faultPinned, s)
  | some (v, l) =>
    if s.retired v then (.fail .vaultRetired, s) else
    let k := vaultKey v l
    let kind := match w with | .run _ _ => 0 | .background => 2
    match SMap.get Ecc.clean s.vaultEcc (k / 32) with
    | .clean => (.bytes (readMem s.vault k n), s)
    | .correctable => (.bytes (readMem s.vault k n), (s.countCe v l w).queueWb v (k / 32))
    | .uncorrectable =>
      let s1 := State.cancelWb { s with vaultEcc := SMap.put .clean s.vaultEcc (k / 32) .poison } v (k / 32)
      (.fail .poison, (s1.plog v a kind w).countUe v)
    | .poison => (.fail .poison, s.plog v a kind w)

/-- Write within one granule of vault memory at device-physical address `a` (Table — Granule writes). Any write that
reaches the granule cancels its queued write-back (R214), and its extent is no longer clean (R543). -/
def State.writeVault (s : State) (w : Who) (a : Nat) (bs : List Byte) : Option Err × State :=
  match s.locate a with
  | none => (some .faultPinned, s)
  | some (v, l) =>
    if s.retired v then (some .vaultRetired, s) else
    let k := vaultKey v l
    let g := k / 32
    let s0 := ((s.cancelWb v g).mirrorSpare v l bs).setDirty (.extent (a / 2 ^ 21)) true
    let store (t : State) : State :=
      { t with vault := writeMem t.vault k bs, vaultEcc := SMap.put .clean t.vaultEcc g .clean }
    if bs.length = 32 then (none, store s0) else
    match SMap.get Ecc.clean s.vaultEcc g with
    | .clean => (none, store s0)
    | .correctable => (none, (store s0).countCe v l w)
    | .uncorrectable =>
      let s1 := { s0 with vaultEcc := SMap.put .clean s0.vaultEcc g .poison }
      (some .poison, (s1.plog v a 1 w).countUe v)
    | .poison => (some .poison, s0.plog v a 1 w)

/-- Read within one granule of Mere (R538). -/
def State.readMere (s : State) (o n : Nat) : Got × State :=
  match SMap.get Ecc.clean s.mereEcc (o / 32) with
  | .clean | .correctable => (.bytes (readMem s.mere o n), s)
  | .uncorrectable | .poison => (.fail .poison, s)

/-- Write within one granule of Mere (R538). -/
def State.writeMere (s : State) (o : Nat) (bs : List Byte) : Option Err × State :=
  let ecc := SMap.get Ecc.clean s.mereEcc (o / 32)
  let s0 := s.setDirty (.mereUnit (o / 2 ^ 20)) true
  if bs.length ≠ 32 ∧ (ecc = .uncorrectable ∨ ecc = .poison) then (some .poison, s0)
  else (none, { s0 with mere := writeMem s0.mere o bs, mereEcc := SMap.put .clean s0.mereEcc (o / 32) .clean })

end Sys2Proof.Machine
end

