-- ==== Sys2Proof/Machine/LongOps.lean ====
section
/-! DEFINITION. Long operations: how they start, halt, resume and end (spec/18_resets_hasps_longops.md, R427 to R432).
Between two commands the part stands at a step boundary, so an interrupting request acts at once
(notes/assumptions/13.md). -/

namespace Sys2Proof.Machine
open Sys2Proof

/-- The operation that a command register runs, when it runs one. -/
def State.op? (s : State) (k : OpKind) (i : Nat) : Option LongOp := s.ops.find? (fun o => decide (o.sel = ⟨k, i⟩))

/-- BUSY of a command register. -/
def State.opBusy (s : State) (k : OpKind) (i : Nat) : Bool := (s.op? k i).isSome

/-- HALTED of a command register. -/
def State.opHalted (s : State) (k : OpKind) (i : Nat) : Bool :=
  match s.op? k i with | some o => o.halted | none => false

/-- Replace an operation. -/
def State.setOp (s : State) (o : LongOp) : State :=
  { s with ops := s.ops.map (fun o' => if o'.sel = o.sel then o else o') }

/-- Start an operation. -/
def State.addOp (s : State) (o : LongOp) : State := { s with ops := s.ops ++ [o] }

/-- Take an operation out. -/
def State.dropOp (s : State) (sel : OpSel) : State := { s with ops := s.ops.filter (fun o => !decide (o.sel = sel)) }

/-- Signal several fences with one outcome. -/
def State.signalAll (s : State) (fs : List Nat) (e : Option Err) : State := fs.foldl (fun t f => t.signal f e) s

/-- End an operation: every fence that waits on it signals. -/
def State.endOp (s : State) (o : LongOp) (e : Option Err) : State := (s.dropOp o.sel).signalAll o.fences e

/-- Start an operation of an owner, taking the fence that its command names (R96). -/
def State.startOp (s : State) (k : OpKind) (i owner : Nat) (fe : Option Nat) (total : Nat) (t : Task) : State :=
  let (f, s1) := s.takeFence owner fe ⟨k, i⟩
  s1.addOp { sel := ⟨k, i⟩, owner := owner, fences := f.toList, halted := false, done := 0, total := total, task := t, last := f }

/-- A command that runs no operation signals its fence at once. -/
def State.doneFence (s : State) (owner : Nat) (fe : Option Nat) (op : OpSel) (e : Option Err) : State :=
  let (f, s1) := s.takeFence owner fe op
  s1.signalOpt f e

/-- The power state is ACTIVE. -/
def State.pwrActive (s : State) : Bool := s.rd F.PWR_STATUS_STATE 0 == 0

/-- RESUME of an operation (R430): discarded as illegal while the power state is not ACTIVE, or when nothing runs. The
RESUME's own fence joins those that the operation's end signals (notes/assumptions/14.md). -/
def State.resumeOp (s : State) (k : OpKind) (i owner : Nat) (fe : Option Nat) (b : Block) (inst off : Nat) : State :=
  if s.pwrActive = false then s.illegal b inst off else
  match s.op? k i with
  | none => s.illegal b inst off
  | some o =>
    let (f, s1) := s.takeFence owner fe ⟨k, i⟩
    s1.setOp { o with halted := false, fences := f.toList ++ o.fences }

/-- ABORT of an operation at its next step boundary (R428): its fences signal E_ABORTED and the ABORT's own fence
signals E_NONE (notes/assumptions/24.md). With no operation running it is discarded as illegal (R431). `post` is what the
operation leaves behind. -/
def State.abortOp (s : State) (k : OpKind) (i owner : Nat) (fe : Option Nat) (b : Block) (inst off : Nat)
    (post : State → LongOp → State) : State :=
  match s.op? k i with
  | none => s.illegal b inst off
  | some o => ((post s o).endOp o (some .aborted)).doneFence owner fe ⟨k, i⟩ none

/-- Which operations resume themselves (Table — Long operations). -/
def selfResuming : OpKind → Bool
  | .fnc => true
  | _ => false

/-- Has a polder's own zeroing not begun yet: its runs drain first (Table — Polder states)? -/
def State.zeroWaits (s : State) (o : LongOp) : Bool := o.sel.kind == .pld && s.pst o.sel.inst == pDraining

/-- A trust record LOAD is no operation of Table — Long operations, and nothing interrupts it. -/
def neverHalts : OpKind → Bool
  | .trust => true
  | _ => false

/-- An interrupting request halts every commanded operation (R428). -/
def State.haltOps (s : State) : State :=
  { s with ops := s.ops.map (fun o =>
      if neverHalts o.sel.kind || selfResuming o.sel.kind || s.zeroWaits o then o else { o with halted := true }) }

/-- While one of these conditions holds, a self-resuming operation stands (Table — Interrupting requests): a level
change from its sample point to the boundary, a power state other than ACTIVE, or tier 3 in force. -/
def State.selfHalted (s : State) : Bool :=
  !s.pwrActive || s.rd F.PLD_COND_TIER 16 == 3 ||
  (match s.sampled with | some (lv, _) => lv != s.rd F.JCT_CEIL_CUR_LEVEL 0 | none => false)

/-- Does the operation make progress now? -/
def State.opRuns (s : State) (o : LongOp) : Bool :=
  if neverHalts o.sel.kind then true
  else if selfResuming o.sel.kind then !s.selfHalted else !o.halted

/-- The context of an operation: the CTX field of its command or source register (R428). -/
def LongOp.ctx (o : LongOp) : Option Nat :=
  match o.task with
  | .planLoad _ _ _ c => some c
  | .mobWrite m _ => some m.ctx
  | .mobClear _ c _ _ _ _ => some c
  | .inval _ _ _ _ => some o.sel.inst
  | _ => none

/-- A fence outcome that the spec does not state for a command that ends without its effect: one of the codes of R100,
by a free value (notes/assumptions/15.md). -/
def State.freeErr (s : State) : Option Err × State :=
  let (v, s1) := s.fresh
  let all : List (Option Err) := [none, some .lodeUnknown, some .berthNotOwned, some .berthTooShort,
    some .admissionTimeout, some .queueFull, some .bagOverCap, some .indexRange, some .saturated, some .epochGone,
    some .poison, some .faultPinned, some .faultUnserviced, some .vaultRetired, some .thermalTier, some .levelChange,
    some .deadline, some .residue, some .engineBenched, some .remoteLate, some .remoteRefused, some .portQuarantined,
    some .peerAbsent, some .contextReset, some .polderReset, some .planReplaced, some .aborted]
  ((all[v % 27]?).getD none, s1)

/-- End an operation with an outcome that the spec does not state. -/
def State.endFree (s : State) (o : LongOp) : State :=
  let (e, s1) := s.freeErr
  s1.endOp o e

end Sys2Proof.Machine
end

