-- ==== Sys2Proof/Machine/Walk.lean ====
section
/-! DEFINITION. Page tables and the translation store: the walk, registration, holds and re-walks
(spec/07_translation.md, R129 to R140, R150 to R154). -/

namespace Sys2Proof.Machine
open Sys2Proof

/-! ## The walk (R131 to R134) -/

/-- What a walk finds for one page: nothing present for a span of 4 KiB pages, a bad entry, or a leaf. -/
inductive Walk where
  | absent (span : Nat)
  | bad
  | leaf (target addr : Nat) (w : Bool) (pages : Nat)
  deriving DecidableEq, Repr

/-- Read a table entry. A read that fails answers none (R134); an address that is not listed reads 0. -/
def ptRead (pt : HostTable) (a : Nat) : Option Nat :=
  match pt.find? (fun e => e.1 == a) with
  | some e => e.2
  | none => some 0

/-- Pages of 4 KiB that one entry of a level covers. -/
def levelSpan (l : Nat) : Nat := 512 ^ (l - 1)

/-- An entry with P = 1 at level `l` is BAD_ENTRY (R132). TARGET is ignored in a non-leaf. -/
def pteBad (l e : Nat) : Bool :=
  let leaf := bitAt e 2
  let ps := bitAt e 3
  let pages := if ps then 16 else levelSpan l
  (leaf && l == 4) || (!leaf && l == 1) || (ps && !(leaf && l == 1)) || (leaf && bitsOf e 4 2 == 3) ||
  bitsOf e 6 6 != 0 || bitAt e 63 || (leaf && bitsOf e 12 40 % pages != 0)

/-- Walk from level `l` down (Table — Table levels). -/
def walkFrom (pt : HostTable) (va : Nat) : Nat → Nat → Walk
  | 0, _ => .bad
  | l + 1, table =>
    match ptRead pt (table + 8 * bitsOf va (12 + 9 * l) 9) with
    | none => .bad
    | some e =>
      if !bitAt e 0 then .absent (levelSpan (l + 1)) else
      if pteBad (l + 1) e then .bad else
      if bitAt e 2 then
        .leaf (bitsOf e 4 2) (bitsOf e 12 40 * 4096) (bitAt e 1) (if bitAt e 3 then 16 else levelSpan (l + 1))
      else walkFrom pt va l (bitsOf e 12 40 * 4096)

/-- Walk the tables of a context for a page. With Bus Master Enable 0, no read can be issued (R134). -/
def State.walkPage (s : State) (pt : HostTable) (c page : Nat) : Walk :=
  if s.bme (s.ownerOf .context c) then walkFrom pt (page * 4096) 4 (s.rd F.CTX_ROOT_ADDR c * 4096) else .bad

/-- The bus addresses of the table entries that a walk reads. -/
def walkReads (pt : HostTable) (va : Nat) : Nat → Nat → List Nat
  | 0, _ => []
  | l + 1, table =>
    let a := table + 8 * bitsOf va (12 + 9 * l) 9
    match ptRead pt a with
    | none => [a]
    | some e =>
      if !bitAt e 0 || pteBad (l + 1) e || bitAt e 2 then [a] else a :: walkReads pt va l (bitsOf e 12 40 * 4096)

/-- The table reads of a walk for a page: they go out with the requester ID of the owner's function (R131), one entry each
(notes/assumptions/112.md), and count (Table — Device counters, Table — Polder counters). -/
def State.countWalk (s : State) (pt : HostTable) (c page : Nat) : State :=
  let o := s.ownerOf .context c
  let as := if s.bme o then walkReads pt (page * 4096) 4 (s.rd F.CTX_ROOT_ADDR c * 4096) else []
  ((as.foldl (fun t a => t.hostRead o a 8) s).count (devCnt 27) as.length).countP o 72 as.length

/-- Does a leaf of a context of owner `o` translate, in every extent or unit that it covers (R130, R195)? -/
def State.leafOk (s : State) (o target addr pages : Nat) : Bool :=
  if target = 2 then true
  else if target = 0 then
    (List.range (ceilDiv (addr % 2 ^ 21 + pages * 4096) (2 ^ 21))).all (fun i =>
      let e := addr / 2 ^ 21 + i
      s.mayEnter o 0 (e * 2 ^ 21) && s.sectValid (e / 512))
  else
    (List.range (ceilDiv (addr % 2 ^ 20 + pages * 4096) (2 ^ 20))).all (fun i =>
      s.mayEnter o 1 ((addr / 2 ^ 20 + i) * 2 ^ 20))

/-! ## The store (R136, R137) -/

/-- Is the entry a translation? -/
def Ent.isLeaf (e : Ent) : Bool := match e.res with | .leaf _ _ _ => true | _ => false

/-- Store entries of an object. -/
def Mob.entries (m : Mob) : Nat := (m.ents.filter Ent.isLeaf).length

/-- Store entries that an owner holds: those of its objects and of a registration in progress. -/
def State.storeUsed (s : State) (o : Nat) : Nat :=
  ((s.mobs.filter (fun m => m.owner == o)).map Mob.entries).sum +
  (s.ops.map (fun op => match op.task with
    | .mobWrite m _ => if op.owner = o then m.entries else 0
    | _ => 0)).sum

/-- Memory-object blocks that an owner holds. -/
def State.blocksHeld (s : State) (o : Nat) (k : ObjKind) : Nat :=
  if o = 16 then objCount k - ((List.range 16).map (fun p => (s.heldBy p k).length)).sum else (s.heldBy o k).length

/-- The pool of an owner (R136). -/
def State.storePool (s : State) (o : Nat) : Nat := 2048 * s.blocksHeld o .mobjBlock

/-- The pages of an object that an entry covers. -/
def Mob.cover (m : Mob) (e : Ent) : Nat :=
  min (e.page + e.pages) (m.page + m.pages) - max e.page m.page

/-- Is every page of the object covered by a translation? -/
def Mob.full (m : Mob) : Bool := ((m.ents.filter Ent.isLeaf).map m.cover).sum == m.pages

/-- Replace an object. -/
def State.setMob (s : State) (m : Mob) : State :=
  { s with mobs := s.mobs.map (fun m' => if m'.slot = m.slot then m else m') }

/-- The object of a slot. -/
def State.mobOf (s : State) (slot : Nat) : Option Mob := s.mobs.find? (fun m => m.slot == slot)

/-- A slot in its owner's view: 64 × local block index + entry. -/
def State.slotView (s : State) (slot : Nat) : Nat := 64 * s.localOf .mobjBlock (slot / 64) + slot % 64

/-- The global slot that an owner names, when the owner holds its block. -/
def State.slotGlobal (s : State) (o v : Nat) : Option Nat :=
  (s.fromLocal o .mobjBlock (v / 64)).map (fun b => 64 * b + v % 64)

/-! ## Registration (R138) -/

/-- The status codes of `MOB_STATUS`. -/
def mobOk : Nat := 0
def mobOverlap : Nat := 1
def mobNotPresent : Nat := 2
def mobBadEntry : Nat := 3
def mobBadTarget : Nat := 4
def mobStoreFull : Nat := 5
def mobNotHeld : Nat := 6
def mobSlotValid : Nat := 7
def mobAborted : Nat := 8

/-- What one piece of a registration walk leaves: the object so far, the next page, and the status it failed with. -/
structure WalkOut where
  st : State
  mob : Mob
  next : Nat
  walked : Nat
  fail : Option Nat

/-- Walk up to `n` entries of a registration (R138). -/
def regWalk (pt : HostTable) (pool : Nat) : Nat → WalkOut → WalkOut
  | 0, w => w
  | n + 1, w0 =>
    let m := w0.mob
    if m.page + m.pages ≤ w0.next ∨ w0.fail.isSome then w0 else
    let s := w0.st.countWalk pt m.ctx w0.next
    let w := { w0 with st := s }
    match s.walkPage pt m.ctx w.next with
    | .bad => { w with fail := some mobBadEntry }
    | .absent span =>
      if m.pinned then { w with fail := some mobNotPresent }
      else regWalk pt pool n { w with next := (w.next / span + 1) * span }
    | .leaf t a wr pages =>
      let first := w.next / pages * pages
      if !s.leafOk m.owner t a pages then { w with fail := some mobBadTarget }
      else if pool ≤ m.entries then { w with fail := some mobStoreFull }
      else regWalk pt pool n
        { w with mob := { m with ents := m.ents ++ [⟨first, pages, .leaf t a wr⟩] }, next := first + pages,
                 walked := w.walked + 1 }

/-! ## Invalidation (R150 to R153) -/

/-- Does a page range overlap another? -/
def overlaps (p n p' n' : Nat) : Bool := decide (p < p' + n') && decide (p' < p + n)

/-- Is a page range held (R150)? -/
def State.heldRange (s : State) (c p n : Nat) : Bool :=
  s.holds.any (fun h => h.ctx == c && overlaps h.page h.pages p n)

/-- The pages that an invalidation of a range acts on: every page that overlaps it, in full (R150). Pages are aligned to
their size, so that two of them that overlap lie one in the other, and one pass finds them all. -/
def State.wholePages (s : State) (c p n : Nat) : Nat × Nat :=
  let hit := (s.mobs.filter (fun m => m.ctx == c)).flatMap (fun m => m.ents.filter (fun e => overlaps e.page e.pages p n))
  let lo := hit.foldl (fun a e => min a e.page) p
  let hi := hit.foldl (fun a e => max a (e.page + e.pages)) (p + n)
  (lo, hi - lo)

/-- The parts of a context's objects that a flush of whole pages empties: slot, first page, page after the last. -/
def State.flushParts (s : State) (c p n : Nat) : List (Nat × Nat × Nat) :=
  (s.mobs.filter (fun m => m.ctx == c && overlaps m.page m.pages p n)).map (fun m =>
    (m.slot, max p m.page, min (p + n) (m.page + m.pages)))

/-- The flush: every store entry in the range is dropped, in one step. -/
def State.flush (s : State) (c p n : Nat) : State :=
  { s with mobs := s.mobs.map (fun m =>
      if m.ctx = c then { m with ents := m.ents.filter (fun e => !overlaps e.page e.pages p n) } else m) }

/-- Re-walk one page of an object (R136, R137): the object after it, the next page, and whether an entry was made. A
bad page is recorded in a PAGEABLE object and makes a PINNED one BROKEN. -/
def State.rewalkPage (s : State) (pt : HostTable) (m : Mob) (page : Nat) : Mob × Nat × Bool :=
  let mark (r : PageRes) : Mob × Nat × Bool :=
    if m.pinned then ({ m with broken := true }, page + 1, false)
    else ({ m with ents := m.ents ++ [⟨page, 1, r⟩] }, page + 1, false)
  match s.walkPage pt m.ctx page with
  | .bad => mark .badEntry
  | .absent span =>
    (if m.pinned then { m with broken := true } else m, (page / span + 1) * span, false)
  | .leaf t a w pages =>
    if !s.leafOk m.owner t a pages then mark .badTarget
    else
      let first := page / pages * pages
      let m' := { m with ents := m.ents.filter (fun e => !overlaps e.page e.pages first pages) }
      let held := match s.mobOf m.slot with | some x => x.entries | none => 0
      if s.storePool m.owner ≤ s.storeUsed m.owner - held + m'.entries then
        (if m.pinned then { m with broken := true } else m, page + 1, false)
      else ({ m' with ents := m'.ents ++ [⟨first, pages, .leaf t a w⟩] }, first + pages, true)

/-- Re-walk up to `n` entries of the parts of a flush; `bad` says that the object under way has found a bad page. An
object that was BROKEN is good again when every one of its pages translates. -/
def State.rewalkParts (pt : HostTable) : Nat → State → List (Nat × Nat × Nat) → Nat →
    State × List (Nat × Nat × Nat) × Nat
  | 0, s, todo, k => (s, todo, k)
  | n + 1, s, todo, k =>
    match todo with
    | [] => (s, [], k)
    | (slot, next, stop) :: rest =>
      match s.mobOf slot with
      | none => State.rewalkParts pt n s rest k
      | some m =>
        if stop ≤ next then
          State.rewalkParts pt n (s.setMob { m with broken := m.broken && !m.full }) rest k
        else
          let (m', next', made) := s.rewalkPage pt m next
          State.rewalkParts pt n ((s.countWalk pt m.ctx next).setMob m') ((slot, next', stop) :: rest) (if made then k + 1 else k)

/-- Lift a hold. The checks it deferred complete by `DEFERRED_CHECK_COMPLETE`. -/
def State.liftHold (s : State) (c p n : Nat) : State :=
  { s with holds := s.holds.filter (fun h => !decide (h = ⟨c, p, n⟩)) }

/-- An ABORT after the flush leaves the pages that have not been re-walked as holes; PINNED objects that overlap them
become BROKEN (R153). -/
def State.breakHoles (s : State) (todo : List (Nat × Nat × Nat)) : State :=
  { s with mobs := s.mobs.map (fun m =>
      if m.pinned && todo.any (fun x => x.1 == m.slot && decide (x.2.1 < x.2.2)) then { m with broken := true } else m) }

/-- End an invalidation or a CLEAR before its final step, as R153 gives. -/
def State.dropInval (s : State) (o : LongOp) : State :=
  match o.task with
  | .inval ph p n todo =>
    let s1 := s.liftHold o.sel.inst p n
    match ph with
    | .drain => s1
    | _ => s1.breakHoles todo
  | .mobClear slot c p n ph todo =>
    let s1 := s.liftHold c p n
    match ph with
    | .drain => s1
    | _ => s1.breakHoles ((slot, p, p + n) :: todo)
  | _ => s

/-! ## Fault records (R143, R144, R149) -/

/-- The fault ring of a context. -/
def fltRing : RingRegs :=
  { staithe := F.FLT_BASE_STAITHE, offset := F.FLT_BASE_OFFSET, en := F.FLT_CFG_EN, log2 := F.FLT_CFG_LOG2_SIZE,
    vec := F.FLT_CFG_VEC, head := F.FLT_HEAD_HEAD, tail := F.FLT_TAIL_TAIL, lost := F.FLT_TAIL_LOST,
    polCount := some 9 }

/-- Write a fault record (Table — Fault record). -/
def State.faultRecord (s : State) (r : Run) (kind id va : Nat) (write rep : Bool) : State :=
  let o := s.ownerOf .context r.ctx
  let slot := match s.mobAt r.ctx (va / 4096) with | some m => s.slotView m.slot | none => 0x3FFF
  s.ringPut fltRing (32 + r.ctx) o r.ctx 32 (fun low =>
    leBytes 8 (low + 4 * b2n write + 8 * b2n rep + 16 * kind + id * 2 ^ 16 + low32 s.tick * 2 ^ 32)
    ++ leBytes 8 (va % 2 ^ 48 + slot * 2 ^ 48)
    ++ leBytes 8 (s.localOf .queue r.queue + s.fenceView r.fence * 2 ^ 32)
    ++ leBytes 8 (r.word 6))

/-- The pending faults of a context. -/
def State.faultsOf (s : State) (c : Nat) : List PFault := s.faults.filter (fun f => f.ctx == c)

/-- The next fault number of a context: ascending, skipping 0 and every number still pending (R144). -/
def State.nextFault (s : State) (c : Nat) : Nat :=
  let last := SMap.get 0 s.lastFault c
  let used := (s.faultsOf c).map (·.id)
  ((List.range 65).map (fun i => (last + i) % 65535 + 1)).find? (fun n => !used.contains n) |>.getD 1

/-- A run meets a hole or a write-denied page of a PAGEABLE object (R144): it joins the page's fault, or creates one; a
65th fault fails the run at once. The answer says whether the run goes on. There is one fault for a faulting page, whatever
its size. -/
def State.raiseFault (s : State) (r : Run) (kind va : Nat) (write : Bool) : Bool × State :=
  let page := va / 4096
  match s.faults.find? (fun f => f.ctx == r.ctx && overlaps f.page f.pages page 1) with
  | some f =>
    let join (g : PFault) : PFault :=
      if g.ctx = r.ctx ∧ g.id = f.id then
        { g with runs := if g.runs.contains r.id then g.runs else g.runs ++ [r.id] }
      else g
    (true, { s with faults := s.faults.map join })
  | none =>
    if 64 ≤ (s.faultsOf r.ctx).length then (false, s.faultRecord r kNoSlot 0 va write false) else
    let id := s.nextFault r.ctx
    let slot := match s.mobAt r.ctx page with | some m => m.slot | none => 0
    let (first, pages) := match s.mobAt r.ctx page with
      | some m => (match m.entAt page with
        | some e => if kind = kWriteDenied then (max e.page m.page, m.cover e) else (page, 1)
        | none => (page, 1))
      | none => (page, 1)
    let s1 : State := { s with
      faults := s.faults ++ [{ ctx := r.ctx, id := id, page := first, pages := pages, slot := slot, write := write
                               kind := kind, runs := [r.id], retry := false }]
      lastFault := SMap.put 0 s.lastFault r.ctx id }
    let o := s.ownerOf .context r.ctx
    (true, ((s1.count (devCnt 28) 1).countP o 73 1).faultRecord r kind id va write false)

end Sys2Proof.Machine
end

