-- ==== Sys2Proof/Machine/Weir.lean ====
section
/-! DEFINITION. The frame's ticks and who uses them: the kind of a lane's present tick, the bookings of admitted runs, and
the slots that a weir lends (spec/01_architecture.md, R11, R13; spec/08_plans_lodes.md, R156, R162; spec/09_towers_memory.md,
R201 to R204). -/

namespace Sys2Proof.Machine
open Sys2Proof

/-! ## Lanes (Table — Lanes) -/

/-- What a lane drives. -/
inductive Eng where
  | vault | anvil | planisher | solder | punch | riddle | tarn | ladle | host | causeway
  deriving DecidableEq, Repr

/-- The lane numbers in directory order. -/
def laneList : List Nat :=
  List.range 0x11E ++ (List.range 20).map (· + 0x120) ++ (List.range 12).map (· + 0x140)

/-- The unit of a lane, when the lane exists (R155). -/
def engOf (l : Nat) : Option Eng :=
  if l < 0x100 then some .vault
  else if l < 0x108 then some .anvil
  else if l < 0x110 then some .planisher
  else if l < 0x118 then some .solder
  else if l < 0x11A then some .punch
  else if l < 0x11C then some .riddle
  else if l < 0x11E then some .tarn
  else if 0x120 ≤ l ∧ l < 0x130 then some .ladle
  else if 0x130 ≤ l ∧ l < 0x134 then some .host
  else if 0x140 ≤ l ∧ l < 0x14C then some .causeway
  else none

/-- The unit of a step. -/
def PStep.eng (p : PStep) : Option Eng := engOf p.lane

/-- The position of a lane in the order of Table — Lanes, which is the order of a frame's directory. -/
def laneIdx (l : Nat) : Option Nat :=
  if l < 0x11E then some l
  else if 0x120 ≤ l ∧ l < 0x130 then some (l - 2)
  else if 0x130 ≤ l ∧ l < 0x134 then some (l - 2)
  else if 0x140 ≤ l ∧ l < 0x14C then some (l - 14)
  else none

/-! ## Ticks of a frame -/

/-- The kinds of a lane of the frame, as runs. -/
def Frame.lane (f : Frame) (l : Nat) : List (TickKind × Nat) :=
  match laneIdx l with | some i => f.lanes.getD i [] | none => []

/-- The kind at a tick of a list of runs. -/
def kindAt : List (TickKind × Nat) → Nat → TickKind
  | [], _ => .idle
  | (k, n) :: t, x => if x < n then k else kindAt t (x - n)

/-- The kind of frame tick `x` of a lane (R156). -/
def Frame.kind (f : Frame) (l x : Nat) : TickKind := kindAt (f.lane l) (x % max 1 f.length)

/-- The kind that the frame in force gives to the present tick of a lane. -/
def State.kindNow (s : State) (l : Nat) : TickKind :=
  match s.frame with
  | none => .idle
  | some f => f.kind l ((s.tick - s.rd F.RV_FRAME_START_TICK 0) % max 1 f.length)

/-! ## Bookings (R162, R97) -/

/-- The planned end of an admitted run. -/
def State.plannedEnd (s : State) (r : Run) : Nat :=
  r.admittedAt + (match s.runLode r with | some l => l.duration | none => 0)

/-- The ticks that a step of an admitted run books hold the present one (R162). -/
def State.inPlan (s : State) (r : Run) (x : PStep) : Bool :=
  decide (r.admittedAt + x.start ≤ s.tick) && decide (s.tick < r.admittedAt + x.start + x.duration)

/-- The admitted runs, with those that failed and whose remaining ticks stay idle (R97). -/
def State.bookers (s : State) : List Run := s.runs.filter (fun r => r.phase != .queued) ++ s.ended

/-- Is an admitted step of an owner booked in this tick on a lane? -/
def State.bookedNow (s : State) (o l : Nat) : Bool :=
  s.bookers.any (fun r => r.owner == o && (s.stepsOf r).any (fun x => x.books l && s.inPlan r x))

/-- The share of a vault tick that the admitted steps of an owner book (R163). -/
def State.sharesNow (s : State) (o v : Nat) : Nat :=
  (s.bookers.map (fun r => if r.owner = o then
    (((s.stepsOf r).filter (fun x => x.books v && s.inPlan r x)).map (·.share)).sum else 0)).sum

/-! ## Lent slots (R203) -/

/-- The slots S of a weir in a tick, at a tier (R201). -/
def tierSlots : Nat → Nat
  | 0 => 64
  | 1 => 56
  | 2 => 48
  | _ => 32

/-- The next OPEN polder that the weir of a vault serves: those with a running step on the vault and credit left, other
than the lender, in round-robin order after the polder last served. -/
def State.nextBorrower (s : State) (v lender : Nat) : Option Nat :=
  let last := SMap.get 15 s.served v
  let wants (p : Nat) : Bool :=
    p != lender && !s.isSealed p && decide (0 < s.rdi F.WR_PLD_LEFT (v / 32) p) &&
    s.runs.any (fun r => r.owner == p && decide (r.phase = .admitted) &&
      (List.zip (s.stepsOf r) r.steps).any (fun x => x.1.books v && (match x.2 with | .running _ => true | _ => false)))
  ((List.range 16).map (fun i => (last + 1 + i) % 16)).find? wants

/-- The polder to which the frame gives the present tick of a vault lane, when the tick is lendable: OPEN, LEND = 1, and
no admitted step of it books the tick. -/
def State.lender (s : State) (v : Nat) : Option Nat :=
  match s.kindNow v with
  | .polder p =>
    if !s.isSealed p && SMap.get true s.lend (16 * (v / 32) + p) && !s.bookedNow p v then some p else none
  | _ => none

/-- A polder takes `n` slots of a lendable tick of a vault: each spends one credit (R203), and the tick has the S slots of
the tier in force. The slots that the work of one command uses are one turn (notes/assumptions/111.md). A polder whose turn
it is not, or that the credit or the slots do not last for, is denied. -/
def State.borrow (s : State) (o v lender n : Nat) : State :=
  let u := SMap.get (16, 0) s.lent v
  let left := s.rdi F.WR_PLD_LEFT (v / 32) o
  if left < n ∨ tierSlots (s.rd F.PLD_COND_TIER 16) < u.2 + n ∨ (u.1 ≠ o ∧ s.nextBorrower v lender ≠ some o) then
    { s with denied := true } else
  let s1 := s.wri F.WR_PLD_LEFT (v / 32) o (left - n)
  (((State.count { s1 with served := SMap.put 15 s1.served v o, lent := SMap.put (16, 0) s1.lent v (o, u.2 + n) }
    (512 + 32 * (v / 32) + 15) n).countP o 54 n).countP lender 55 n)

/-- The slots that `n` bytes take: one carries 10 (R198). -/
def slotsFor (n : Nat) : Nat := ceilDiv n 10

/-- The weir passes an access of `n` bytes of a polder's run to a vault (R9): in a tick lent by another polder it spends
credits. -/
def State.weir (s : State) (o v n : Nat) : State :=
  match s.lender v with
  | some p => if p = o then s else s.borrow o v p (slotsFor n)
  | none => s

/-- The weir of the tower that holds an address passes an access of `n` bytes (R9). -/
def State.weirFor (s : State) (w : Who) (a n : Nat) : State :=
  match w, s.locate a with
  | .run _ o, some (v, _) => s.weir o v n
  | _, _ => s

/-- Read vault memory through its weir (R9). -/
def State.readWeir (s : State) (w : Who) (a n : Nat) : Got × State := (s.weirFor w a n).readVault w a n

/-- Write vault memory through its weir (R9). -/
def State.writeWeir (s : State) (w : Who) (a : Nat) (bs : List Byte) : Option Err × State :=
  (s.weirFor w a bs.length).writeVault w a bs

/-! ## Ticks that a step may use (R11, R13, R174, R176) -/

/-- Does a running step other than the given one use a lane? -/
def State.laneBusy (s : State) (id i l : Nat) : Bool :=
  s.runs.any (fun r => r.phase == .admitted && (List.zip (s.stepsOf r) r.steps).zipIdx.any (fun y =>
    !(r.id == id && y.2 == i) && y.1.1.books l && (match y.1.2 with | .running _ | .stalled _ _ _ | .filled _ _ _ => true | _ => false)))

/-- May an OPEN polder's step of the given SHARE use a lane early (R13, R176, R203): a tick of its own that no step of its
polder books (a vault tick with that share left), or one of another OPEN polder that has no admitted step in it, for a vault
a lendable one; an engine lane must not be in use. -/
def State.laneFree (s : State) (o id i l share : Nat) : Bool :=
  match s.kindNow l with
  | .polder p =>
    if l < 0x100 then
      if p = o then decide (s.sharesNow o l + share ≤ tierSlots (s.rd F.PLD_COND_TIER 16))
      else (s.lender l).isSome && decide (0 < s.rdi F.WR_PLD_LEFT (l / 32) o)
    else (p == o || !s.isSealed p) && !s.bookedNow p l && !s.laneBusy id i l
  | _ => false

/-- May step `i` of a run work in the present tick: in the ticks that it books, and before them, in an OPEN polder, where
its lanes are free (R174, R175)? -/
def State.mayWork (s : State) (r : Run) (i : Nat) (x : PStep) : Bool :=
  s.inPlan r x || (!s.isSealed r.owner && decide (s.tick < r.admittedAt + x.start) &&
    (List.range x.laneCount).all (fun j => s.laneFree r.owner r.id i (x.lane + j) x.share))

end Sys2Proof.Machine
end

