-- ==== Sys2Proof/Machine/Descriptors.lean ====
section
/-! DEFINITION. The descriptors of the steps and the addresses that a lode derives from them (spec/08, spec/10, spec/11,
spec/13, spec/14, spec/15, spec/16). -/

namespace Sys2Proof.Machine
open Sys2Proof


/-- The lanes that a step books. -/
def PStep.lanes (p : PStep) : List Nat := (List.range p.laneCount).map (p.lane + ·)

/-! ## Bag sets (R237) -/

structure BagSet where
  bags : Nat
  outFmt : Nat
  lengths : Bool
  offsIn : Nat
  idxIn : Nat
  maxIdx : Nat
  outVa : Nat
  outStride : Nat
  oneIn : Nat
  oneCntIn : Nat
  oneMax : Nat
  oneTable : Nat
  vaultCap : Nat
  maxPitch : Nat
  maxDim : Nat
  oneOutVa : Nat
  oneStride : Nat
  /-- Table slot and POOL of each bag. -/
  recs : List (Nat × Nat)
  deriving DecidableEq, Repr

def bagSet (d : List Byte) : BagSet :=
  { bags := numAt d 0 2, outFmt := numAt d 2 1, lengths := bitAt (numAt d 3 1) 0, offsIn := numAt d 4 4
    idxIn := numAt d 8 4, maxIdx := numAt d 0x0C 4, outVa := numAt d 0x10 8, outStride := numAt d 0x18 4
    oneIn := numAt d 0x1C 4, oneCntIn := numAt d 0x20 4, oneMax := numAt d 0x24 4, oneTable := numAt d 0x28 2
    vaultCap := numAt d 0x2A 2, maxPitch := numAt d 0x2C 2, maxDim := numAt d 0x2E 2, oneOutVa := numAt d 0x30 8
    oneStride := numAt d 0x38 4
    recs := (List.range (numAt d 0 2)).map (fun b =>
      let w := numAt d (0x40 + 4 * b) 4; (w % 1024, bitsOf w 10 2)) }

/-- Bytes of one output element. -/
def outBytes (fmt : Nat) : Nat := if fmt = 0 then 4 else 2

/-- Every field is legal (Table — Bag-set descriptor). -/
def bagSetLegal (d : List Byte) : Bool :=
  let b := bagSet d
  d.length == 64 + 4 * b.bags && decide (b.bags ≤ 4096) && decide (b.outFmt ≤ 1) && decide (numAt d 3 1 ≤ 1) &&
  decide (b.maxIdx ≤ 65536) && decide (b.maxDim * outBytes b.outFmt ≤ b.outStride) && decide (b.oneMax ≤ 65536) &&
  decide (b.oneTable < 1024) && decide (1 ≤ b.vaultCap) && decide (32 ≤ b.maxPitch) && decide (b.maxPitch ≤ 4096) &&
  decide (1 ≤ b.maxDim) && decide (b.maxDim ≤ 1024) && numAt d 0x3C 4 == 0 &&
  (List.range b.bags).all (fun i => decide (numAt d (0x40 + 4 * i) 4 / 1024 ≤ 1))

/-! ## Update descriptors (R263) -/

structure UpdDesc where
  inOff : Nat
  maxEntries : Nat
  maxDim : Nat
  maxCopy : Nat
  vaultCap : Nat
  towerCap : Nat
  deriving DecidableEq, Repr

def updDesc (d : List Byte) : UpdDesc :=
  { inOff := numAt d 0 4, maxEntries := numAt d 4 4, maxDim := numAt d 8 2, maxCopy := numAt d 0xA 2
    vaultCap := numAt d 0xC 2, towerCap := numAt d 0xE 2 }

def updLegal (d : List Byte) : Bool :=
  let u := updDesc d
  d.length == 64 && u.inOff % 16 == 0 && decide (1 ≤ u.maxEntries ∧ u.maxEntries ≤ 65536) &&
  decide (1 ≤ u.maxDim ∧ u.maxDim ≤ 1024) && decide (32 ≤ u.maxCopy ∧ u.maxCopy ≤ 2048) &&
  decide (1 ≤ u.vaultCap) && decide (1 ≤ u.towerCap) && numAt d 0x10 48 == 0

/-! ## Ladle and output descriptors (R166, R168) -/

structure LadleDesc where
  op : Nat
  srcVault : Bool
  dstVault : Bool
  inOff : Nat
  src : Nat
  dst : Nat
  bytes : Nat
  vaultBytes : Nat
  pattern : Nat
  deriving DecidableEq, Repr

def ladleDesc (d : List Byte) : LadleDesc :=
  { op := numAt d 0 1, srcVault := bitAt (numAt d 1 1) 0, dstVault := bitAt (numAt d 1 1) 1, inOff := numAt d 4 4
    src := numAt d 8 8, dst := numAt d 0x10 8, bytes := numAt d 0x18 4, vaultBytes := numAt d 0x1C 4
    pattern := numAt d 0x20 8 }

def ladleLegal (maxIn : Nat) (d : List Byte) : Bool :=
  let l := ladleDesc d
  d.length == 64 && decide (l.op ≤ 3) && decide (numAt d 1 1 ≤ 3) && numAt d 2 2 == 0 &&
  (!l.srcVault || l.op == 0) &&
  (if l.op = 3 then l.inOff % 64 == 0 && decide (l.inOff + l.bytes ≤ maxIn) else l.inOff == 0) &&
  (if l.op = 0 then l.src % 64 == 0 else l.src == 0) && l.dst % 64 == 0 &&
  decide (64 ≤ l.bytes ∧ l.bytes ≤ 16777216) && l.bytes % 64 == 0 && l.vaultBytes % 64 == 0 &&
  decide (l.vaultBytes ≤ l.bytes) &&
  (if l.srcVault || l.dstVault then l.vaultBytes != 0 else l.vaultBytes == 0) &&
  (l.op == 1 || l.pattern == 0) && numAt d 0x28 24 == 0

structure OutDesc where
  src : Nat
  bytes : Nat
  deriving DecidableEq, Repr

def outDesc (d : List Byte) : OutDesc := { src := numAt d 0 8, bytes := numAt d 8 4 }

def outLegal (outLen : Nat) (d : List Byte) : Bool :=
  let o := outDesc d
  d.length == 64 && o.src % 64 == 0 && decide (1 ≤ o.bytes ∧ o.bytes ≤ outLen) && numAt d 0xC 52 == 0

/-! ## Anvil descriptors (R301) -/

structure AnvilDesc where
  path : Nat
  wFmt : Nat
  xFmt : Nat
  outFmt : Nat
  queue : Bool
  scaleKind : Nat
  sidecar : Bool
  m : Nat
  k : Nat
  n : Nat
  x : Nat
  xStride : Nat
  xScale : Nat
  w : Nat
  sc : Nat
  y : Nat
  yStride : Nat
  base : Nat
  consumer : Nat
  deriving DecidableEq, Repr

def anvilDesc (d : List Byte) : AnvilDesc :=
  let mode := numAt d 3 1
  { path := numAt d 0 1, wFmt := numAt d 1 1, xFmt := numAt d 2 1, outFmt := mode % 2, queue := bitAt mode 1
    scaleKind := bitsOf mode 2 2, sidecar := bitAt mode 4, m := numAt d 4 4, k := numAt d 8 4, n := numAt d 0xC 4
    x := numAt d 0x10 8, xStride := numAt d 0x18 4, xScale := numAt d 0x1C 4, w := numAt d 0x20 8
    sc := numAt d 0x28 8, y := numAt d 0x30 8, yStride := numAt d 0x38 4, base := numAt d 0x3C 2
    consumer := numAt d 0x3E 1 }

/-- The element format of an Anvil code. -/
def anvilFmt : Nat → EFmt
  | 0 => .q8
  | 1 => .q4
  | 2 => .e4m3
  | 3 => .e5m2
  | _ => .bf16

/-- Bytes of `n` packed elements. -/
def EFmt.bytes (f : EFmt) (n : Nat) : Nat := ceilDiv (n * f.width) 8

/-- The combinations of Table — Anvil paths (R293). -/
def anvilPath (a : AnvilDesc) : Bool :=
  match a.path with
  | 0 => (decide (a.wFmt ≤ 1) && a.xFmt == 0) ||
    ((a.wFmt == 2 || a.wFmt == 3) && (a.xFmt == 2 || a.xFmt == 3))
  | 1 => decide (a.wFmt ≤ 4) && a.xFmt == 4
  | 2 => a.wFmt == 1 && a.xFmt == 4
  | _ => false

def anvilLegal (d : List Byte) : Bool :=
  let a := anvilDesc d
  let mode := numAt d 3 1
  let f8 := a.wFmt == 2 || a.wFmt == 3
  d.length == 64 && anvilPath a && decide (mode < 64) && a.scaleKind != 3 && decide (bitsOf mode 4 2 ≤ 1) &&
  decide (1 ≤ a.m ∧ a.m ≤ (if a.path = 2 then 64 else 65536)) && decide (1 ≤ a.k ∧ a.k ≤ 65536) &&
  decide (1 ≤ a.n ∧ a.n ≤ (if a.sidecar then 65536 else 4096 - a.base)) && decide (a.base ≤ 4095) &&
  (!a.sidecar || a.base == 0) &&
  a.x % 64 == 0 && a.xStride % 16 == 0 && decide ((anvilFmt a.xFmt).bytes a.k ≤ a.xStride) &&
  (if a.path = 0 then a.scaleKind != 1 || decide (a.xScale < 256) else a.xScale == 0) &&
  (!(a.path == 0 && a.scaleKind == 1) || decide (a.xScale ≤ 31 ∨ 224 ≤ a.xScale)) &&
  a.w % 64 == 0 && a.sc % 64 == 0 && (a.scaleKind != 2 || a.sc == 0) &&
  (a.scaleKind != 2 || (a.path == 0 && f8) || (a.path == 1 && a.wFmt == 4)) &&
  (a.wFmt != 4 || a.scaleKind == 2) &&
  (if a.queue then a.outFmt == 0 && a.y == 0 && a.yStride == 0
   else a.yStride % 16 == 0 && decide (a.n * outBytes a.outFmt ≤ a.yStride) && a.consumer == 0x3F) &&
  numAt d 0x3F 1 == 0

/-- Bytes of the whole weight operand: panels of 32 channels (R303). -/
def AnvilDesc.wBytes (a : AnvilDesc) : Nat := ceilDiv a.n 32 * a.k * (anvilFmt a.wFmt).bytes 32

/-- Bytes of the scale source: N entries of 4 bytes, or 32 sidecar elements for each panel. -/
def AnvilDesc.scBytes (a : AnvilDesc) : Nat :=
  if a.scaleKind = 2 then 0
  else if a.sidecar then ceilDiv a.n 32 * 32 * (if a.scaleKind = 0 then 2 else 1) else 4 * a.n

/-- The number of output tiles (R307). -/
def AnvilDesc.tiles (a : AnvilDesc) : Nat := ceilDiv a.m 16 * ceilDiv a.n 32

/-! ## Tarn and Riddle descriptors (R344, R354) -/

structure TarnDesc where
  op : Nat
  layers : Nat
  kvDim : Nat
  win : Nat
  vaultCap : Nat
  beams : Nat
  pos : Nat
  newEv : Nat
  pcap : Nat
  out : Nat
  src : Nat
  sel : Nat
  new : Nat
  deriving DecidableEq, Repr

def tarnDesc (d : List Byte) : TarnDesc :=
  { op := numAt d 0 1, layers := numAt d 1 1, kvDim := numAt d 2 2, win := numAt d 4 4, vaultCap := numAt d 8 2
    beams := numAt d 0xA 1, pos := numAt d 0xB 1, newEv := numAt d 0xC 1, pcap := numAt d 0xD 1
    out := numAt d 0x10 8, src := numAt d 0x18 8, sel := numAt d 0x20 8, new := numAt d 0x28 8 }

/-- Bytes of a beam area's tokens, rounded up (R350). -/
def TarnDesc.tk (t : TarnDesc) : Nat := ceilDiv (2 * t.beams * t.pcap) 64 * 64

/-- Bytes of a whole beam area. -/
def TarnDesc.area (t : TarnDesc) : Nat := t.tk + t.layers * t.beams * t.pcap * (4 * t.kvDim)

/-- Bytes that a WINDOW_READ delivers (R348). -/
def TarnDesc.winBytes (t : TarnDesc) : Nat := 64 + 4 * t.layers * t.win * t.kvDim

def tarnLegal (d : List Byte) : Bool :=
  let t := tarnDesc d
  d.length == 64 && decide (t.op ≤ 5) && decide (1 ≤ t.layers ∧ t.layers ≤ 16) &&
  decide (32 ≤ t.kvDim ∧ t.kvDim ≤ 512) && t.kvDim % 32 == 0 &&
  (if t.op = 0 then decide (32 ≤ t.win ∧ t.win ≤ 65536) && t.win % 32 == 0 else t.win == 0) &&
  (if t.op = 2 then t.vaultCap == 0 else decide (1 ≤ t.vaultCap ∧ t.vaultCap ≤ 2048)) &&
  (if t.op = 2 then decide (1 ≤ t.beams ∧ t.beams ≤ 64) && decide (1 ≤ t.pcap) && decide (t.pos < t.pcap)
   else t.beams == 0 && t.pcap == 0 && t.pos == 0) &&
  (if t.op = 1 then decide (1 ≤ t.newEv ∧ t.newEv ≤ 64) else t.newEv == 0) &&
  numAt d 0xE 2 == 0 && t.out % 64 == 0 && t.src % 64 == 0 && t.new % 64 == 0 && numAt d 0x30 16 == 0 &&
  (t.op != 2 || decide (t.out + t.area ≤ t.src) || decide (t.src + t.area ≤ t.out))

structure RidDesc where
  beam : Bool
  bf16 : Bool
  withId : Bool
  prior : Nat
  n : Nat
  k : Nat
  beams : Nat
  inVa : Nat
  inStride : Nat
  out : Nat
  priorVa : Nat
  idVa : Nat
  deriving DecidableEq, Repr

def ridDesc (d : List Byte) : RidDesc :=
  { beam := numAt d 0 1 == 1, bf16 := numAt d 1 1 == 1, withId := numAt d 2 1 == 1, prior := numAt d 3 1
    n := numAt d 4 4, k := numAt d 8 2, beams := numAt d 0xA 1, inVa := numAt d 0x10 8, inStride := numAt d 0x18 4
    out := numAt d 0x20 8, priorVa := numAt d 0x28 8, idVa := numAt d 0x30 8 }

/-- Candidates. -/
def RidDesc.c (r : RidDesc) : Nat := if r.beam then r.beams * r.n else r.n

/-- Bytes of one score and of one record. -/
def RidDesc.eb (r : RidDesc) : Nat := if r.bf16 then 2 else 4
def RidDesc.recBytes (r : RidDesc) : Nat := if !r.beam && r.withId then 12 else 8

def ridLegal (d : List Byte) : Bool :=
  let r := ridDesc d
  d.length == 64 && decide (numAt d 0 1 ≤ 1) && decide (numAt d 1 1 ≤ 1) && decide (numAt d 2 1 ≤ 1) &&
  decide (r.prior ≤ 2) && (!r.beam || !r.withId) && (r.beam || r.prior == 0) && decide (1 ≤ r.k) &&
  decide (r.k ≤ (if r.beam then 64 else 4096)) && decide (r.k ≤ r.c) && decide (r.c ≤ 16777216) &&
  (if r.beam then decide (1 ≤ r.beams ∧ r.beams ≤ 64) && r.inStride % 64 == 0 && decide (r.n * r.eb ≤ r.inStride)
   else r.beams == 0 && r.inStride == 0) &&
  (r.prior == 2 || r.priorVa == 0) && (r.withId || r.idVa == 0) &&
  numAt d 0xB 5 == 0 && numAt d 0x1C 4 == 0 && numAt d 0x38 8 == 0

/-! ## Remote descriptors (R381) -/

structure RemDesc where
  push : Bool
  reqs : Nat
  offsIn : Nat
  idxIn : Nat
  bytes : Nat
  data : Nat
  stride : Nat
  dstOff : Nat
  deriving DecidableEq, Repr

def remDesc (d : List Byte) : RemDesc :=
  { push := numAt d 0 1 == 1, reqs := numAt d 2 2, offsIn := numAt d 4 4, idxIn := numAt d 8 4
    bytes := numAt d 0xC 4, data := numAt d 0x10 8, stride := numAt d 0x18 4, dstOff := numAt d 0x1C 4 }

def remLegal (reqPerFrame : Nat) (d : List Byte) : Bool :=
  let r := remDesc d
  d.length == 64 && decide (numAt d 0 1 ≤ 1) && numAt d 1 1 == 0 && decide (1 ≤ r.reqs) &&
  decide (r.reqs ≤ reqPerFrame) && decide (r.reqs ≤ 1024) &&
  (!r.push || decide (1 ≤ r.bytes ∧ r.bytes ≤ 4096)) && decide (r.bytes ≤ r.stride) && numAt d 0x20 32 == 0

/-! ## Planisher descriptors (R318, R324, R325) -/

/-- An address-table entry. -/
structure AbEnt where
  va : Nat
  len : Nat
  pitch : Nat
  deriving DecidableEq, Repr

def abEnt (d : List Byte) (i : Nat) : AbEnt :=
  { va := numAt d (0x40 + 16 * i) 8, len := numAt d (0x48 + 16 * i) 4, pitch := numAt d (0x4C + 16 * i) 2 }

/-- The instructions of a program. -/
def plProgram (d : List Byte) : List Nat := (List.range (numAt d 0 2)).map (fun i => numAt d (0x100 + 8 * i) 8)

/-- The opcode, and the memory opcodes: loads, stores, STF. -/
def plOp (w : Nat) : Nat := w % 256
def plIsLoad (o : Nat) : Bool := decide (0x10 ≤ o) && decide (o ≤ 0x15)
def plIsStore (o : Nat) : Bool := decide (0x18 ≤ o) && decide (o ≤ 0x1D)

/-- The address-table entry of a memory instruction. -/
def plAb (w : Nat) : Nat := bitsOf w 14 3

/-- Does the program write through entry i? -/
def plWrites (d : List Byte) (i : Nat) : Bool :=
  (plProgram d).any (fun w => (plIsStore (plOp w) || plOp w == 3) && plAb w == i)

/-! ## The ranges of check 8 (R141) -/

/-- Where a range must translate: Mere, vault memory. -/
inductive Where where
  | mere | vault
  deriving DecidableEq, Repr

/-- A range that a lode derives from the plan. -/
structure Rng where
  va : Nat
  len : Nat
  write : Bool
  tgt : Where
  pageable : Bool
  deriving DecidableEq, Repr

/-- Bytes from the first to the last of `n` rows of `len` bytes at a stride. -/
def rowsLen (n stride len : Nat) : Nat := if n = 0 then 0 else (n - 1) * stride + len

/-- The pieces of [va, va + n) that lie in one 4 KiB page each: address and length. -/
def pagePieces : Nat → Nat → Nat → List (Nat × Nat)
  | 0, _, _ => []
  | fuel + 1, va, n =>
    if n = 0 then [] else
    let k := min n (4096 - va % 4096)
    (va, k) :: pagePieces fuel (va + k) (n - k)

/-- The ranges of a step for one instance: `off` is instance × SCRATCH_STRIDE, which every Mere address takes (R160). -/
def stepRanges (p : PStep) (d : List Byte) (off : Nat) : List Rng :=
  let mere (va len : Nat) (w : Bool) : Rng := ⟨va + off, len, w, .mere, false⟩
  let pageable (va len : Nat) (w : Bool) : Rng := ⟨va + off, len, w, .mere, p.pageable⟩
  let l := match p.eng with
    | some .host => let o := outDesc d; [mere o.src o.bytes false]
    | some .ladle =>
      let l := ladleDesc d
      let side (va : Nat) (v w : Bool) : Rng :=
        ⟨if v then va else va + off, l.bytes, w, if v then .vault else .mere, p.pageable⟩
      (if l.op = 0 then [side l.src l.srcVault false] else []) ++ [side l.dst l.dstVault true]
    | some .punch =>
      let b := bagSet d
      let e := outBytes b.outFmt
      [pageable b.outVa (rowsLen b.bags b.outStride (b.maxDim * e)) true,
       pageable b.oneOutVa (rowsLen b.oneMax b.oneStride (b.maxDim * e)) true]
    | some .anvil =>
      let a := anvilDesc d
      [mere a.x (rowsLen a.m a.xStride ((anvilFmt a.xFmt).bytes a.k)) false, mere a.w a.wBytes false,
       mere a.sc a.scBytes false] ++
      (if a.queue then [] else [mere a.y (rowsLen a.m a.yStride (a.n * outBytes a.outFmt)) true])
    | some .planisher =>
      ((List.range 8).filter (fun i => (abEnt d i).len != 0)).map (fun i =>
        mere (abEnt d i).va (abEnt d i).len (plWrites d i))
    | some .tarn =>
      let t := tarnDesc d
      match t.op with
      | 0 => [mere t.out t.winBytes true]
      | 1 => [mere t.src (t.newEv * t.layers * (4 * t.kvDim)) false]
      | 2 => [mere t.out t.area true, mere t.src t.area false, mere t.sel (8 * t.beams) false,
              mere t.new (t.layers * t.beams * (4 * t.kvDim)) false]
      | _ => []
    | some .riddle =>
      let r := ridDesc d
      [mere r.inVa (if r.beam then rowsLen r.beams r.inStride (r.n * r.eb) else r.n * r.eb) false,
       mere r.out (r.k * r.recBytes) true] ++
      (if r.prior = 2 then [mere r.priorVa (8 * r.beams) false] else []) ++
      (if r.withId then [mere r.idVa (8 * r.n) false] else [])
    | some .causeway =>
      let r := remDesc d
      [pageable r.data (rowsLen r.reqs r.stride r.bytes) (!r.push)]
    | _ => []
  l.filter (fun r => r.len != 0)

/-- The descriptor bytes of a step, as the plan image holds them. -/
def Plan.desc (p : Plan) (x : PStep) : List Byte := slice p.descs x.descOff x.descLen

/-- May a step's ranges lie in PAGEABLE objects: its own flag, and for a bag set the flags of the gather steps, since the
finisher writes the outputs in their ticks (notes/assumptions/116.md)? -/
def Plan.pageFlag (p : Plan) (l : Lode) (x : PStep) : Bool :=
  if x.eng = some .punch then
    (p.stepsOf l).all (fun y => y.eng != some .vault || y.descOff != x.descOff || y.pageable)
  else x.pageable

/-- The ranges of check 8 for a lode: those of every instance, since the instance is known at admission only
(notes/assumptions/16.md). -/
def Plan.check8 (p : Plan) (l : Lode) : List Rng :=
  (p.stepsOf l).flatMap (fun x =>
    (List.range (max 1 (if l.scratchStride = 0 then 1 else l.instances))).flatMap (fun i =>
      stepRanges { x with pageable := p.pageFlag l x } (p.desc x) (i * l.scratchStride)))

/-- Does the lode address memory data-dependently (R142): rows, remap arrays, sidecars, slabs, update rows? -/
def Plan.dataDependent (p : Plan) (l : Lode) : Bool :=
  (p.stepsOf l).any (fun x => match x.eng with
    | some .punch | some .solder => true
    | some .tarn => (tarnDesc (p.desc x)).op != 2
    | _ => false)

/-- The pages of a range: the first, and how many. -/
def Rng.pages (r : Rng) : Nat × Nat := (r.va / 4096, (r.va + r.len - 1) / 4096 - r.va / 4096 + 1)

/-- Does a run touch a page range of its context by check 8? -/
def State.runTouches (s : State) (r : Run) (c page pages : Nat) : Bool :=
  r.ctx == c && (match s.runPlan r with
    | none => false
    | some p => match p.lode r.lode with
      | none => false
      | some l => (p.check8 l).any (fun g => overlaps g.pages.1 g.pages.2 page pages))

/-- Does a lode that addresses memory data-dependently reach a page range of a context: it may reach every PINNED object
there (notes/assumptions/17.md)? -/
def State.dataReach (s : State) (p : Plan) (l : Lode) (c page pages : Nat) : Bool :=
  p.dataDependent l && s.mobs.any (fun m => m.ctx == c && m.pinned && overlaps m.page m.pages page pages)

/-- Does a run use entries in a page range (Table — Invalidation steps): those of its check 8, and those of the PINNED
objects that it addresses data-dependently? -/
def State.runUses (s : State) (r : Run) (c page pages : Nat) : Bool :=
  r.ctx == c &&
  (s.runTouches r c page pages ||
   (match s.runPlan r with
    | some p => (match p.lode r.lode with | some l => s.dataReach p l c page pages | none => false)
    | none => false))

/-- Does an admitted run hold an entry in a page range? -/
def State.runHolds (s : State) (r : Run) (c page pages : Nat) : Bool :=
  decide (r.phase ≠ .queued) && s.runUses r c page pages

/-- Does an admitted PF run hold a translation into polder p (R82)? -/
def State.holdsInto (s : State) (r : Run) (p : Nat) : Bool :=
  r.owner == 16 && s.mobs.any (fun m => m.owner == 16 && m.ctx == r.ctx &&
    m.ents.any (fun e => s.entInto p e && s.runHolds r r.ctx e.page e.pages))

/-- The admitted runs that a drain still awaits. -/
def State.drainRuns (s : State) (c page pages : Nat) : List Run := s.runs.filter (fun r => s.runHolds r c page pages)

end Sys2Proof.Machine
end

