-- ==== Sys2Proof/Machine/Access.lean ====
section
/-! DEFINITION. Accesses of engines to vault memory and Mere through a context (spec/01_architecture.md, R9;
spec/07_translation.md, R141 to R143), granule by granule. -/

namespace Sys2Proof.Machine
open Sys2Proof

/-- Does the access start a 64-byte unit that counts? -/
def newUnit (va : Nat) (first : Bool) : Bool := first || decide (va % 64 < 32)

/-- Count a 64-byte unit of frame work that a vault serves (Table — Device counters, Table — Polder counters): `j` is
0 for a read and 1 for a write. -/
def State.countUnit (s : State) (w : Who) (a j : Nat) : State :=
  match w, s.locate a with
  | .run _ o, some (v, _) => (s.count (2 * v + j) 1).countP o (64 + j) 1
  | _, _ => s

/-- A translation of a run's step fails: the record of R143, and the run's code. -/
def State.xlFail (s : State) (w : Who) (k va : Nat) (write : Bool) : State :=
  match w with
  | .run id _ => (match s.run? id with
    | some r => s.faultRecord r k 0 va write false
    | none => s)
  | .background => s

/-- Read the part of [va, va + n) that lies in one granule. -/
def State.readPiece (s : State) (c va n : Nat) (pinned first : Bool) (w : Who) : Got × State :=
  match (if pinned then s.xlatePinned c va false else s.xlate c va false) with
  | .vault a => (if newUnit va first then s.countUnit w a 0 else s).readWeir w a n
  | .mere o => s.readMere o n
  | .host _ => (.fail .faultPinned, s.xlFail w kBadTarget va false)
  | .fail k => (.fail .faultPinned, s.xlFail w k va false)

/-- Write a piece that lies in one granule. -/
def State.writePiece (s : State) (c va : Nat) (bs : List Byte) (pinned first : Bool) (w : Who) : Option Err × State :=
  match (if pinned then s.xlatePinned c va true else s.xlate c va true) with
  | .vault a => (if newUnit va first then s.countUnit w a 1 else s).writeWeir w a bs
  | .mere o => s.writeMere o bs
  | .host _ => (some .faultPinned, s.xlFail w kBadTarget va true)
  | .fail k => (some .faultPinned, s.xlFail w k va true)

/-- Read granule by granule, in ascending order; the first failure ends the read. -/
def State.readLoop (c : Nat) (pinned : Bool) (w : Who) : Nat → Bool → State → Nat → Nat → List Byte → Got × State
  | 0, _, s, _, _, acc => (.bytes acc, s)
  | fuel + 1, first, s, va, n, acc =>
    if n = 0 then (.bytes acc, s) else
    let k := min n (32 - va % 32)
    match s.readPiece c va k pinned first w with
    | (.fail e, s') => (.fail e, s')
    | (.bytes b, s') => State.readLoop c pinned w fuel false s' (va + k) (n - k) (acc ++ b)

/-- Read `n` bytes at a device-virtual address of a context. -/
def State.readVa (s : State) (c va n : Nat) (pinned : Bool) (w : Who) : Got × State :=
  State.readLoop c pinned w (n / 32 + 2) true s va n []

/-- Write granule by granule, in ascending order; the first failure ends the write. -/
def State.writeLoop (c : Nat) (pinned : Bool) (w : Who) : Nat → Bool → State → Nat → List Byte → Option Err × State
  | 0, _, s, _, _ => (none, s)
  | fuel + 1, first, s, va, bs =>
    if bs.isEmpty then (none, s) else
    let k := 32 - va % 32
    match s.writePiece c va (bs.take k) pinned first w with
    | (some e, s') => (some e, s')
    | (none, s') => State.writeLoop c pinned w fuel false s' (va + k) (bs.drop k)

/-- Write bytes at a device-virtual address of a context. -/
def State.writeVa (s : State) (c va : Nat) (bs : List Byte) (pinned : Bool) (w : Who) : Option Err × State :=
  State.writeLoop c pinned w (bs.length / 32 + 2) true s va bs

/-- Read bytes at a device-physical address, without a translation. -/
def State.readPhys (w : Who) : Nat → State → Nat → Nat → List Byte → Got × State
  | 0, s, _, _, acc => (.bytes acc, s)
  | fuel + 1, s, a, n, acc =>
    if n = 0 then (.bytes acc, s) else
    let k := min n (32 - a % 32)
    match s.readVault w a k with
    | (.fail e, s') => (.fail e, s')
    | (.bytes b, s') => State.readPhys w fuel s' (a + k) (n - k) (acc ++ b)

/-- Write bytes at a device-physical address, without a translation. -/
def State.writePhys (w : Who) : Nat → State → Nat → List Byte → Option Err × State
  | 0, s, _, _ => (none, s)
  | fuel + 1, s, a, bs =>
    if bs.isEmpty then (none, s) else
    let k := 32 - a % 32
    match s.writeVault w a (bs.take k) with
    | (some e, s') => (some e, s')
    | (none, s') => State.writePhys w fuel s' (a + k) (bs.drop k)

/-- Read Mere by its offset, granule by granule. -/
def State.readMereN : Nat → State → Nat → Nat → List Byte → Got × State
  | 0, s, _, _, acc => (.bytes acc, s)
  | fuel + 1, s, o, n, acc =>
    if n = 0 then (.bytes acc, s) else
    let k := min n (32 - o % 32)
    match s.readMere o k with
    | (.fail e, s') => (.fail e, s')
    | (.bytes b, s') => State.readMereN fuel s' (o + k) (n - k) (acc ++ b)

end Sys2Proof.Machine
end

