-- ==== Sys2Proof/Machine/Doorbell.lean ====
section
/-! DEFINITION. Run blocks: the acceptance checks, the berth checks, check 8, and input staging (spec/05, R90 to R92;
spec/06, R113 to R121, R127, R128; spec/07, R141 to R144, R151, R152). -/

namespace Sys2Proof.Machine
open Sys2Proof

/-- The pages answer: the start has reached READY (R509). -/
def State.ready (s : State) : Bool := s.rd F.RST_BOOT_PHASE 0 == 5

/-! ## Check 8 (R141) -/

/-- What check 8 finds on one page. -/
inductive C8 where
  | ok
  | fault (kind : Nat)
  | bad (kind : Nat)
  | retired
  deriving DecidableEq, Repr

/-- Is the 4 KiB page at a device-physical address in a retired vault (R223)? -/
def State.pageRetired (s : State) (a : Nat) : Bool :=
  match s.locate a with | some (v, _) => s.retired v | none => false

/-- Classify one page of a range (Table — Check 8 outcomes). -/
def State.c8page (s : State) (c page : Nat) (g : Rng) : C8 :=
  match s.mobAt c page with
  | none => .bad kNoObject
  | some m =>
    if m.broken then .bad kBroken else
    if !m.pinned && !g.pageable then .bad kClass else
    match m.entAt page with
    | none => if m.pinned then .bad kNotPresent else .fault kNotPresent
    | some e =>
      match e.res with
      | .badEntry => .bad kBadEntry
      | .badTarget => .bad kBadTarget
      | .leaf t addr w =>
        if g.write && !(w && m.write) then (if m.pinned then .bad kWriteDenied else .fault kWriteDenied) else
        let a := addr + (page - e.page) * 4096
        if !s.mayMap (s.ownerOf .context c) t a then .bad kBadTarget else
        match g.tgt with
        | .mere => if t = 1 then .ok else .bad kBadTarget
        | .vault =>
          if t ≠ 0 ∨ (s.locate a).isNone = true then .bad kBadTarget
          else if s.pageRetired a then .retired else .ok

/-- Check 8 on one page of a range, with the records and faults it makes; the codes it fails with are gathered. A run that
would create a 65th fault fails at once (R144). -/
def State.c8step (r : Run) (g : Rng) (st : State × List Err) (page : Nat) : State × List Err :=
  let (s, errs) := st
  if errs.contains .faultUnserviced then st else
  let va := max g.va (page * 4096)
  match s.c8page r.ctx page g with
  | .ok => (s, errs)
  | .retired => (s, errs ++ [.vaultRetired])
  | .bad k => (s.faultRecord r k 0 va g.write false, errs ++ [.faultPinned])
  | .fault k =>
    let (ok, s1) := s.raiseFault r k va g.write
    (s1, if ok then errs else errs ++ [.faultUnserviced])

/-- Check 8 of a run: every page of every range, in order (R141). The run fails with the lowest code found (R98). -/
def State.check8 (s : State) (r : Run) (p : Plan) (l : Lode) : State × Option Err :=
  let (s1, errs) := (p.check8 l).foldl (fun st g =>
    let (first, n) := g.pages
    ((List.range n).map (first + ·)).foldl (State.c8step r g) st) (s, [])
  (s1, Err.lowest errs)

/-- Is check 8 of a lode deferred by a hold (R151)? -/
def State.deferred8 (s : State) (c : Nat) (p : Plan) (l : Lode) : Bool :=
  (p.check8 l).any (fun g => s.heldRange c g.pages.1 g.pages.2) ||
  s.holds.any (fun h => h.ctx == c && s.dataReach p l c h.page h.pages)

/-! ## Check 7 (R116, R128) -/

/-- The tests 1 to 4 of one reference; `self` is the run under test, whose own holds do not count. -/
def State.refCheck (s : State) (self o : Nat) (b : BerthRef) (other : Option BerthRef) (isIn : Bool) (l : Lode) :
    Option Err :=
  let cap := s.berthSize o b.staithe - 16
  let held := { s with runs := s.runs.filter (fun r => r.id != self) }.berthHeld o b
  let same := match other with | some x => x.staithe == b.staithe && x.berth == b.berth | none => false
  if s.bme o = false ∨ s.rdi F.STH_CFG_EN o b.staithe = 0 ∨ b.berth < s.rdi F.STH_CFG_RAW o b.staithe ∨
      s.rdi F.STH_CFG_BERTHS o b.staithe ≤ b.berth then some .berthNotOwned
  else if held || same then some .berthNotOwned
  else if cap < b.len then some .berthTooShort
  else if isIn then (if b.len < l.minIn then some .berthTooShort else none)
  else if (if b.len = 0 then cap else b.len) < l.outLen then some .berthTooShort
  else none

/-- Check 7: the input reference, then the output reference; a berth that the lode needs must not be marked absent. A run
whose payload is staged no longer needs its input berth (R152, notes/assumptions/23.md). -/
def State.check7 (s : State) (r : Run) (l : Lode) : Option Err :=
  let inE := if r.staging = .done ∧ r.noInput = false then none
    else if r.noInput then (if l.minIn = 0 then none else some Err.berthTooShort)
    else s.refCheck r.id r.owner r.inRef (if r.noOutput then none else some r.outRef) true l
  match inE with
  | some e => some e
  | none =>
    if r.noOutput then (if l.outLen = 0 then none else some .berthTooShort)
    else s.refCheck r.id r.owner r.outRef (if r.noInput then none else some r.inRef) false l

/-- Take the holds on a run's berths (R117, R121): word 0 of each header is written DEVICE_BUSY. The input berth of a run
that is staged has returned and is not held again. -/
def State.holdBerths (s : State) (r : Run) : State :=
  let s1 := if r.noInput || r.inHeld || r.staging == .done then s else s.header0 r.owner r.inRef ownDeviceBusy r.inRef.len
  let s2 := if r.noOutput || r.outHeld then s1 else s1.header0 r.owner r.outRef ownDeviceBusy 0
  s2.setRun { r with inHeld := !r.noInput && r.staging != .done, outHeld := !r.noOutput, deferred := false
                     staging := if r.noInput then .done else if r.staging = .none then .waiting else r.staging }

/-! ## Acceptance (R90) -/

/-- Drop a run block (R90, R99, R115): the count, the event, and the owner's counter. -/
def State.dropBlock (s : State) (q reason fence tag : Nat) : State :=
  let o := s.ownerOf .queue q
  let s1 := if reason = 1 then (s.bump F.Q_STATUS_TORN q 1).count (devCnt 1) 1
    else (s.bump F.Q_STATUS_DROPPED q 1).count (devCnt 2) 1
  (s1.countP o 1 1).raise o evRunDropped (s.localOf .queue q + reason * 2 ^ 16 + fence * 2 ^ 32) tag

/-- Does acceptance check 2 take the context as ENABLED (R90, R398)? The context must be its queue owner's. -/
def State.ctxOpen (s : State) (o c : Nat) : Bool :=
  s.rd F.CTX_STATUS_STATE c == 1 && s.ownerOf .context c == o && s.pwrActive

/-- Runs accepted and not yet admitted on a queue. -/
def State.depth (s : State) (q : Nat) : Nat := (s.runs.filter (fun r => r.queue == q && r.phase == .queued)).length

/-- Checks 5 to 8 of a run that holds its fence. -/
def State.acceptRun (s : State) (r : Run) : State :=
  let s0 := { s with runs := s.runs ++ [r], nextRun := s.nextRun + 1 }
  if 256 ≤ s.depth r.queue then s0.failRun r.id .queueFull else
  match s.planOf r.owner with
  | none => s0.failRun r.id .lodeUnknown
  | some p =>
    match p.lode r.lode with
    | none => s0.failRun r.id .lodeUnknown
    | some l =>
      let r := { r with steps := (p.stepsOf l).map (fun _ => StepSt.waiting) }
      let s0 := s0.setRun r
      match s0.check7 r l with
      | some e => s0.failRun r.id e
      | none =>
        if r.owner ≠ 16 ∧ s.rd F.PLD_STATE_TDISP r.owner = 3 then s0.failRun r.id .polderReset else
        if s.deferred8 r.ctx p l then s0.setRun { r with deferred := true } else
        match s0.check8 r p l with
        | (s1, some e) => s1.failRun r.id e
        | (s1, none) => s1.holdBerths r

/-- A whole run block reaches queue `q` (R90, R91). -/
def State.runBlock (s : State) (q : Nat) (data : List Byte) : State :=
  let o := s.ownerOf .queue q
  let c := s.rd F.Q_CFG_CTX q
  let w (i : Nat) : Nat := numAt data (8 * i) 8
  let v := w 3 % 2 ^ 17
  if !s.ctxOpen o c then s.dropBlock q 2 v (w 6) else
  match s.fenceGlobal o v with
  | none => s.dropBlock q 3 v (w 6)
  | some f =>
    if !s.inWindow c v then s.dropBlock q 3 v (w 6) else
    match s.fence f with
    | .armed =>
      let id := s.nextRun
      let s1 := { s with fences := SMap.put .armed s.fences f (.held (.run id)) }
      let s2 := (s1.count (devCnt 0) 1).countP o 0 1
      s2.acceptRun
        { id := id, owner := o, ctx := c, queue := q, lode := w 0 % 2 ^ 12, block := (List.range 8).map w, fence := f
          phase := .queued, accepted := s.tick, deferred := false, staging := .none, staged := [], stageN := 0, reserve := 0
          inHeld := false, outHeld := false, admittedAt := 0, under := none, inst := 0, pin := 0, steps := [], data := []
          stalledTicks := 0, stop := none, late := [], trunc := false }
    | _ => s.dropBlock q 4 v (w 6)

/-- The queue whose QUEUE page a function reaches at BAR2 page `page`: the PF at every queue, a polder at the queues it
holds (R55, R56). -/
def State.queueAt (s : State) (fn : Fn) (page : Nat) : Option Nat :=
  match fn with
  | .pf => if page < 1024 then some page else none
  | .vf p => if s.pst p.val = pFree then none else s.fromLocal p.val .queue page

/-- A write to BAR2 that reaches the doorbell area of a QUEUE page: one whole 64-byte aligned request is a run block,
every other write is torn and dropped whole (R115). A function that does not own the queue has no effect (R57). -/
def State.doorbell (s : State) (fn : Fn) (page off : Nat) (data : List Byte) : State :=
  if !s.ready then s else
  match s.queueAt fn page with
  | none => s
  | some q =>
    if s.ownerOf .queue q ≠ fn.idx then s
    else if off + data.length ≤ 0x400 ∨ 0x1000 ≤ off then s
    else if data.length = 64 ∧ off % 64 = 0 ∧ 0x400 ≤ off then s.runBlock q data
    else s.dropBlock q 1 0 0

/-- DOORBELL_WRITE (R90). -/
def execDoorbellWrite (fn : Fn) (page off : Nat) (data : List Byte) (s : State) : Res :=
  .next (s.doorbell fn page off data)

/-- A run's deferred checks complete once no hold covers its ranges (R152): check 8 against the re-walked store, then
check 7, then the berth holds. -/
def State.deferredCheck (s : State) (id : Nat) : State :=
  match s.run? id with
  | none => s
  | some r =>
    if !r.deferred then s else
    match s.planOf r.owner with
    | none => s.failRun id .lodeUnknown
    | some p =>
      match p.lode r.lode with
      | none => s.failRun id .lodeUnknown
      | some l =>
        if s.deferred8 r.ctx p l then s else
        match s.check8 r p l with
        | (s1, some e) => s1.failRun id e
        | (s1, none) =>
          match s1.check7 r l with
          | some e => s1.failRun id e
          | none => s1.holdBerths r

/-- DEFERRED_CHECK_COMPLETE (R152). -/
def execDeferredCheckComplete (run : Nat) (s : State) : Res := .next (s.deferredCheck run)

/-! ## Staging (R118 to R120) -/

/-- Bytes of a run's input that are staged: at most the lode's maximum input length (R118). -/
def State.stageLen (s : State) (r : Run) : Nat :=
  match s.runLode r with
  | some l => min r.inRef.len l.maxIn
  | none => 0

/-- Bytes of the owner's staging buffer in use. -/
def State.stageUsed (s : State) (o : Nat) : Nat := ((s.runs.filter (fun r => r.owner == o)).map (·.reserve)).sum

/-- The runs of an owner whose staging waits for space (Table — `STH_STAGE`): the first payload that does not fit after those
ahead of it, and every one behind it, since staging starts in acceptance order. -/
def State.stageWaits (s : State) (o : Nat) : Nat :=
  let rooms := (s.runs.filter (fun r => r.owner == o && r.staging == .waiting)).map (fun r => ceilDiv (s.stageLen r) 256 * 256)
  ((List.range rooms.length).filter (fun i => decide (2 ^ 20 < s.stageUsed o + ((rooms.take (i + 1)).sum)))).length

/-- Start staging the owner's first waiting payload, in acceptance order, when it fits (R118). The reads carry the
requester ID of the owner's function; with Bus Master Enable 0 they cannot be issued and the run fails (R120). -/
def State.stagingStart (s : State) (o : Nat) : State :=
  match s.runs.find? (fun r => r.owner == o && r.staging == .waiting) with
  | none => s
  | some r =>
    let n := s.stageLen r
    let room := ceilDiv n 256 * 256
    if 2 ^ 20 < s.stageUsed o + room then s
    else if s.bme o = false then s.failRun r.id .poison
    else (s.setRun { r with staging := .reading, stageN := n, reserve := room }).hostRead o (s.berthAddr o r.inRef + 16) n

/-- STAGING_START (R118). -/
def execStagingStart (fn : Fn) (s : State) : Res := .next (s.stagingStart fn.idx)

/-- The last staging read completes: the bytes are kept, and the input berth returns to HOST (R121). -/
def State.stagingDone (s : State) (id : Nat) (data : List Byte) : State :=
  match s.run? id with
  | none => s.berthReturns id
  | some r =>
    if r.staging ≠ .reading then s else
    let n := r.stageN
    let units := ceilDiv n 64
    let s1 := if r.inHeld then s.header0 r.owner r.inRef ownHost n else s
    ((s1.setRun { r with staging := .done, staged := slice data 0 n, inHeld := false }).count (devCnt 10) units).countP
      r.owner 4 units

/-- STAGING_COMPLETE (R121). -/
def execStagingComplete (run : Nat) (data : List Byte) (s : State) : Res := .next (s.stagingDone run data)

/-- A staging read fails: the run fails with E_POISON, and a bad completion is reported through AER (R120). -/
def State.stagingFail (s : State) (id : Nat) (how : Cpl) : State :=
  let aer (t : State) (o : Nat) : State := if how = .notIssued then t else t.emit (.aer o how)
  match s.run? id with
  | none => (match s.returning.find? (fun x => x.run == id) with
    | some x => if how = .ok then s else (aer s x.owner).berthReturns id
    | none => s)
  | some r =>
    if r.staging = .reading ∧ how ≠ .ok then
      State.failRun ((aer s r.owner).modRun id (fun x => { x with staging := .none })) id .poison
    else s

/-- STAGING_READ_FAILED (R120). -/
def execStagingReadFailed (run : Nat) (how : Cpl) (s : State) : Res := .next (s.stagingFail run how)

end Sys2Proof.Machine
end

