-- ==== Sys2Proof/Machine/Hasps.lean ====
section
/-! DEFINITION. Hasps (spec/18_resets_hasps_longops.md, R422 to R426). `HSP_STATEn` holds the state; `HSP_ACQUIREn`
reads from it. -/

namespace Sys2Proof.Machine
open Sys2Proof

/-- The identity of an agent (Table — Holder identity), with its present reset generation (R423). -/
def State.identity (s : State) : Agent → Nat
  | .fn .pf => s.rd F.JCT_RESET_GEN_CTRL 0 * 2 ^ 16
  | .fn (.vf p) => 1 + p.val * 16 + s.rd F.PLD_STATE_GEN p.val * 2 ^ 16
  | .mgc => 2 + s.rd F.JCT_RESET_GEN_MGMT 0 * 2 ^ 16

/-- The identity of nobody. -/
def noHolder : Nat := 3

/-- The hasp states of `HSP_STATEn`. -/
def hspFree : Nat := 0
def hspHeld : Nat := 1
def hspBroken : Nat := 2

/-- The states and the holder of a hasp. -/
def State.hspState (s : State) (n : Nat) : Nat := s.rdi F.HSP_STATE_STATE 0 n
def State.hspIdent (s : State) (n : Nat) : Nat := s.rdi F.HSP_STATE_IDENT 0 n

/-- Set a hasp. -/
def State.setHasp (s : State) (n st ident : Nat) : State :=
  (s.wri F.HSP_STATE_STATE 0 n st).wri F.HSP_STATE_IDENT 0 n ident

/-- Can the agent reach the HASP page now? The page is shared by the functions (R58); a FREE polder has no pages (R59);
the MGC has its own port (R422). -/
def State.haspReach (s : State) : Agent → Bool
  | .fn .pf => s.ready
  | .fn (.vf p) => s.ready && s.pst p.val != pFree
  | .mgc => true

/-- The value that the agent's read returns. -/
def State.haspReturn (s : State) (who : Agent) (ident status : Nat) : State :=
  match who with
  | .fn f => s.emit (.ret f.idx (ident + status * 2 ^ 32))
  | .mgc => s.emit (.retMgc (ident + status * 2 ^ 32))

/-- The polder that EV_HASP_BROKEN names: that of the former holder, else that of the acquirer
(notes/assumptions/19.md). -/
def brokenSrc (former : Nat) (who : Agent) : Option Nat :=
  if former % 4 = 1 then some (former / 16 % 16) else
  match who with
  | .fn (.vf p) => some p.val
  | _ => none

/-- An acquire (Table — Hasp states). A function that does not reach the page reads 0 (R59). -/
def State.haspAcquire (s : State) (who : Agent) (n : Nat) : State :=
  if !s.haspReach who then (match who with | .fn f => s.emit (.ret f.idx 0) | .mgc => s) else
  let me := s.identity who
  let st := s.hspState n
  let old := s.hspIdent n
  if st = hspHeld then
    if old = me then s.haspReturn who me 3 else s.haspReturn who old 0
  else if st = hspBroken then
    let s1 := (s.setHasp n hspHeld me).haspReturn who me 2
    let s2 := s1.raise 16 evHaspBroken n old (brokenSrc old who)
    match who with
    | .fn (.vf p) => s2.raise p.val evHaspBroken n old
    | _ => s2
  else (s.setHasp n hspHeld me).haspReturn who me 1

/-- HASP_ACQUIRE (R422). -/
def execHaspAcquire (who : Agent) (n : Fin 64) (s : State) : Res := .next (s.haspAcquire who n.val)

/-- A release frees a hasp that the writer holds, and is ignored otherwise (R426). -/
def State.haspRelease (s : State) (who : Agent) (n : Nat) : State :=
  if s.haspReach who && s.hspState n == hspHeld && s.hspIdent n == s.identity who then s.setHasp n hspFree noHolder
  else s

/-- HASP_RELEASE (R422). -/
def execHaspRelease (who : Agent) (n : Fin 64) (s : State) : Res := .next (s.haspRelease who n.val)

/-- Hasps held by an identity class and index go BROKEN (R424). -/
def State.breakHasps (s : State) (q : Nat → Bool) : State :=
  (List.range 64).foldl (fun t n =>
    if t.hspState n = hspHeld ∧ q (t.hspIdent n) = true then t.wri F.HSP_STATE_STATE 0 n hspBroken else t) s

/-- The holders of a scope: the PF, polder p, the MGC. -/
def isPfHolder (ident : Nat) : Bool := ident % 4 == 0
def isPldHolder (p ident : Nat) : Bool := ident % 4 == 1 && ident / 16 % 16 == p
def isMgcHolder (ident : Nat) : Bool := ident % 4 == 2

end Sys2Proof.Machine
end

