-- ==== Sys2Proof/Machine/Polders.lean ====
section
/-! DEFINITION. Polders: their states, their objects, and zeroing on reassignment (spec/04_polders_isolation.md,
R63 to R72, R542, R543; FUNCTION reset, R39, R409, R412). -/

namespace Sys2Proof.Machine
open Sys2Proof

/-- A command on a page of the PF: it acts once the pages answer, and only for the PF (R57, R509). -/
def State.pfDo (s : State) (fn : Fn) (t : State) : State := if s.ready && decide (fn = .pf) then t else s

/-- A command on the owner page of a function; a FREE polder has no pages (R59). -/
def State.ownDo (s : State) (fn : Fn) (t : State) : State :=
  if s.ready && (fn.idx == 16 || s.pst fn.idx != pFree) then t else s

/-- A command on the CTX page of a context: only its owner acts (R57). -/
def State.ctxDo (s : State) (fn : Fn) (c : Nat) (t : State) : State :=
  if s.ready && s.ownerOf .context c == fn.idx then t else s

/-! ## Clearing registers -/

/-- Registers of one page whose offsets satisfy `q` return to their reset values. -/
def State.clearRegs (s : State) (b : Block) (inst : Nat) (q : Nat → Bool) : State :=
  { s with flds := s.flds.filter (fun e =>
      !(e.1 / 262144 == b.code * 1024 + inst && q (e.1 / 64 % 4096))) }

/-- Offsets behind the page header (R42). -/
def bodyOff (off : Nat) : Bool := decide (0x040 ≤ off)

/-- A context is cleared: its registers, its objects, its faults, its holds, its ring, its coalesced signals. -/
def State.clearContext (s : State) (c : Nat) : State :=
  let s1 : State := { s with
    mobs := s.mobs.filter (fun m => m.ctx != c)
    faults := s.faults.filter (fun f => f.ctx != c)
    holds := s.holds.filter (fun h => h.ctx != c)
    lastFault := SMap.drop c s.lastFault
    rings := SMap.drop (32 + c) s.rings
    coal := SMap.drop c s.coal }
  s1.clearRegs .ctx c bodyOff

/-- The fences of a block that are not HELD become ARMED, with word 0 (R87, R107). -/
def State.clearBlock (s : State) (b : Nat) : State :=
  { s with fences := s.fences.filter (fun e =>
      !(e.1 / 512 == b && (match e.2 with | .held _ => false | _ => true))) }

/-- The objects of a block of memory-object slots are gone. -/
def State.clearMobBlock (s : State) (b : Nat) : State :=
  { s with mobs := s.mobs.filter (fun m => m.slot / 64 != b) }

/-- What an object of each kind leaves behind when its owner changes. -/
def State.clearObject (s : State) (k : ObjKind) (i : Nat) : State :=
  match k with
  | .context => s.clearContext i
  | .queue => s.clearRegs .queue i bodyOff
  | .fenceBlock => s.clearBlock i
  | .mobjBlock => s.clearMobBlock i
  | .extent => s

/-- Owner-page registers that a reset of a polder clears (Table — State under reset): event ring, Staithes,
memory-object and plan registers, table and slab registers. -/
def ownerClears (off : Nat) : Bool :=
  (decide (0x0C0 ≤ off) && decide (off < 0x138)) || (decide (0x1F8 ≤ off) && decide (off < 0x400)) ||
  (decide (0x400 ≤ off) && decide (off < 0x418)) || (decide (0x4C0 ≤ off) && decide (off < 0x4E0))

/-- A polder's plan, table slots and cleared registers (Table — State under reset). -/
def State.clearOwner (s : State) (p : Nat) : State :=
  let s1 : State := { s with
    plans := SMap.drop p s.plans
    stagedPlans := SMap.drop p s.stagedPlans
    planArmed := SMap.drop p s.planArmed
    rings := SMap.drop p s.rings
    tables := s.tables.filter (fun e => e.1 / 1024 != p) }
  s1.clearRegs .owner p ownerClears

/-! ## Zeroing -/

/-- Bytes of an item: 2 MiB, 1 MiB in each of eight slices, 1 MiB. -/
def ZeroItem.size : ZeroItem → Nat
  | .extent _ => 0x200000
  | .way _ => 0x800000
  | .mereUnit _ => 0x100000

/-- The extents, ways and Mere units that a polder holds. -/
def State.polderItems (s : State) (p : Nat) : List ZeroItem :=
  (s.heldBy p .extent).map (fun e => ZeroItem.extent e.1) ++
  (bitList 16 (s.rd F.PLD_WAYS_WAYS p)).map ZeroItem.way ++
  (bitList 64 (s.rd F.PLD_MERE_UNITS p)).map ZeroItem.mereUnit

/-- Make the zeroing of an item pending, or give a pending one to polder p (16: no polder's own). An extent with a part in a
retired vault is never zeroed (R225). -/
def State.addZero (s : State) (z : ZeroItem) (p : Nat) : State :=
  if s.neverZeroed z then s else
  if s.zeroPending z then
    { s with zeroJobs := s.zeroJobs.map (fun j => if j.item = z then { j with polder := p } else j) }
  else { s with zeroJobs := s.zeroJobs ++ [{ item := z, written := 0, polder := p }] }

/-- The items of a polder that are not clean and that its zeroing writes (R225, R543). -/
def State.unclean (s : State) (p : Nat) : List ZeroItem :=
  (s.polderItems p).filter (fun z => !s.isClean z && !s.neverZeroed z)

/-- Begin polder p's own zeroing: every item that is not clean (R543). `JCT_ZERO.BUSY` rises, whatever caused the zeroing
(Table — `JCT_ZERO`). -/
def State.beginZero (s : State) (p : Nat) : State :=
  let items := s.unclean p
  let s1 := items.foldl (fun t z => t.addZero z p) s
  ((s1.wr F.PLD_ZERO_PROGRESS_DONE p 0).wr F.PLD_ZERO_PROGRESS_TOTAL p
    ((items.map ZeroItem.size).sum / 0x100000)).wr F.JCT_ZERO_BUSY 0 (setBit (s.rd F.JCT_ZERO_BUSY 0) p)

/-- Clear the bytes [k, k + n) of a byte table. -/
def zeroRange (k n : Nat) (m : SMap Byte) : SMap Byte := SMap.clear (fun a => decide (k ≤ a) && decide (a < k + n)) m

/-- The ECC of the granules of a zeroed byte range is clean. -/
def zeroEcc (k n : Nat) (m : SMap Ecc) : SMap Ecc :=
  SMap.clear (fun g => decide (k ≤ 32 * g) && decide (32 * g < k + n)) m

/-- Write zeros over [off, off + n) of an item (R542). A retired vault takes no write (R223). -/
def State.zeroBytes (s : State) (z : ZeroItem) (off n : Nat) : State :=
  match z with
  | .mereUnit u =>
    let k := u * 0x100000 + off
    { s with mere := zeroRange k n s.mere, mereEcc := zeroEcc k n s.mereEcc }
  | .extent e =>
    let lo := e * 0x200000 + off
    (List.range (ceilDiv n 4096)).foldl (fun t i =>
      match t.locate (e * 0x200000 + off + 4096 * i) with
      | none => t
      | some (v, l) =>
        if t.retired v then t else
        let k := vaultKey v l
        let m := min 4096 (n - 4096 * i)
        { t with vault := zeroRange k m t.vault, vaultEcc := zeroEcc k m t.vaultEcc
                 writeBacks := SMap.put [] t.writeBacks v ((SMap.get [] t.writeBacks v).filter
                   (fun g => !(decide (k ≤ 32 * g) && decide (32 * g < k + m)))) })
      { s with lines := s.lines.filter (fun x => match x.2 with
          | some h => !(overlaps (h.line * 128) 128 lo n)
          | none => true) }
  | .way w => { s with lines := s.lines.filter (fun e => e.1 % 16 != w) }

/-- A zeroed item is clean; an extent that neither owner held meanwhile is free, so the PF's (R69, R86). -/
def State.cleaned (s : State) (z : ZeroItem) : State :=
  let s1 := s.setDirty z false
  match z with
  | .extent e => if s.ownerOf .extent e = noOwner then s1.setOwner .extent e 16 0 else s1
  | _ => s1

/-- Advance one job by up to `n` bytes; a finished item is clean and its job is gone. Progress counts in whole MiB. -/
def State.zeroStep (s : State) (j : ZeroJob) (n : Nat) : State :=
  let m := min n (j.item.size - j.written)
  let w := j.written + m
  let s1 := s.zeroBytes j.item j.written m
  let s2 := if j.polder < 16 then
      s1.bump F.PLD_ZERO_PROGRESS_DONE j.polder (w / 0x100000 - j.written / 0x100000) else s1
  if j.item.size ≤ w then
    { s2 with zeroJobs := s2.zeroJobs.filter (fun j' => !decide (j'.item = j.item)) }.cleaned j.item
  else { s2 with zeroJobs := s2.zeroJobs.map (fun j' => if j'.item = j.item then { j' with written := w } else j') }

/-- Does a zeroing make progress now? A polder's own stands while its operation is halted. -/
def State.zeroRuns (s : State) (j : ZeroJob) : Bool :=
  if j.polder < 16 then (match s.op? .pld j.polder with | some o => s.opRuns o | none => false)
  else !s.selfHalted

/-! ## Polder registers -/

/-- `PLD_STATE.LAST_STATUS` codes. -/
def pldOk : Nat := 0
def pldBadState : Nat := 1
def pldBusy : Nat := 3

/-- Set the last status. -/
def State.pldStatus (s : State) (p v : Nat) : State := s.wr F.PLD_STATE_LAST_STATUS p v

/-- The reset bookkeeping of a polder. -/
def State.aux (s : State) (p : Nat) : PolderAux := SMap.get polderAux0 s.polders p
def State.setAux (s : State) (p : Nat) (a : PolderAux) : State :=
  { s with polders := SMap.put polderAux0 s.polders p a }

/-- The epoch domain of an owner returns to its reset values (R253). -/
def State.resetEpochs (s : State) (o : Nat) : State :=
  { s with jnlMap := SMap.drop o s.jnlMap }.clearRegs .owner o (fun off => decide (0x480 ≤ off) && decide (off < 0x4B8))

/-! ## The commands of `PLD_CMD` -/

/-- CREATE (Table — Polder states, R253, R414, R466). -/
def State.pldCreate (s : State) (p : Nat) (fe : Option Nat) : State :=
  if s.pst p ≠ pFree then s.pldStatus p pldBadState else
  let s1 := (s.bump F.PLD_STATE_GEN p 1).clearRegs .polder p (fun off => decide (0x050 ≤ off) && decide (off < 0x0A8))
  let s2 := ((s1.clearRegs .owner p bodyOff).clearOwner p).resetEpochs p
  let s3 : State := { s2 with
    bases := (List.range 160).foldl (fun m j => SMap.put 0 m (160 * p + j) (SMap.get 0 s.counts (1280 + 160 * p + j)))
      s2.bases }
  let s4 := ((s3.setAux p polderAux0).wr F.PLD_STATE_STATE p pConfiguring).pldStatus p pldOk
  s4.doneFence 16 fe ⟨.pld, p⟩ none

/-- PLD_CREATE (R71). -/
def execPldCreate (fn : Fn) (p : Fin 16) (fence : Option Nat) (s : State) : Res :=
  .next (s.pfDo fn (s.pldCreate p.val fence))

/-- Is a way or Mere unit that polder p is to receive still being zeroed (R66)? -/
def State.receiving (s : State) (p : Nat) : Bool :=
  s.zeroJobs.any (fun j => j.polder == 16 && (match j.item with
    | .way w => bitAt (s.rd F.PLD_WAYS_WAYS p) w
    | .mereUnit u => bitAt (s.rd F.PLD_MERE_UNITS p) u
    | .extent _ => false))

/-- ACTIVATE (Table — Polder states, R66). -/
def State.pldActivate (s : State) (p : Nat) (fe : Option Nat) : State :=
  if s.pst p ≠ pConfiguring then s.pldStatus p pldBadState
  else if s.receiving p then s.pldStatus p pldBusy else
  let s1 := ((s.setAux p { s.aux p with waitBoundary := true }).wr F.PLD_STATE_STATE p pActive).pldStatus p pldOk
  s1.doneFence 16 fe ⟨.pld, p⟩ none

/-- PLD_ACTIVATE (R71). -/
def execPldActivate (fn : Fn) (p : Fin 16) (fence : Option Nat) (s : State) : Res :=
  .next (s.pfDo fn (s.pldActivate p.val fence))

/-- A polder's objects other than extents return to the PF (R86). -/
def State.returnObjects (s : State) (p : Nat) : State :=
  [ObjKind.context, .queue, .fenceBlock, .mobjBlock].foldl (fun t k =>
    (t.heldBy p k).foldl (fun u e => (u.clearObject k e.1).setOwner k e.1 16 0) t) s

/-- Start or restart the record of a polder's own zeroing. -/
def State.zeroOp (s : State) (p : Nat) (fe : Option Nat) : State :=
  (s.dropOp ⟨.pld, p⟩).startOp .pld p 16 fe 0 (.zeroPolder p)

/-- End the long operations that a polder owns, with E_POLDER_RESET; its own zeroing continues (R428). -/
def State.endPolderOps (s : State) (p : Nat) : State :=
  (s.ops.filter (fun o => o.owner == p)).foldl (fun t o => t.endOp o (some .polderReset)) s

/-- A FUNCTION reset or DESTROY of a polder revokes its grants; reserved requests are answered REFUSED_GRANT at their
completion, and a grant with none is REVOKED at once (R377). -/
def State.revokeGrants (s : State) (p : Nat) : State :=
  let mine (e : Nat × Option Grant) : Bool := match e.2 with
    | some g => (g.st == 1 || g.st == 2) && bitsOf (g.words.getD 0 0) 4 4 == p
    | none => false
  let s1 : State := { s with services := s.services.map (fun v =>
    if s.grants.any (fun e => e.1 == v.slot && mine e) then { v with refuse := true } else v) }
  { s1 with grants := s1.grants.map (fun e => if mine e then
      (e.1, e.2.map (fun g => { g with st := if s1.services.any (fun v => v.slot == e.1) then 2 else 3 })) else e) }

/-- Lines of the Hummock in a polder's ways are invalid. -/
def State.dropLines (s : State) (p : Nat) : State :=
  { s with lines := s.lines.filter (fun e => !bitAt (s.rd F.PLD_WAYS_WAYS p) (e.1 % 16)) }

/-- Move a polder to ZEROING: its objects return to the PF and its own zeroing begins. -/
def State.enterZeroing (s : State) (p : Nat) : State :=
  (((s.returnObjects p).clearOwner p).wr F.PLD_STATE_STATE p pZeroing).beginZero p

/-- DESTROY (Table — Polder states, R377, R424, R428). Runs queued in CONFIGURING fail too, so that their fences signal
(R97). -/
def State.pldDestroy (s : State) (p : Nat) (fe : Option Nat) : State :=
  if s.pst p = pConfiguring then
    ((((s.endPolderOps p).failAll (fun r => r.owner == p) .polderReset).zeroOp p fe).pldStatus p pldOk).enterZeroing p
  else if s.pst p = pActive then
    let s1 := (((s.wr F.PLD_STATE_STATE p pDraining).pldStatus p pldOk).breakHasps (isPldHolder p)).revokeGrants p
    let s2 := (s1.endPolderOps p).failAll (fun r => r.owner == p && r.phase != .admitted) .polderReset
    (s2.stopAll (fun r => r.owner == p) .polderReset).zeroOp p fe
  else s.pldStatus p pldBadState

/-- PLD_DESTROY (R71). -/
def execPldDestroy (fn : Fn) (p : Fin 16) (fence : Option Nat) (s : State) : Res :=
  .next (s.pfDo fn (s.pldDestroy p.val fence))

/-- A zeroing of polder p's memory that is under way or halted, that of a STOP_INTERFACE_REQUEST included (R66, R85). While
the polder drains, its zeroing has not begun. -/
def State.zeroOn (s : State) (p : Nat) : Option LongOp :=
  if s.pst p = pDraining then none else s.op? .pld p

/-- ZERO (R66, R430, Table — Polder states). A RESUME while the power state is not ACTIVE is illegal (R430). -/
def State.pldZero (s : State) (p : Nat) (fe : Option Nat) : State :=
  match s.zeroOn p with
  | none => s.pldStatus p pldBadState
  | some o =>
    if !o.halted then s.pldStatus p pldBusy
    else if !s.pwrActive then s.illegal .polder p 0x040
    else
      let (f, s1) := s.takeFence 16 fe ⟨.pld, p⟩
      (s1.setOp { o with halted := false, fences := f.toList ++ o.fences, last := f }).pldStatus p pldOk

/-- PLD_ZERO (R71). -/
def execPldZero (fn : Fn) (p : Fin 16) (fence : Option Nat) (s : State) : Res :=
  .next (s.pfDo fn (s.pldZero p.val fence))

/-- ABORT (Table — Polder states): in RESETTING and ZEROING the zeroing halts, the fence of the command that started or
last resumed it signals E_ABORTED, and the ABORT's own fence signals E_NONE. -/
def State.pldAbort (s : State) (p : Nat) (fe : Option Nat) : State :=
  match s.zeroOn p with
  | none => s.pldStatus p pldBadState
  | some o =>
    if o.halted ∨ (s.pst p ≠ pResetting ∧ s.pst p ≠ pZeroing) then s.pldStatus p pldBadState else
    let s1 := (s.setOp { o with
      halted := true, fences := o.fences.filter (fun f => o.last != some f), last := none }).pldStatus p pldOk
    (s1.signalOpt o.last (some .aborted)).doneFence 16 fe ⟨.pld, p⟩ none

/-- PLD_ABORT (R71). -/
def execPldAbort (fn : Fn) (p : Fin 16) (fence : Option Nat) (s : State) : Res :=
  .next (s.pfDo fn (s.pldAbort p.val fence))

/-! ## Drain, clearing and zeroing -/

/-- No step of a DRAINING polder is in flight any longer (Table — Polder states). -/
def State.drainComplete (s : State) (p : Nat) : State :=
  if s.pst p = pDraining ∧ s.runs.all (fun r => r.owner != p) = true then s.enterZeroing p else s

/-- POLDER_DRAIN_COMPLETE (R71). -/
def execPolderDrainComplete (p : Fin 16) (s : State) : Res := .next (s.drainComplete p.val)

/-- The clearing of a RESETTING polder is done: it returns, or its zeroing begins (Table — Polder states). -/
def State.clearingDone (s : State) (p : Nat) : State :=
  if s.pst p ≠ pResetting ∨ (s.op? .pld p).isSome then s
  else if (s.aux p).zeroDue then (s.zeroOp p none).beginZero p
  else s.wr F.PLD_STATE_STATE p (s.aux p).resetFrom

/-- POLDER_CLEARING_DONE (R71). -/
def execPolderClearingDone (p : Fin 16) (s : State) : Res := .next (s.clearingDone p.val)

/-- A zeroing of a polder's memory has completed, whatever caused it: BUSY falls and DONE rises (Table — `JCT_ZERO`). -/
def State.orderDone (s : State) (p : Nat) : State :=
  (s.wr F.JCT_ZERO_BUSY 0 (clrBit (s.rd F.JCT_ZERO_BUSY 0) p)).wr F.JCT_ZERO_DONE 0
    (setBit (s.rd F.JCT_ZERO_DONE 0) p)

/-- A polder's own zeroing completes (Table — Polder states, R85, R253): a ZEROING polder releases everything and is
FREE; a RESETTING one returns to the state its reset began in; one that STOP_INTERFACE_REQUEST zeroed stays as it is, and
what a run has written meanwhile is zeroed first (R85). An extent with a part in a retired vault never becomes free
(R225). -/
def State.zeroingComplete (s : State) (p : Nat) : State :=
  match s.op? .pld p with
  | none => s
  | some o =>
    if s.pst p = pDraining ∨ s.opRuns o = false ∨ s.zeroJobs.any (fun j => j.polder == p) = true then s
    else if !(s.unclean p).isEmpty then (s.unclean p).foldl (fun t z => t.addZero z p) s
    else
    let s1 := ((s.wr F.PLD_STATE_TDISP p 0).resetEpochs p).orderDone p
    if s.pst p = pZeroing then
      let s2 := (s1.heldBy p .extent).foldl (fun t e =>
        t.setOwner .extent e.1 (if s1.isClean (.extent e.1) then 16 else noOwner) 0) s1
      let s3 := s2.clearRegs .polder p (fun off => decide (0x060 ≤ off) && decide (off < 0x090))
      (s3.wr F.PLD_STATE_STATE p pFree).endOp o none
    else if s.pst p = pResetting then (s1.wr F.PLD_STATE_STATE p (s.aux p).resetFrom).endOp o none
    else s1.endOp o none

/-- POLDER_ZEROING_COMPLETE (R71). -/
def execPolderZeroingComplete (p : Fin 16) (s : State) : Res := .next (s.zeroingComplete p.val)

/-- The zeroing of a way ends by its event: the model holds no bytes of a way (notes/assumptions/20.md). An extent or a
Mere unit is done once all its bytes are written. -/
def ZeroJob.finished (j : ZeroJob) : Bool :=
  match j.item with
  | .way _ => true
  | z => decide (z.size ≤ j.written)

/-- The first zeroing on reassignment that has ended: the item becomes clean and passes (R543). -/
def State.resourceZeroed (s : State) : State :=
  match s.zeroJobs.find? (fun j => j.polder == 16 && j.finished && s.zeroRuns j) with
  | none => s
  | some j => s.zeroStep j j.item.size

/-- RESOURCE_ZEROING_DONE (R543). -/
def execResourceZeroingDone (s : State) : Res := .next s.resourceZeroed

/-! ## FUNCTION reset (R39, R409, R412, Table — Polder states) -/

/-- A polder's host objects are cleared and stay held; its queues stay bound to their contexts. -/
def State.clearObjects (s : State) (p : Nat) : State :=
  let s1 := (s.heldBy p .context).foldl (fun t e => t.clearContext e.1) s
  let s2 := (s1.heldBy p .queue).foldl (fun t e => t.clearRegs .queue e.1 (fun off => off == 0x048)) s1
  (s2.heldBy p .mobjBlock).foldl (fun t e => t.clearMobBlock e.1) s2

/-- A FUNCTION reset of polder p; `order` says that the MGC ordered it. -/
def State.functionReset (s : State) (p : Nat) (order : Bool) : State :=
  let st := s.pst p
  if st = pFree ∨ st = pDraining ∨ st = pZeroing then s
  else if st = pResetting then
    if order then s.setAux p { s.aux p with zeroDue := true } else s
  else
    let due := s.rd F.PLD_CFG_SCRUB_ON_FLR p == 1 || order || s.rd F.PLD_STATE_TDISP p != 0
    let s1 := (((s.breakHasps (isPldHolder p)).revokeGrants p).endPolderOps p).dropHolds p
    let s2 := s1.failAll (fun r => r.owner == p) .polderReset
    let s3 := ((s2.clearObjects p).clearOwner p).dropLines p
    let s4 := (s3.bump F.PLD_STATE_GEN p 1).wr F.PLD_STATE_STATE p pResetting
    s4.setAux p { resetFrom := st, zeroDue := due, waitBoundary := (s.aux p).waitBoundary, lockWait := none, ide := (s.aux p).ide }

/-- An MGC zero order: a change of MGC_REQ bit p from 0 to 1 (R39). A FREE polder ignores it; a polder that a WARM reset
kept (R416) takes it before READY too. -/
def State.zeroOrder (s : State) (p : Nat) : State :=
  let req := s.rd F.JCT_ZERO_MGC_REQ 0
  if bitAt req p then s else
  let s1 := s.wr F.JCT_ZERO_MGC_REQ 0 (setBit req p)
  if s.pst p = pFree then s1 else s1.functionReset p true

/-- MGC_ZERO_ORDER (R39). -/
def execMgcZeroOrder (p : Fin 16) (s : State) : Res := .next (s.zeroOrder p.val)

/-! ## `PLD_ASSIGN` (R56, R64 to R69, R86, R87, R140, R225, R543) -/

/-- The statuses of `PLD_ASSIGN_STATUS`. -/
def asOk : Nat := 0
def asOwned : Nat := 1
def asNotZeroed : Nat := 2
def asLimit : Nat := 3
def asLocked : Nat := 4
def asBadState : Nat := 5
def asOutOfSet : Nat := 6
def asInUse : Nat := 7

/-- Assign one object to polder p: the status, and the state after it (R64, R65, R68, R69, R225, R543). The order of the
tests, and LIMIT for an object that does not exist or that is one too many, are the model's choice
(notes/assumptions/108.md). -/
def State.assignOne (s : State) (p : Nat) (k : ObjKind) (ctx i : Nat) : Nat × State :=
  if objCount k ≤ i then (asLimit, s)
  else if k = .queue ∧ s.ownerOf .context ctx ≠ p then (asOwned, s)
  else if s.ownerOf k i = p then (asOk, s)
  else if s.ownerOf k i = noOwner then (asNotZeroed, s)
  else if s.ownerOf k i ≠ 16 then (asOwned, s)
  else if objLimit k ≤ (s.heldBy p k).length then (asLimit, s)
  else if k = .extent ∧ s.extentInSet p i = false then (asOutOfSet, s)
  else if k = .extent ∧ (s.extentRetired i = true ∨ s.zeroPending (.extent i) = true) then (asNotZeroed, s)
  else if k = .extent ∧ s.isClean (.extent i) = false then
    (asNotZeroed, (s.addZero (.extent i) 16).setOwner .extent i noOwner 0)
  else
    let s1 := (s.clearObject k i).setOwner k i p (s.freeLocal p k)
    (asOk, if k = .queue then s1.wr F.Q_CFG_CTX i ctx else s1)

/-- A fence of the block is HELD. -/
def State.blockHeld (s : State) (b : Nat) : Bool :=
  s.fences.any (fun e => e.1 / 512 == b && (match e.2 with | .held _ => true | _ => false))

/-- The window of one of the polder's contexts covers some fence of the block with this local index (R69). -/
def State.blockCovered (s : State) (p l : Nat) : Bool :=
  (s.heldBy p .context).any (fun e =>
    overlaps (s.rd F.CTX_FENCES_BASE e.1) (s.rd F.CTX_FENCES_COUNT e.1) (512 * l) 512)

/-- Is the object in use, so that its release stops (R69, R140)? -/
def State.inUse (s : State) (p : Nat) (k : ObjKind) (i : Nat) : Bool :=
  match k with
  | .context => s.runs.any (fun r => r.ctx == i && r.phase != .queued)
  | .fenceBlock => s.blockHeld i || s.blockCovered p (s.localOf .fenceBlock i)
  | .mobjBlock => s.mobs.any (fun m => m.slot / 64 == i)
  | _ => false

/-- Release one object of polder p. The queued runs of a released context fail as at a reset of the context
(notes/assumptions/21.md). An extent that is not clean is nobody's until it is zeroed (R69, R72, R543). -/
def State.releaseOne (s : State) (p : Nat) (k : ObjKind) (i : Nat) : Nat × State :=
  if s.ownerOf k i ≠ p then (asOwned, s)
  else if s.inUse p k i then (asInUse, s)
  else
    let s0 := if k = .context then s.failAll (fun r => r.ctx == i) .contextReset else s
    let s1 := s0.clearObject k i
    (asOk, if k = .extent ∧ (s.isClean (.extent i) = false ∨ s.extentRetired i = true)
      then (s1.addZero (.extent i) 16).setOwner k i noOwner 0 else s1.setOwner k i 16 0)

/-- Take objects in ascending order until one fails (R68). -/
def objLoop (f : State → Nat → Nat × State) : Nat → State → Nat → Nat → Nat × Nat × State
  | 0, s, _, done => (asOk, done, s)
  | n + 1, s, i, done =>
    match f s i with
    | (0, s') => objLoop f n s' (i + 1) (done + 1)
    | (e, s') => (e, done, s')

/-- A `PLD_ASSIGN` command: the lock and state tests, in an order that is the model's choice (notes/assumptions/108.md),
then the objects (R68, R83). A COUNT of 0 is illegal. -/
def State.assignCmd (s : State) (p count first : Nat) (f : State → Nat → Nat × State) : State :=
  if count = 0 then s.illegal .polder p 0x090 else
  let set (t : State) (e done : Nat) : State :=
    (t.wr F.PLD_ASSIGN_STATUS_STATUS p e).wr F.PLD_ASSIGN_STATUS_DONE p done
  if s.rd F.PLD_STATE_TDISP p = 1 ∨ s.rd F.PLD_STATE_TDISP p = 2 then set s asLocked 0
  else if s.pst p ≠ pConfiguring ∧ s.pst p ≠ pActive then set s asBadState 0
  else
    let (e, done, t) := objLoop f count s first 0
    set t e done

/-- PLD_ASSIGN (R68). -/
def execPldAssign (fn : Fn) (p : Fin 16) (kind : ObjKind) (index count : Nat) (ctx : Fin 256) (s : State) : Res :=
  .next (s.pfDo fn (s.assignCmd p.val count index (fun t i => t.assignOne p.val kind ctx.val i)))

/-- PLD_RELEASE (R69). -/
def execPldRelease (fn : Fn) (p : Fin 16) (kind : ObjKind) (index count : Nat) (s : State) : Res :=
  .next (s.pfDo fn (s.assignCmd p.val count index (fun t i => t.releaseOne p.val kind i)))

end Sys2Proof.Machine
end

