-- ==== Sys2Proof/Machine/HostObjects.lean ====
section
/-! DEFINITION. Contexts, fences and coalesced interrupts (spec/05_host_objects_fences.md), and the MSI-X tables
(spec/03_register_pages.md, R534). -/

namespace Sys2Proof.Machine
open Sys2Proof

/-- A re-arm write (R95): bit 0 = 0 re-arms a SIGNALLED fence; on a HELD one it is ignored and counted in the holder's
queue. `block` is the block in the writer's view (R88). -/
def State.rearm (s : State) (fn : Fn) (block word data : Nat) : State :=
  if !s.ready then s else
  match s.fenceGlobal fn.idx (512 * block + word) with
  | none => s
  | some f =>
    if data % 2 = 1 then s else
    match s.fence f with
    | .armed => s
    | .signalled _ _ => { s with fences := SMap.put .armed s.fences f .armed }
    | .held (.run id) => (match s.run? id with
      | some r => s.bump F.Q_STATUS_REARM_IGNORED r.queue 1
      | none => s)
    | .held (.cmd _) => s

/-- FENCE_REARM (R95). -/
def execFenceRearm (fn : Fn) (block : Fin 128) (word : Fin 512) (data : Word) (s : State) : Res :=
  .next (s.rearm fn block.val word.val data.toNat)

/-- A CONTEXT reset (R89, R154): queued runs fail at once, admitted ones at their next step boundary; the context's
objects, store entries, faults and holds go, after the signals of its queued runs (notes/assumptions/113.md), and so do its
long operations. -/
def State.ctxReset (s : State) (c : Nat) : State :=
  let s1 := (s.ops.filter (fun o => o.ctx == some c)).foldl (fun t o => t.endOp o (some .contextReset)) s
  let s2 := (s1.wr F.CTX_STATUS_STATE c 2).failAll (fun r => r.ctx == c && r.phase != .admitted) .contextReset
  let s3 : State := { s2 with
    mobs := s2.mobs.filter (fun m => m.ctx != c)
    faults := s2.faults.filter (fun f => f.ctx != c)
    holds := s2.holds.filter (fun h => h.ctx != c) }
  (s3.stopAll (fun r => r.ctx == c) .contextReset).finishCtxReset c

/-- CTX_RESET (R89). -/
def execCtxReset (fn : Fn) (c : Fin 256) (s : State) : Res := .next (s.ctxDo fn c.val (s.ctxReset c.val))

/-- BLOCK_RESET (R107). -/
def State.blockReset (s : State) (block : Nat) (fe : Option Nat) : State :=
  if s.opBusy .fnc 0 then s.illegal .fence 0 0x040 else
  ((s.wr F.FNC_PROGRESS_DONE 0 0).wr F.FNC_PROGRESS_HELD 0 0).startOp .fnc 0 16 fe 512 (.fenceReset block 0)

/-- FNC_BLOCK_RESET (R107). -/
def execFncBlockReset (fn : Fn) (block : Fin 128) (fence : Option Nat) (s : State) : Res :=
  .next (s.pfDo fn (s.blockReset block.val fence))

/-- Process `n` fences of a BLOCK_RESET (R107). -/
def State.fenceSweep (block : Nat) : Nat → State → Nat → State
  | 0, s, _ => s
  | n + 1, s, i =>
    if 512 ≤ i then s else
    let s1 := s.bump F.FNC_PROGRESS_DONE 0 1
    match s.fence (512 * block + i) with
    | .held _ => State.fenceSweep block n (s1.bump F.FNC_PROGRESS_HELD 0 1) (i + 1)
    | _ => State.fenceSweep block n { s1 with fences := SMap.put .armed s1.fences (512 * block + i) .armed } (i + 1)

/-- The coalescing interval of a context has passed (R103). -/
def State.coalesce (s : State) (c : Nat) : State :=
  let k := SMap.get { count := 0, first := 0 } s.coal c
  if k.count = 0 ∨ s.rd F.CTX_IRQ_MODE c ≠ 2 ∨ s.tick < k.first + s.rd F.CTX_IRQ_COAL_TICKS c then s else
  State.sendMsix { s with coal := SMap.put { count := 0, first := 0 } s.coal c { count := 0, first := 0 } }
    (s.ownerOf .context c) (s.rd F.CTX_IRQ_VEC c)

/-- MSIX_COALESCE_TIMEOUT (R103). -/
def execMsixCoalesceTimeout (c : Fin 256) (s : State) : Res := .next (s.coalesce c.val)

/-! ## BAR4 (R534) -/

/-- Bytes of a function's MSI-X table, and its PBA's offset and bytes. -/
def bar4Shape (o : Nat) : Nat × Nat × Nat := if o = 16 then (4096, 0x2000, 32) else (1792, 0x1000, 16)

/-- A dword of an owner's MSI-X table. -/
def State.msixDword (s : State) (o d : Nat) : Nat := SMap.get (msixReset (o * 4096 + d)) s.msix (o * 4096 + d)

/-- Write a dword of an MSI-X table. Of a vector control only the mask bit is kept; a vector that becomes unmasked while
its PBA bit is set sends its message, and the bit clears (PCI Express base specification, notes/assumptions/22.md). -/
def State.msixWrite (s : State) (o d v : Nat) : State :=
  let k := o * 4096 + d
  let s1 := { s with msix := SMap.put (msixReset k) s.msix k (if d % 4 = 3 then v % 2 else v % 2 ^ 32) }
  let vec := d / 4
  if d % 4 = 3 ∧ v % 2 = 0 ∧ SMap.get false s1.pba (o * 4096 + vec) = true then
    State.sendMsix { s1 with pba := SMap.put false s1.pba (o * 4096 + vec) false } o vec
  else s1

/-- The bytes that a read within the table or the PBA returns. -/
def State.bar4Read (s : State) (o off n : Nat) : Nat :=
  let (tbl, pba, _) := bar4Shape o
  if off + n ≤ tbl then s.msixDword o (off / 4) + (if n = 8 then s.msixDword o (off / 4 + 1) * 2 ^ 32 else 0)
  else (List.range (8 * n)).foldl (fun a i =>
    if SMap.get false s.pba (o * 4096 + 8 * (off - pba) + i) then a + 2 ^ i else a) 0

/-- An access to BAR4: an aligned access of 4 or 8 bytes that lies in the table or the PBA is performed; any other read
returns 0 and any other write is ignored. Writes to the PBA are ignored.
R509 and R59 keep pages from answering and speak of no BAR4: it answers before READY, in FAILED and for the VF of a FREE
polder too (notes/assumptions/124.md). -/
def State.bar4 (s : State) (o : Nat) (write : Bool) (off : Nat) (data : List Byte) : State :=
  let n := data.length
  let (tbl, pba, len) := bar4Shape o
  let inTbl := decide (off + n ≤ tbl)
  let inPba := decide (pba ≤ off) && decide (off + n ≤ pba + len)
  if (n = 4 ∨ n = 8) ∧ off % n = 0 ∧ (inTbl || inPba) = true then
    if write then
      if inTbl then
        let s1 := s.msixWrite o (off / 4) (numAt data 0 4)
        if n = 8 then s1.msixWrite o (off / 4 + 1) (numAt data 4 4) else s1
      else s
    else s.emit (.ret o (s.bar4Read o off n))
  else if write then s else s.emit (.ret o 0)

/-- BAR4_ACCESS (R534). For a read, `data` gives only the length. -/
def execBar4Access (fn : Fn) (write : Bool) (off : Nat) (data : List Byte) (s : State) : Res :=
  .next (s.bar4 fn.idx write off data)

end Sys2Proof.Machine
end

