-- ==== Sys2Proof/Machine/Translation.lean ====
section
/-! DEFINITION. Memory-object commands, faults and invalidation (spec/07_translation.md, R138 to R154). -/

namespace Sys2Proof.Machine
open Sys2Proof

/-! ## Registration (R138, R139) -/

/-- Set `MOB_STATUS`. -/
def State.mobStatus (s : State) (o v walked : Nat) : State :=
  (s.wr F.MOB_STATUS_STATUS o v).wr F.MOB_STATUS_WALKED o walked

/-- WRITE (R138): the tests that need no walk, then the walk as a long operation. -/
def State.mobWrite (s : State) (o slot : Nat) (fe : Option Nat) : State :=
  let page := s.rd F.MOB_LO_VA o
  let pages := s.rd F.MOB_HI_PAGES o
  if s.opBusy .mob o ∨ 16384 ≤ slot ∨ pages = 0 ∨ 2 ^ 36 < page + pages then s.illegal .owner o 0x0F0 else
  let stop (v : Nat) : State := (s.mobStatus o v 0).doneFence o fe ⟨.mob, o⟩ (some .faultPinned)
  match s.slotGlobal o slot, s.fromLocal o .context (s.rd F.MOB_LO_CTX o) with
  | some g, some c =>
    if (s.mobOf g).isSome then stop mobSlotValid
    else if s.mobs.any (fun m => m.ctx == c && overlaps m.page m.pages page pages) then stop mobOverlap
    else
      let m : Mob := { slot := g, owner := o, ctx := c, page := page, pages := pages
                       pinned := s.rd F.MOB_LO_CLASS o == 1, write := s.rd F.MOB_LO_WRITE o == 1
                       broken := false, ents := [] }
      (s.mobStatus o mobOk 0).startOp .mob o o fe pages (.mobWrite m page)
  | _, _ => stop mobNotHeld

/-- MOB_WRITE (R138). -/
def execMobWrite (fn : Fn) (slot : Nat) (fence : Option Nat) (s : State) : Res :=
  .next (s.ownDo fn (s.mobWrite fn.idx slot fence))

/-- One step of a WRITE: up to `n` leaf entries are walked. The slot becomes valid in the final step only; a failed
WRITE frees its entries and signals E_FAULT_PINNED. -/
def State.mobWriteStep (s : State) (op : LongOp) (m : Mob) (next n : Nat) (pt : HostTable) : State :=
  let pool := s.storePool m.owner - (s.storeUsed m.owner - m.entries)
  let w := regWalk pt pool n { st := s, mob := m, next := next, walked := 0, fail := none }
  let s1 := w.st.wr F.MOB_STATUS_WALKED op.owner (w.st.rd F.MOB_STATUS_WALKED op.owner + w.walked)
  match w.fail with
  | some v => (s1.wr F.MOB_STATUS_STATUS op.owner v).endOp op (some .faultPinned)
  | none =>
    if m.page + m.pages ≤ w.next then State.endOp { s1 with mobs := s1.mobs ++ [w.mob] } op none
    else s1.setOp { op with task := .mobWrite w.mob w.next, done := op.done + w.walked }

/-- Queued runs that hold entries in a range, those that they address data-dependently among them, release them; their
check 8 becomes deferred (Table — Invalidation steps). -/
def State.deferRuns (s : State) (c page pages : Nat) : State :=
  { s with runs := s.runs.map (fun r =>
      if r.phase = .queued ∧ s.runUses r c page pages = true then { r with deferred := true } else r) }

/-- Take the hold of an invalidation of whole pages (R150, R151). -/
def State.takeHold (s : State) (c page pages : Nat) : State :=
  State.deferRuns { s with holds := s.holds ++ [⟨c, page, pages⟩] } c page pages

/-- CLEAR (R139). A slot that is not valid has no range: the command completes at once. -/
def State.mobClear (s : State) (o slot : Nat) (fe : Option Nat) : State :=
  if s.opBusy .mob o ∨ 16384 ≤ slot then s.illegal .owner o 0x0F0 else
  match s.slotGlobal o slot with
  | none => (s.mobStatus o mobNotHeld 0).doneFence o fe ⟨.mob, o⟩ (some .faultPinned)
  | some g =>
    match s.mobOf g with
    | none => (s.mobStatus o mobOk 0).doneFence o fe ⟨.mob, o⟩ none
    | some m =>
      let w := s.wholePages m.ctx m.page m.pages
      ((s.mobStatus o mobOk 0).takeHold m.ctx w.1 w.2).startOp .mob o o fe 1 (.mobClear g m.ctx w.1 w.2 .drain [])

/-- MOB_CLEAR (R139). -/
def execMobClear (fn : Fn) (slot : Nat) (fence : Option Nat) (s : State) : Res :=
  .next (s.ownDo fn (s.mobClear fn.idx slot fence))

/-- RESUME and ABORT while BUSY = 0 set STATUS to ABORTED and do nothing else (R139). -/
def State.mobResume (s : State) (o : Nat) (fe : Option Nat) : State :=
  if s.opBusy .mob o then s.resumeOp .mob o o fe .owner o 0x0F0 else s.wr F.MOB_STATUS_STATUS o mobAborted

def State.mobAbort (s : State) (o : Nat) (fe : Option Nat) : State :=
  if s.opBusy .mob o then
    s.abortOp .mob o o fe .owner o 0x0F0 (fun t op => (t.dropInval op).wr F.MOB_STATUS_STATUS o mobAborted)
  else s.wr F.MOB_STATUS_STATUS o mobAborted

/-- MOB_RESUME (R139). -/
def execMobResume (fn : Fn) (fence : Option Nat) (s : State) : Res := .next (s.ownDo fn (s.mobResume fn.idx fence))

/-- MOB_ABORT (R139). -/
def execMobAbort (fn : Fn) (fence : Option Nat) (s : State) : Res := .next (s.ownDo fn (s.mobAbort fn.idx fence))

/-! ## Faults (R144 to R148) -/

/-- A pending fault. -/
def State.fault? (s : State) (c id : Nat) : Option PFault := s.faults.find? (fun f => f.ctx == c && f.id == id)

/-- Take a fault out. -/
def State.dropFault (s : State) (f : PFault) : State :=
  { s with faults := s.faults.filter (fun g => !(g.ctx == f.ctx && g.id == f.id)) }

/-- A page is filled: the fault ends, and every step stalled on it resumes at the second tick boundary after the fill
(R146). -/
def State.fillFault (s : State) (f : PFault) : State :=
  let wake (r : Run) : Run :=
    if r.ctx = f.ctx then { r with steps := r.steps.map (fun x => match x with
      | .stalled start since id => if id = f.id then .filled start since (s.tick + 2) else x
      | _ => x) }
    else r
  { (s.dropFault f) with runs := s.runs.map wake }

/-- The steps of a run whose page has been filled resume once their tick has come; the ticks that they stood add to its
stalled ticks (R146, R147). -/
def Run.wake (r : Run) (now : Nat) : Run :=
  let due (x : StepSt) : Option (Nat × Nat × Nat) := match x with
    | .filled start since at_ => if at_ ≤ now then some (start, since, at_) else none
    | _ => none
  { r with
    steps := r.steps.map (fun x => match due x with | some (start, _, _) => .running start | none => x)
    stalledTicks := r.stalledTicks + (r.steps.map (fun x => match due x with | some (_, since, at_) => at_ - since | none => 0)).sum }

/-- A run's access is refused for good: a record with FAULT_ID 0, and E_FAULT_PINNED (R143). -/
def State.failPinned (s : State) (id kind va : Nat) (write : Bool) : State :=
  match s.run? id with
  | none => s
  | some r => (s.faultRecord r kind 0 va write false).failRun id .faultPinned

/-- The object of a fault's page, and whether the store now maps the page as the fault needs. -/
def State.faultMapped (s : State) (f : PFault) : Xl := s.xlate f.ctx (f.page * 4096) f.write

/-- Every run that waits on a fault fails for good, with the kind that the page now reads. -/
def State.failWaiters (s : State) (f : PFault) (kind : Nat) : State :=
  f.runs.foldl (fun t id => t.failPinned id kind (f.page * 4096) f.write) (s.dropFault f)

/-- Write the record of a fault again, with REPEAT = 1 (R148). -/
def State.repeatRecord (s : State) (f : PFault) : State :=
  match f.runs.head? >>= s.run? with
  | some r => s.faultRecord r f.kind f.id (f.page * 4096) f.write true
  | none => s

/-- What the store says of a fault's page after a re-walk: the fault is filled, repeats, or fails its runs. -/
def State.settleFault (s : State) (f : PFault) : State :=
  match s.faultMapped f with
  | .fail k => if k = kNotPresent ∨ k = kWriteDenied then s.repeatRecord f else s.failWaiters f k
  | _ => s.fillFault f

/-- Walk a fault's page again and put what it finds into the store. -/
def State.walkFault (s : State) (pt : HostTable) (f : PFault) : State :=
  match s.mobAt f.ctx f.page with
  | none => s
  | some m =>
    let m0 : Mob := { m with ents := m.ents.filter (fun e => !overlaps e.page e.pages f.page f.pages) }
    let (m1, _, _) := s.rewalkPage pt m0 f.page
    (s.countWalk pt f.ctx f.page).setMob m1

/-- Re-walk one pending fault (R148). A page that lies in a held range is walked by the invalidation. When the page is
present, the fill follows with the walk's last table read (`FAULT_FILL`). -/
def State.retryFault (s : State) (pt : HostTable) (f : PFault) : State :=
  if s.heldRange f.ctx f.page f.pages then s else
  match s.walkPage pt f.ctx f.page with
  | .leaf _ _ w _ =>
    if f.write && !w then (s.countWalk pt f.ctx f.page).repeatRecord f else
    { s with faults := s.faults.map (fun g => if g.ctx = f.ctx ∧ g.id = f.id then { g with retry := true } else g) }
  | _ => (s.walkFault pt f).settleFault f

/-- RETRY of one fault; a number that is not pending is counted in STALE (R148). -/
def State.fltRetry (s : State) (c id : Nat) (pt : HostTable) : State :=
  match s.fault? c id with
  | none => s.bump F.FLT_PENDING_STALE c 1
  | some f => s.retryFault pt f

/-- FLT_RETRY (R148). -/
def execFltRetry (fn : Fn) (c : Fin 256) (id : Nat) (pt : HostTable) (s : State) : Res :=
  .next (s.ctxDo fn c.val (s.fltRetry c.val id pt))

/-- FLT_RETRY_ALL (R148). -/
def execFltRetryAll (fn : Fn) (c : Fin 256) (pt : HostTable) (s : State) : Res :=
  .next (s.ctxDo fn c.val ((s.faultsOf c.val).foldl (fun t f => t.retryFault pt f) s))

/-- FAIL of one fault (R148). -/
def State.fltFail (s : State) (c id : Nat) : State :=
  match s.fault? c id with
  | none => s.bump F.FLT_PENDING_STALE c 1
  | some f => f.runs.foldl (fun t r => t.failRun r .faultUnserviced) (s.dropFault f)

/-- FLT_FAIL (R148). -/
def execFltFail (fn : Fn) (c : Fin 256) (id : Nat) (s : State) : Res :=
  .next (s.ctxDo fn c.val (s.fltFail c.val id))

/-- The last table read of a RETRY (R146). -/
def State.faultFill (s : State) (c id : Nat) (pt : HostTable) : State :=
  match s.fault? c id with
  | none => s
  | some f => if f.retry then (s.walkFault pt f).settleFault { f with retry := false } else s

/-- FAULT_FILL (R146). -/
def execFaultFill (c : Fin 256) (id : Nat) (pt : HostTable) (s : State) : Res := .next (s.faultFill c.val id pt)

/-! ## Invalidation (R139, R150 to R153) -/

/-- One step of a CLEAR (R139): the flush once the drain is over, the re-walk of what the flush dropped of other objects,
whose pages overlap the range in part, then the final step, which frees the slot. -/
def State.mobClearStep (s : State) (op : LongOp) (slot c page pages : Nat) (ph : InvPhase) (todo : List (Nat × Nat × Nat))
    (n : Nat) (pt : HostTable) : State :=
  match ph with
  | .drain =>
    if (s.drainRuns c page pages).isEmpty then
      (s.flush c page pages).setOp { op with
        task := .mobClear slot c page pages .flush ((s.flushParts c page pages).filter (fun x => x.1 != slot)) }
    else s
  | _ =>
    let (s1, rest, _) := State.rewalkParts pt n s todo 0
    if !rest.isEmpty then s1.setOp { op with task := .mobClear slot c page pages .rewalk rest } else
    let gone (f : PFault) : Bool := f.ctx == c && f.slot == slot
    let s2 : State := { s1 with mobs := s1.mobs.filter (fun m => m.slot != slot), faults := s1.faults.filter (fun f => !gone f) }
    let fs := (s2.faultsOf c).filter (fun f => overlaps f.page f.pages page pages)
    ((fs.foldl (fun t f => t.settleFault f) s2).liftHold c page pages).endOp op none

/-- INVALIDATE (R150): illegal while PHASE is not 0, and with PAGES 0. -/
def State.invalidate (s : State) (o c pages : Nat) (fe : Option Nat) : State :=
  if s.opBusy .inv c ∨ pages = 0 ∨ 2 ^ 36 ≤ pages then s.illegal .ctx c 0x0B8 else
  let w := s.wholePages c (s.rd F.INV_ADDR_VA c) pages
  ((s.wr F.INV_PROGRESS_REWALKED c 0).takeHold c w.1 w.2).startOp .inv c o fe 1 (.inval .drain w.1 w.2 [])

/-- INV_INVALIDATE (R150). -/
def execInvInvalidate (fn : Fn) (c : Fin 256) (pages : Nat) (fence : Option Nat) (s : State) : Res :=
  .next (s.ctxDo fn c.val (s.invalidate fn.idx c.val pages fence))

/-- INV_RESUME (R153). -/
def execInvResume (fn : Fn) (c : Fin 256) (fence : Option Nat) (s : State) : Res :=
  .next (s.ctxDo fn c.val (s.resumeOp .inv c.val fn.idx fence .ctx c.val 0x0B8))

/-- INV_ABORT (R153). -/
def execInvAbort (fn : Fn) (c : Fin 256) (fence : Option Nat) (s : State) : Res :=
  .next (s.ctxDo fn c.val (s.abortOp .inv c.val fn.idx fence .ctx c.val 0x0B8 (fun t op => t.dropInval op)))

/-- The drain is over: the flush commits in one step (R150). -/
def State.invDrainEnd (s : State) (c : Nat) : State :=
  match s.op? .inv c with
  | some op =>
    (match op.task with
    | .inval .drain page pages _ =>
      if s.opRuns op ∧ (s.drainRuns c page pages).isEmpty = true then
        (s.flush c page pages).setOp { op with task := .inval .flush page pages (s.flushParts c page pages) }
      else s
    | _ => s)
  | none => s

/-- INV_DRAIN_END (R150). -/
def execInvDrainEnd (c : Fin 256) (s : State) : Res := .next (s.invDrainEnd c.val)

/-- One step of the re-walk: up to `n` entries; the pending faults of the pages that are done are settled. The final
step releases the hold and signals the fence. -/
def State.invStep (s : State) (op : LongOp) (ph : InvPhase) (page pages : Nat) (todo : List (Nat × Nat × Nat))
    (n : Nat) (pt : HostTable) : State :=
  let c := op.sel.inst
  match ph with
  | .drain => s
  | _ =>
    let (s1, rest, made) := State.rewalkParts pt n s todo 0
    let s2 := s1.bump F.INV_PROGRESS_REWALKED c made
    if rest.isEmpty then
      let fs := (s2.faultsOf c).filter (fun f => overlaps f.page f.pages page pages)
      let s3 := fs.foldl (fun t f => t.settleFault f) s2
      (((s3.liftHold c page pages).count (devCnt 29) 1).countP op.owner 74 1).endOp op none
    else s2.setOp { op with task := .inval .rewalk page pages rest, done := op.done + made }

end Sys2Proof.Machine
end

