-- ==== Sys2Proof/Machine/PlProgram.lean ====
section
/-! DEFINITION. Planisher programs as plan validation sees them: their legality, their cycles, the ticks of their pops
and the bytes they touch (spec/14_planisher.md, R318 to R329, R335, R338). -/

namespace Sys2Proof.Machine
open Sys2Proof

/-! ## Fields of an instruction word (R324, R325) -/

def plDst (w : Nat) : Nat := bitsOf w 8 6
def plSa (w : Nat) : Nat := bitsOf w 14 6
def plSb (w : Nat) : Nat := bitsOf w 20 6
def plMask (w : Nat) : Nat := bitsOf w 26 3
def plZ (w : Nat) : Bool := bitAt w 29
def plBmode (w : Nat) : Nat := bitsOf w 30 2
def plLv (w : Nat) : Nat := bitsOf w 32 2
def plIxd (w : Nat) : Bool := bitAt w 34
def plIxa (w : Nat) : Bool := bitAt w 35
def plIxb (w : Nat) : Bool := bitAt w 36
def plArg (w : Nat) : Nat := bitsOf w 40 24
def plOff (w : Nat) : Nat := bitsOf w 36 16
def plStep (w : Nat) : Int := sext 12 (bitsOf w 52 12)
def plLoopLv (w : Nat) : Nat := bitsOf w 8 2
def plBody (w : Nat) : Nat := bitsOf w 16 12
def plCount (w : Nat) : Nat := bitsOf w 32 32

/-- The duration of an instruction in cycles, for a listed opcode (Table — Instruction set). -/
def plCycles (o : Nat) : Option Nat :=
  if o ≤ 2 then some 1
  else if o = 3 then some 2
  else if o = 0x10 ∨ o = 0x18 then some 8
  else if o = 0x11 ∨ o = 0x19 then some 4
  else if plIsLoad o ∨ plIsStore o then some 2
  else if o = 0x1F then some 2
  else if 0x20 ≤ o ∧ o ≤ 0x27 then some 2
  else if 0x28 ≤ o ∧ o ≤ 0x2D then some 4
  else if o = 0x30 ∨ o = 0x31 then some 2
  else if 0x38 ≤ o ∧ o ≤ 0x3B then some 1
  else if o = 0x3C ∨ o = 0x3D then some 2
  else if 0x40 ≤ o ∧ o ≤ 0x45 then some 2
  else if 0x48 ≤ o ∧ o ≤ 0x4E then some 2
  else if 0x50 ≤ o ∧ o ≤ 0x53 then some 4
  else none

/-- Bytes of one row of a load or a store. -/
def plRowBytes (o : Nat) : Nat :=
  match o % 8 with
  | 0 => 128 | 1 => 64 | 2 => 32 | 3 => 16 | _ => 32

def plIsMem (o : Nat) : Bool := plIsLoad o || plIsStore o || o == 3
def plMemFmt (o : Nat) : Bool := plIsMem o || o == 0x1F

/-- Opcodes that read SB; those whose operands are masks; those that write a mask. -/
def plReadsSb (o : Nat) : Bool :=
  (decide (0x20 ≤ o) && decide (o ≤ 0x25)) || o == 0x30 || o == 0x31 || o == 0x38 || o == 0x39 || o == 0x3C ||
  o == 0x3D || (decide (0x40 ≤ o) && decide (o ≤ 0x44)) || o == 0x4A || o == 0x4C
def plMaskIn (o : Nat) : Bool := decide (0x38 ≤ o) && decide (o ≤ 0x3A)
def plMaskOut (o : Nat) : Bool := o == 0x30 || o == 0x31 || (decide (0x38 ≤ o) && decide (o ≤ 0x3B))

/-- The ARG of an instruction is legal, and its unused bits are 0. -/
def plArgOk (o a : Nat) : Bool :=
  if o = 2 then decide (a ≤ 1)
  else if o = 0x30 then decide (a ≤ 6)
  else if o = 0x31 then decide (a ≤ 5)
  else if o = 0x3B then
    bitsOf a 13 3 == 0 && bitsOf a 21 3 == 0 && decide (bitsOf a 0 4 ≤ bitsOf a 4 4) &&
    decide (bitsOf a 8 5 ≤ bitsOf a 16 5)
  else if o = 0x45 then decide (a < 32)
  else if o = 0x4B ∨ o = 0x4D then decide (a < 256) && (decide (a < 32) || decide (224 ≤ a))
  else a == 0

/-! ## Legality (R322, R323, R326, R327, R329) -/

/-- The counts of the loops that enclose an instruction, the outermost first. -/
abbrev LoopCounts := List Nat

/-- The largest value that an index of level `lv` takes; none without an enclosing loop of that level. -/
def topIdx (cs : LoopCounts) (lv : Nat) : Option Nat := (cs[lv]?).map (· - 1)

/-- An operand number stays at or below `lim` for every counter value. -/
def idxOk (cs : LoopCounts) (lv : Nat) (ix : Bool) (n lim : Nat) : Bool :=
  if ix then (match topIdx cs lv with | some t => decide (n + t ≤ lim) | none => false) else decide (n ≤ lim)

/-- Row `r` of a memory instruction begins at this offset from its entry's VA, for counter value `i` (R325). -/
def plRowOff (e : AbEnt) (w : Nat) (i r : Nat) : Int :=
  16 * ((plOff w : Int) + (i : Int) * plStep w) + (r : Int) * (e.pitch : Int)

/-- Every byte of a memory instruction lies in its entry, for every counter value. -/
def plMemOk (d : List Byte) (cs : LoopCounts) (w : Nat) : Bool :=
  let o := plOp w
  let e := abEnt d (plAb w)
  let tops := if bitAt w 35 then (match topIdx cs (plLv w) with | some t => [0, t] | none => []) else [0]
  let (rows, width) := if o = 3 then (1, 64) else (16, plRowBytes o)
  e.len != 0 && !tops.isEmpty && tops.all (fun i =>
    decide (0 ≤ plRowOff e w i 0) && decide (plRowOff e w i (rows - 1) + (width : Int) ≤ (e.len : Int)))

/-- An operand number of a mask instruction, or of any other. -/
def plSaNum (w : Nat) : Nat := if plMaskIn (plOp w) then plSa w % 8 else plSa w
def plSbNum (w : Nat) : Nat := if plMaskIn (plOp w) then plSb w % 8 else plSb w

/-- The scalar that SB names with BMODE 3: bits [23:20] (R324). -/
def plSc (w : Nat) : Nat := plSb w % 16

/-- Opcodes that read a tile or a mask through SA, and those that write DST. -/
def plReadsSa (o : Nat) : Bool := decide (0x20 ≤ o) && o != 0x3B && o != 0x3D
def plHasDst (o : Nat) : Bool := o != 0

/-- Every index bit that is set names a level with an enclosing loop (R323). -/
def plIdxLevels (cs : LoopCounts) (w : Nat) : Bool :=
  let bits := if plMemFmt (plOp w) then plIxd w || bitAt w 35 else plIxd w || plIxa w || plIxb w
  !bits || (topIdx cs (plLv w)).isSome

/-- One instruction other than LOOP is legal inside the given loops. -/
def plInstrOk (d : List Byte) (cs : LoopCounts) (w : Nat) : Bool :=
  let o := plOp w
  plIdxLevels cs w &&
  (if plMemFmt o then
    bitsOf w 17 9 == 0 && bitsOf w 30 2 == 0 && ((o != 3 && o != 0x1F) || plMask w == 0) &&
    (o == 3 || idxOk cs (plLv w) (plIxd w) (plDst w) 63) && (o == 0x1F || plMemOk d cs w)
  else
    let lim := if plMaskIn o then 7 else 63
    bitsOf w 37 3 == 0 && plArgOk o (plArg w) &&
    (if plReadsSb o then !(plBmode w == 3 && plIxb w) else plBmode w == 0 && plSb w == 0) &&
    ((o != 0x4A && o != 0x4C) || plBmode w == 3) && (o != 0x3D || plSa w == 0) &&
    (if plMaskOut o then plDst w != 0 && decide (plDst w ≤ 7) && idxOk cs (plLv w) (plIxd w) (plDst w) 7
     else !plHasDst o || idxOk cs (plLv w) (plIxd w) (plDst w) 63) &&
    (!plReadsSa o || idxOk cs (plLv w) (plIxa w) (plSaNum w) lim) &&
    (plBmode w == 3 || !plReadsSb o || idxOk cs (plLv w) (plIxb w) (plSbNum w) lim))

/-- Is the program text [i, j) legal inside the given loops? -/
def plBlockOk (d : List Byte) (prog : List Nat) : Nat → LoopCounts → Nat → Nat → Bool
  | 0, _, i, j => decide (j ≤ i)
  | n + 1, cs, i, j =>
    if j ≤ i then true else
    let w := prog.getD i 0
    if plOp w = 1 then
      bitsOf w 10 6 == 0 && bitsOf w 28 4 == 0 && plLoopLv w == cs.length && decide (cs.length < 4) &&
      decide (1 ≤ plBody w) && decide (i + 1 + plBody w ≤ j) && decide (1 ≤ plCount w) && decide (plCount w ≤ 65536) &&
      plBlockOk d prog n (cs ++ [plCount w]) (i + 1) (i + 1 + plBody w) && plBlockOk d prog n cs (i + 1 + plBody w) j
    else (plCycles (plOp w)).isSome && plInstrOk d cs w && plBlockOk d prog n cs (i + 1) j

/-- The descriptor of a Planisher step is legal (R318, R329). -/
def plLegal (d : List Byte) : Bool :=
  let n := numAt d 0 2
  decide (1 ≤ n) && decide (n ≤ 4096) && d.length == 256 + 8 * n && numAt d 2 62 == 0 &&
  (List.range 8).all (fun i =>
    let e := abEnt d i
    e.va % 16 == 0 && numAt d (0x4E + 16 * i) 2 == 0 &&
    (e.len == 0 || (e.pitch % 16 == 0 && decide (16 ≤ e.pitch) && decide (e.pitch ≤ 8192)))) &&
  plBlockOk d (plProgram d) (2 * n + 2) [] 0 n

/-! ## Time (R320 to R322) -/

/-- Execution cycles of the program text [i, j). -/
def plTime (prog : List Nat) : Nat → Nat → Nat → Nat
  | 0, _, _ => 0
  | n + 1, i, j =>
    if j ≤ i then 0 else
    let w := prog.getD i 0
    if plOp w = 1 then
      1 + plCount w * plTime prog n (i + 1) (i + 1 + plBody w) + plTime prog n (i + 1 + plBody w) j
    else (plCycles (plOp w)).getD 0 + plTime prog n (i + 1) j

/-- Pops that the program text [i, j) executes. -/
def plPops (prog : List Nat) : Nat → Nat → Nat → Nat
  | 0, _, _ => 0
  | n + 1, i, j =>
    if j ≤ i then 0 else
    let w := prog.getD i 0
    if plOp w = 1 then
      plCount w * plPops prog n (i + 1) (i + 1 + plBody w) + plPops prog n (i + 1 + plBody w) j
    else (if plOp w = 0x1F then 1 else 0) + plPops prog n (i + 1) j

/-- The cycles at which the pops of the program text [i, j) start, when the text starts at cycle `x`. -/
def plPopTimes (prog : List Nat) : Nat → Nat → Nat → Nat → List Nat
  | 0, _, _, _ => []
  | n + 1, i, j, x =>
    if j ≤ i then [] else
    let w := prog.getD i 0
    if plOp w = 1 then
      let k := i + 1 + plBody w
      let t := plTime prog n (i + 1) k
      (if plPops prog n (i + 1) k = 0 then []
       else (List.range (plCount w)).flatMap (fun it => plPopTimes prog n (i + 1) k (x + 1 + it * t))) ++
      plPopTimes prog n k j (x + 1 + plCount w * t)
    else (if plOp w = 0x1F then [x] else []) ++ plPopTimes prog n (i + 1) j (x + (plCycles (plOp w)).getD 0)

/-- Ticks of the prologue (R321). -/
def plPrologue (d : List Byte) : Nat := 1 + ceilDiv (numAt d 0 2) 256

/-- Fuel that covers every nesting of a program. -/
def plFuel (d : List Byte) : Nat := 2 * numAt d 0 2 + 2

/-- The worst case of a Planisher step (R321). -/
def plWorst (d : List Byte) : Nat :=
  plPrologue d + ceilDiv (plTime (plProgram d) (plFuel d) 0 (numAt d 0 2)) 16 + 1

/-- How many pops the program executes. -/
def plPopCount (d : List Byte) : Nat := plPops (plProgram d) (plFuel d) 0 (numAt d 0 2)

/-- The ticks of the pops, counted from the step's start. -/
def plPopTicks (d : List Byte) : List Nat :=
  (plPopTimes (plProgram d) (plFuel d) 0 (numAt d 0 2) 0).map (fun x => plPrologue d + x / 16)

/-! ## Bytes read and written (R338) -/

/-- Byte intervals [va, va + len) and whether they are written. -/
abbrev Touch := List (Nat × Nat × Bool)

/-- Byte intervals of one memory instruction, for every counter value. -/
def plInstrTouch (d : List Byte) (cs : LoopCounts) (w : Nat) : Touch :=
  let o := plOp w
  if !plIsMem o then [] else
  let e := abEnt d (plAb w)
  let vals := if bitAt w 35 then List.range ((cs[plLv w]?).getD 1) else [0]
  let (rows, width) := if o = 3 then (1, 64) else (16, plRowBytes o)
  vals.flatMap (fun i => (List.range rows).map (fun r =>
    ((((e.va : Int) + plRowOff e w i r).toNat), width, !plIsLoad o)))

/-- Byte intervals of the program text [i, j). -/
def plTouches (d : List Byte) (prog : List Nat) : Nat → LoopCounts → Nat → Nat → Touch
  | 0, _, _, _ => []
  | n + 1, cs, i, j =>
    if j ≤ i then [] else
    let w := prog.getD i 0
    if plOp w = 1 then
      plTouches d prog n (cs ++ [plCount w]) (i + 1) (i + 1 + plBody w) ++ plTouches d prog n cs (i + 1 + plBody w) j
    else plInstrTouch d cs w ++ plTouches d prog n cs (i + 1) j

/-- Byte intervals of a Planisher step. -/
def plTouch (d : List Byte) : Touch := plTouches d (plProgram d) (plFuel d) [] 0 (numAt d 0 2)

end Sys2Proof.Machine
end

