-- ==== Sys2Proof/Machine/Images.lean ====
section
/-! DEFINITION. Frame and plan images: their formats, parsing, and the frame checks (spec/08_plans_lodes.md, R155 to R158,
R180, R189, R190). -/

namespace Sys2Proof.Machine
open Sys2Proof

/-- A check's outcome: nothing, or a status code and the index it names. -/
abbrev Verdict := Option (Nat × Nat)

/-- The first failure of two checks. -/
def Verdict.or (a b : Verdict) : Verdict := match a with | some x => some x | none => b

/-- Fail with a code and an index unless the test holds. -/
def need (code idx : Nat) (ok : Bool) : Verdict := if ok then none else some (code, idx)

/-- The first failure over a list, each element with its index. -/
def firstFail {α : Type} (l : List α) (f : Nat → α → Verdict) : Verdict :=
  (l.mapIdx f).findSome? id

/-- Every byte of [a, b) of an image is 0. -/
def zeroBytesIn (img : List Byte) (a b : Nat) : Bool := (slice img a (b - a)).all (· == 0)

/-- CRC-32C of the first `n` bytes of an image, with the 4 bytes at `at_` taken as 0. -/
def imageCrc (img : List Byte) (n at_ : Nat) : Nat :=
  crc32c (slice img 0 at_ ++ List.replicate 4 0 ++ slice img (at_ + 4) (n - at_ - 4))

/-! ## Frame images (R190) -/

/-- The kind of a frame entry. -/
def entryKind (w : Nat) : TickKind :=
  match w % 8 with
  | 1 => .polder (bitsOf w 4 4)
  | 2 => .owner
  | 3 => .background
  | 4 => .service
  | 5 => .transit
  | _ => .idle

/-- May a lane carry a kind (Table — Lanes)? -/
def kindOk (l : Nat) (k : TickKind) : Bool :=
  match engOf l, k with
  | none, _ => false
  | some .causeway, _ => true
  | _, .transit => false
  | some .host, .background => false
  | some .host, .service => false
  | some .vault, .service | some .punch, .service | some .ladle, .service => true
  | _, .service => false
  | _, _ => true

/-- The entries of a lane, as words. -/
def laneEntries (img : List Byte) (i : Nat) : List Nat :=
  let d := numAt img 0x14 4 + 8 * i
  let first := numAt img d 4
  (List.range (numAt img (d + 4) 4)).map (fun j => numAt img (numAt img 0x18 4 + 4 * (first + j)) 4)

/-- Merge the runs of equal kind. -/
def mergeRuns : List (TickKind × Nat) → List (TickKind × Nat)
  | [] => []
  | (k, n) :: t =>
    match mergeRuns t with
    | (k', n') :: t' => if k = k' then (k, n + n') :: t' else (k, n) :: (k', n') :: t'
    | [] => [(k, n)]

/-- Parse a frame image. -/
def parseFrame (img : List Byte) : Frame :=
  { id := numAt img 0x20 4, length := numAt img 0x0C 4
    lanes := (List.range 318).map (fun i =>
      mergeRuns ((laneEntries img i).map (fun w => (entryKind w, bitsOf w 8 17)))) }

/-- The number of ticks of a lane that do not carry BACKGROUND in a row, cyclically: the longest such span. -/
def bgGapFrom : List (TickKind × Nat) → Nat → Nat → Nat
  | [], cur, best => max cur best
  | (k, n) :: t, cur, best =>
    if k = .background then bgGapFrom t 0 (max cur best) else bgGapFrom t (cur + n) best

def bgGap (l : List (TickKind × Nat)) : Nat := bgGapFrom (l ++ l) 0 0

/-- Ticks of BACKGROUND. -/
def bgTicks (l : List (TickKind × Nat)) : Nat := ((l.filter (fun e => decide (e.1 = .background))).map (·.2)).sum

/-- Lanes that need BACKGROUND: the engine lanes 0x100 to 0x12F and the vault lanes (R155, R158). -/
def bgLane (l : Nat) : Bool := decide (l < 0x130)

/-- Frame format (Table — Frame status codes, code 1). -/
def frameFormat (img : List Byte) : Bool :=
  let total := numAt img 8 4
  let dir := numAt img 0x14 4
  let ent := numAt img 0x18 4
  let cnt := numAt img 0x1C 4
  let signed := bitAt (numAt img 6 2) 0
  let sig := numAt img 0x24 4
  let stop := if signed then sig else total
  numAt img 0 4 == 0x4D415246 && numAt img 4 2 == 1 && decide (numAt img 6 2 ≤ 1) && decide (total ≤ 2097152) &&
  numAt img 0x10 2 == 318 && numAt img 0x12 2 == 0 && numAt img 0x2C 20 == 0 && decide (cnt ≤ 262144) &&
  (signed || sig == 0) && (!signed || decide (sig + 96 ≤ total)) &&
  dir % 8 == 0 && ent % 4 == 0 && decide (64 ≤ dir) && decide (64 ≤ ent) && decide (dir + 2544 ≤ stop) &&
  decide (ent + 4 * cnt ≤ stop) && (decide (dir + 2544 ≤ ent) || decide (ent + 4 * cnt ≤ dir)) &&
  (List.range 318).all (fun i => decide (numAt img (dir + 8 * i) 4 + numAt img (dir + 8 * i + 4) 4 ≤ cnt)) &&
  (List.range cnt).all (fun j => let w := numAt img (ent + 4 * j) 4; !bitAt w 3 && bitsOf w 25 7 == 0) &&
  (let (a, b, c, d) := if dir < ent then (dir, dir + 2544, ent, ent + 4 * cnt)
    else (ent, ent + 4 * cnt, dir, dir + 2544)
   zeroBytesIn img 64 a && zeroBytesIn img b c && zeroBytesIn img d stop &&
   (!signed || zeroBytesIn img (sig + 96) total))

/-- The frame checks of a load, codes 1 to 7, in order; the index is the lane number (R180). A signature, which
follows the bytes it covers, verifies against the bank's OWNER_KEY; `sigNeed` is `RV_CFG.FRAME_SIG`. -/
def frameCheck (img : List Byte) (sigNeed : Bool) (bank : Bank) : Verdict :=
  let total := numAt img 8 4
  let signed := bitAt (numAt img 6 2) 0
  let stop := if signed then numAt img 0x24 4 else total
  let len := numAt img 0x0C 4
  let f := parseFrame img
  Verdict.or (need 1 0 (frameFormat img)) <|
  Verdict.or (need 2 0 (imageCrc img stop 0x28 == numAt img 0x28 4)) <|
  Verdict.or (need 3 0 (if signed then bank.ownerSigned (slice img 0 stop) (slice img stop 96) else !sigNeed)) <|
  Verdict.or (need 4 0 (decide (256 ≤ len) && decide (len ≤ 65536) && len % 64 == 0)) <|
  Verdict.or (firstFail laneList (fun i l =>
    let es := laneEntries img i
    need 4 l (es.all (fun w => decide (1 ≤ bitsOf w 8 17) && decide (bitsOf w 8 17 ≤ 65536)) &&
      (es.map (fun w => bitsOf w 8 17)).sum == len))) <|
  Verdict.or (firstFail laneList (fun i l =>
    need 5 l ((laneEntries img i).all (fun w => decide (w % 8 < 6) && kindOk l (entryKind w))))) <|
  Verdict.or (firstFail laneList (fun i l =>
    need 6 l (!bgLane l || decide (len ≤ 32 * bgTicks (f.lanes.getD i []))))) <|
  firstFail laneList (fun i l => need 7 l (!bgLane l || decide (bgGap (f.lanes.getD i []) ≤ 8192)))

/-! ## Ticks of a frame -/

/-- Does every tick of [a, a + n), a + n at most the length, carry the kind? -/
def runsAll (k : TickKind) : List (TickKind × Nat) → Nat → Nat → Nat → Bool
  | [], _, _, _ => true
  | (k', n) :: t, pos, a, b => (!(overlaps pos n a (b - a)) || decide (k' = k)) && runsAll k t (pos + n) a b

/-- Does every tick of a cyclic span of a lane carry the kind? -/
def Frame.spanAll (f : Frame) (l start n : Nat) (k : TickKind) : Bool :=
  let a := start % max 1 f.length
  let r := f.lane l
  if f.length ≤ n then runsAll k r 0 0 f.length
  else if a + n ≤ f.length then runsAll k r 0 a (a + n)
  else runsAll k r 0 a f.length && runsAll k r 0 0 (a + n - f.length)

/-- The kind that a frame gives to an owner's own ticks. -/
def ownKind (o : Nat) : TickKind := if o = 16 then .owner else .polder o

/-! ## Plan images (R189) -/

def parseLode (img : List Byte) (at_ : Nat) : Lode :=
  { firstStep := numAt img at_ 2, stepCount := numAt img (at_ + 2) 1, capTrunc := bitAt (numAt img (at_ + 3) 1) 0
    period := numAt img (at_ + 4) 4, phase := numAt img (at_ + 8) 4, instances := numAt img (at_ + 0xC) 1
    tierMax := numAt img (at_ + 0xD) 1 % 4, levelMask := numAt img (at_ + 0xD) 1 / 16
    bagCap := numAt img (at_ + 0xE) 2, duration := numAt img (at_ + 0x10) 4, maxWait := numAt img (at_ + 0x14) 4
    faultAllow := numAt img (at_ + 0x18) 4, minIn := numAt img (at_ + 0x1C) 4, maxIn := numAt img (at_ + 0x20) 4
    outLen := numAt img (at_ + 0x24) 4, scratchStride := numAt img (at_ + 0x28) 4 }

def parseStep (img : List Byte) (at_ : Nat) : PStep :=
  let fl := numAt img (at_ + 0xC) 1
  { lane := numAt img at_ 2 % 1024, laneCount := numAt img (at_ + 2) 2, start := numAt img (at_ + 4) 4
    duration := numAt img (at_ + 8) 4, pageable := bitAt fl 0, output := bitAt fl 1, remote := bitAt fl 2
    dep0 := numAt img (at_ + 0xD) 1, dep1 := numAt img (at_ + 0xE) 1, share := numAt img (at_ + 0xF) 1
    descOff := numAt img (at_ + 0x10) 4, descLen := numAt img (at_ + 0x14) 4, grant := numAt img (at_ + 0x18) 1 }

/-- The sections of a plan image, in order: offset, bytes. -/
def planSections (img : List Byte) : List (Nat × Nat) :=
  [(numAt img 0x14 4, 64 * numAt img 0xC 2), (numAt img 0x18 4, 32 * numAt img 0xE 2),
   (numAt img 0x1C 4, 16 * numAt img 0x20 4), (numAt img 0x24 4, 16 * numAt img 0x28 2),
   (numAt img 0x2C 4, numAt img 0x30 4)]

/-- Parse a plan image; the descriptor destination is that of the load. -/
def parsePlan (img : List Byte) (descVa descCtx : Nat) : Plan :=
  { crc := numAt img 0x38 4, frameLen := numAt img 0x10 4
    lodes := (List.range (numAt img 0xC 2)).map (fun i => parseLode img (numAt img 0x14 4 + 64 * i))
    steps := (List.range (numAt img 0xE 2)).map (fun i => parseStep img (numAt img 0x18 4 + 32 * i))
    fits := (List.range (numAt img 0x20 4)).map (fun i =>
      let a := numAt img 0x1C 4 + 16 * i
      { lane := numAt img a 2, laneCount := numAt img (a + 2) 2, start := numAt img (a + 4) 4
        length := numAt img (a + 8) 4 })
    grants := (List.range (numAt img 0x28 2)).map (fun i =>
      let a := numAt img 0x24 4 + 16 * i
      { peer := numAt img a 1, grant := numAt img (a + 1) 1, reqPerFrame := numAt img (a + 4) 4 })
    descs := slice img (numAt img 0x2C 4) (numAt img 0x30 4), descVa := descVa, descCtx := descCtx }

/-- Sections in order from `pos`, each at a multiple of 64, with zeros between them, up to `stop`. -/
def sectionsOk (img : List Byte) : List (Nat × Nat) → Nat → Nat → Bool
  | [], pos, stop => decide (pos ≤ stop) && zeroBytesIn img pos stop
  | (off, n) :: t, pos, stop =>
    off % 64 == 0 && decide (pos ≤ off) && decide (off + n ≤ stop) && zeroBytesIn img pos off &&
    sectionsOk img t (off + n) stop

/-- Plan format (Table — Plan status codes, code 1). -/
def planFormat (img : List Byte) : Bool :=
  let total := numAt img 8 4
  let signed := bitAt (numAt img 6 2) 0
  let sig := numAt img 0x34 4
  let stop := if signed then sig else total
  numAt img 0 4 == 0x4E414C50 && numAt img 4 2 == 1 && decide (numAt img 6 2 ≤ 1) && numAt img 0x2A 2 == 0 &&
  numAt img 0x3C 68 == 0 && (signed || sig == 0) && (!signed || decide (sig + 96 ≤ total)) &&
  sectionsOk img (planSections img) 128 stop && (!signed || zeroBytesIn img (sig + 96) total) &&
  (List.range (numAt img 0xC 2)).all (fun i =>
    let a := numAt img 0x14 4 + 64 * i
    decide (numAt img (a + 3) 1 ≤ 1) && bitsOf (numAt img (a + 0xD) 1) 2 2 == 0 && numAt img (a + 0x2C) 20 == 0) &&
  (List.range (numAt img 0xE 2)).all (fun i =>
    let a := numAt img 0x18 4 + 32 * i
    numAt img a 2 / 1024 == 0 && decide (numAt img (a + 0xC) 1 < 8) && numAt img (a + 0x19) 7 == 0) &&
  (List.range (numAt img 0x20 4)).all (fun i => numAt img (numAt img 0x1C 4 + 16 * i + 0xC) 4 == 0) &&
  (List.range (numAt img 0x28 2)).all (fun i =>
    let a := numAt img 0x24 4 + 16 * i
    numAt img (a + 2) 2 == 0 && numAt img (a + 8) 8 == 0)

/-- Plan checks 1 to 4 (R179); the signature as in `frameCheck`, with `RV_CFG.PLAN_SIG`. -/
def planImageCheck (img : List Byte) (sigNeed : Bool) (bank : Bank) : Verdict :=
  let total := numAt img 8 4
  let signed := bitAt (numAt img 6 2) 0
  let stop := if signed then numAt img 0x34 4 else total
  Verdict.or (need 1 0 (planFormat img)) <|
  Verdict.or (need 2 0 (imageCrc img stop 0x38 == numAt img 0x38 4)) <|
  Verdict.or (need 3 0 (if signed then bank.ownerSigned (slice img 0 stop) (slice img stop 96) else !sigNeed)) <|
  Verdict.or (need 4 0 (decide (total ≤ 67108864) && decide (numAt img 0xC 2 ≤ 4096) &&
    decide (numAt img 0xE 2 ≤ 16384))) <|
  firstFail (List.range (numAt img 0xC 2)) (fun i _ =>
    need 4 i (decide (numAt img (numAt img 0x14 4 + 64 * i + 2) 1 ≤ 63)))

end Sys2Proof.Machine
end

