-- ==== Sys2Proof/Machine/PlanCheck.lean ====
section
/-! DEFINITION. Plan validation, codes 5 to 12 (spec/08_plans_lodes.md, R159 to R169, R179; the worst cases and shapes of
the engines' chapters). FAIL_INDEX names the first lode, then the first step, fit record or grant reference that fails, in
record order (notes/assumptions/30.md). -/

namespace Sys2Proof.Machine
open Sys2Proof

/-! ## Figures -/

/-- Command slots left in 1/64 at a tier (R165). -/
def tierLeft : Nat → Nat
  | 0 => 64
  | 1 => 56
  | 2 => 48
  | _ => 32

/-- Mere unit to tower: eight units of 1 MiB in each tower. -/
def mereTower (off : Nat) : Nat := off / 0x800000

/-- Bytes of [va, va + len) that a context maps to the Mere of tower t, and the other bytes (notes/assumptions/28.md). -/
def State.mereSplit (s : State) (c t va len : Nat) : Nat × Nat :=
  if len = 0 then (0, 0) else
  (List.range ((va + len - 1) / 4096 - va / 4096 + 1)).foldl (fun (a : Nat × Nat) i =>
    let pg := va / 4096 + i
    let lo := max va (pg * 4096)
    let n := min (va + len) ((pg + 1) * 4096) - lo
    match s.xlate c lo false with
    | .mere o => if mereTower o = t then (a.1 + n, a.2) else (a.1, a.2 + n)
    | _ => (a.1, a.2 + n)) (0, 0)

/-- Round up to a multiple. -/
def roundUp (n k : Nat) : Nat := ceilDiv n k * k

/-- The compute term C of an Anvil step (Table — Anvil worst-case terms). -/
def AnvilDesc.cTerm (a : AnvilDesc) : Nat :=
  let m := roundUp a.m 16
  let k := roundUp a.k 32
  let n := roundUp a.n 32
  match a.path with
  | 0 => ceilDiv (m * k * n) (if a.wFmt = 1 then 16777216 else 8388608)
  | 1 => max (ceilDiv (m * k * n) 2097152) (if a.wFmt = 4 then 0 else ceilDiv (k * n) 262144)
  | _ => ceilDiv (m * k) 8192 + max (ceilDiv (k * n) 524288) (ceilDiv (m * k * n) 4194304)

/-- The read term R of an Anvil step for one instance. -/
def State.anvilR (s : State) (c t off : Nat) (a : AnvilDesc) : Nat :=
  let parts := (List.range a.m).map (fun i =>
      s.mereSplit c t (a.x + off + i * a.xStride) ((anvilFmt a.xFmt).bytes a.k)) ++
    [s.mereSplit c t (a.w + off) a.wBytes, s.mereSplit c t (a.sc + off) a.scBytes]
  ceilDiv (parts.map (·.1)).sum 65536 + ceilDiv (parts.map (·.2)).sum 16384

/-- The read term over every instance of a lode. -/
def State.anvilRMax (s : State) (c : Nat) (l : Lode) (x : PStep) (a : AnvilDesc) : Nat :=
  (List.range (max 1 l.instances)).foldl (fun m i =>
    max m (s.anvilR c (x.lane - 0x100) (i * l.scratchStride) a)) 0

/-- The write term V. -/
def AnvilDesc.vTerm (a : AnvilDesc) : Nat := if a.queue then 0 else ceilDiv (a.m * a.n * outBytes a.outFmt) 32768

/-- The tick, from the step's start, by which tile j is delivered, leaving the queue's room aside (R313). -/
def tileBound (cr tiles j : Nat) : Nat := 3 + ceilDiv ((j + 1) * cr) tiles

/-! ## Steps of a lode, with their descriptors -/

/-- The steps that book vault lanes with the same descriptor, start and duration. -/
def Plan.mates (p : Plan) (l : Lode) (x : PStep) : List PStep :=
  (p.stepsOf l).filter (fun y => decide (y.eng = some .vault) && y.descOff == x.descOff && y.start == x.start &&
    y.duration == x.duration)

/-- The Punch step of a gather step: DEP0, with the same descriptor, starting at least two ticks before it (R244). -/
def Plan.punchOf (p : Plan) (l : Lode) (x : PStep) : Option PStep :=
  match (p.stepsOf l)[x.dep0]? with
  | some y => if y.eng = some .punch ∧ y.descOff = x.descOff ∧ y.start + 2 ≤ x.start then some y else none
  | none => none

/-- What a vault-lane step works for. -/
inductive VaultRole where
  | gather | ladle | update | slab
  deriving DecidableEq, Repr

/-- The role of a vault-lane step: with its Punch step, or with the one engine step of equal descriptor, start and
duration (R168, R244, R263, R345). -/
def Plan.role (p : Plan) (l : Lode) (x : PStep) : Option VaultRole :=
  if (p.punchOf l x).isSome then some .gather else
  let same := (p.stepsOf l).filter (fun y => y.descOff == x.descOff && y.start == x.start && y.duration == x.duration)
  if same.any (fun y => decide (y.eng = some .ladle) && ((ladleDesc (p.desc y)).srcVault || (ladleDesc (p.desc y)).dstVault))
  then some .ladle
  else if same.any (fun y => decide (y.eng = some .solder)) then some .update
  else if same.any (fun y => decide (y.eng = some .tarn) && (tarnDesc (p.desc y)).op != 2) then some .slab
  else none

/-- The lode pools rows: a Punch step, or a remote GATHER. -/
def Plan.pools (p : Plan) (l : Lode) : Bool :=
  (p.stepsOf l).any (fun x => match x.eng with
    | some .punch => true
    | some .causeway => !(remDesc (p.desc x)).push
    | _ => false)

/-! ## Mere bytes that a step reads and writes (R338) -/

/-- Rows of bytes at a stride. -/
def rowTouch (va n stride len : Nat) (w : Bool) : Touch :=
  if len = 0 then [] else (List.range n).map (fun i => (va + i * stride, len, w))

/-- Mere bytes of a step, with the outputs of a pooling written by its gather step. -/
def Plan.touch (p : Plan) (l : Lode) (x : PStep) : Touch :=
  let d := p.desc x
  match x.eng with
  | some .planisher => plTouch d
  | some .vault =>
    if p.role l x = some .gather then
      let b := bagSet d
      let e := outBytes b.outFmt
      rowTouch b.outVa b.bags b.outStride (b.maxDim * e) true ++
      rowTouch b.oneOutVa b.oneMax b.oneStride (b.maxDim * e) true
    else []
  | some .punch => []
  | some .anvil =>
    let a := anvilDesc d
    rowTouch a.x a.m a.xStride ((anvilFmt a.xFmt).bytes a.k) false ++ rowTouch a.w 1 0 a.wBytes false ++
    rowTouch a.sc 1 0 a.scBytes false ++ (if a.queue then [] else rowTouch a.y a.m a.yStride (a.n * outBytes a.outFmt) true)
  | some .riddle =>
    let r := ridDesc d
    (if r.beam then rowTouch r.inVa r.beams r.inStride (r.n * r.eb) false else rowTouch r.inVa 1 0 (r.n * r.eb) false) ++
    rowTouch r.out 1 0 (r.k * r.recBytes) true ++
    (if r.prior = 2 then rowTouch r.priorVa 1 0 (8 * r.beams) false else []) ++
    (if r.withId then rowTouch r.idVa 1 0 (8 * r.n) false else [])
  | some .causeway =>
    let r := remDesc d
    rowTouch r.data r.reqs r.stride r.bytes (!r.push)
  | _ => ((stepRanges x d 0).filter (fun g => decide (g.tgt = .mere))).map (fun g => (g.va, g.len, g.write))

/-- The Mere bytes of a touch, as the plan's context maps them. Bytes that it maps to no memory keep their address, past
those of the Mere; bytes in vault memory are none of the Mere's (notes/assumptions/28.md). -/
def State.mereTouch (s : State) (c : Nat) (t : Touch) : Touch :=
  t.flatMap (fun x => (pagePieces (x.2.1 / 4096 + 2) x.1 x.2.1).filterMap (fun p =>
    match s.xlate c p.1 false with
    | .mere o => some (o, p.2, x.2.2)
    | .vault _ => none
    | _ => some (2 ^ 64 + p.1, p.2, x.2.2)))

/-- The Mere bytes that a step reads and writes for an instance's offset (R160), its descriptor among them (R182). -/
def State.stepTouch (s : State) (p : Plan) (l : Lode) (x : PStep) (off : Nat) : Touch :=
  s.mereTouch p.descCtx ((p.touch l x).map (fun t => (t.1 + off, t.2)) ++ [(p.descVa + x.descOff, x.descLen, false)])

/-- Two touches share a byte that at least one of them writes. -/
def clash (a b : Touch) : Bool :=
  a.any (fun x => b.any (fun y => (x.2.2 || y.2.2) && overlaps x.1 x.2.1 y.1 y.2.1))

/-- Do two steps overlap in time? -/
def PStep.meets (x y : PStep) : Bool := overlaps x.start x.duration y.start y.duration

/-- Does no step that overlaps Planisher step `i` in time share a byte of the Mere with it that either writes, for any
instance (R338)? -/
def State.noClash (s : State) (p : Plan) (l : Lode) (i : Nat) (x : PStep) : Bool :=
  (List.range (if l.scratchStride = 0 then 1 else max 1 l.instances)).all (fun k =>
    let mine := s.stepTouch p l x (k * l.scratchStride)
    ((p.stepsOf l).mapIdx (fun j y =>
      j == i || !x.meets y || !clash mine (s.stepTouch p l y (k * l.scratchStride)))).all id)

/-! ## Code 5: field values and shapes -/

/-- A lode record holds legal values (R159 to R161, Table — Lode record). -/
def Plan.lodeOk (p : Plan) (l : Lode) : Bool :=
  decide (1 ≤ l.stepCount) && decide (l.firstStep + l.stepCount ≤ p.steps.length) &&
  decide (1 ≤ l.period ∧ l.period ≤ p.frameLen) && p.frameLen % l.period == 0 && decide (l.phase < l.period) &&
  decide (1 ≤ l.instances ∧ l.instances ≤ 64) && decide (1 ≤ l.duration ∧ l.duration ≤ p.frameLen) &&
  decide (l.instances ≤ ceilDiv l.duration l.period) && l.levelMask != 0 && decide (l.bagCap ≤ 4096) &&
  (p.pools l == (l.bagCap != 0)) && decide (l.maxWait ≤ 16777215) && decide (l.minIn ≤ l.maxIn) &&
  decide (l.maxIn ≤ 1048576) && l.scratchStride % 64 == 0

/-- The fields of a step record, whether or not a lode names it (R155, R162, R163, Table — Step record). -/
def Plan.recordOk (p : Plan) (x : PStep) : Bool :=
  let dep (n : Nat) : Bool := decide (n ≤ 0x3F)
  decide (1 ≤ x.laneCount ∧ x.laneCount ≤ 318) && x.eng.isSome && x.lanes.all (fun n => decide (engOf n = x.eng)) &&
  dep x.dep0 && dep x.dep1 &&
  (if x.eng = some .vault then decide (1 ≤ x.share ∧ x.share ≤ 64) else x.share == 0) &&
  x.descOff % 64 == 0 && decide (x.descOff + x.descLen ≤ p.descs.length) &&
  (x.output == decide (x.eng = some .host)) && (x.remote == decide (x.eng = some .causeway)) &&
  (x.remote || x.grant == 0xFF)

/-- What a step record owes to its lode: it ends within the lode, and its predecessors are steps of the lode (R161). -/
def Plan.stepOk (l : Lode) (x : PStep) : Bool :=
  let dep (n : Nat) : Bool := n == 0x3F || decide (n < l.stepCount)
  decide (x.start + x.duration ≤ l.duration) && dep x.dep0 && dep x.dep1

/-- An Anvil step with DEST QUEUE has its consumer: a Planisher step of the lode on the same tower, which neither starts
nor ends earlier (R308). -/
def Plan.consumerOf (p : Plan) (l : Lode) (x : PStep) : Option PStep :=
  let a := anvilDesc (p.desc x)
  match (p.stepsOf l)[a.consumer]? with
  | some y =>
    if y.eng = some .planisher ∧ y.lane - 0x108 = x.lane - 0x100 ∧ x.start ≤ y.start ∧
        x.start + x.duration ≤ y.start + y.duration then some y else none
  | none => none

/-- The Anvil steps that name step `i` of a lode as their consumer. -/
def Plan.feeders (p : Plan) (l : Lode) (i : Nat) : List PStep :=
  (p.stepsOf l).filter (fun x => decide (x.eng = some .anvil) && (anvilDesc (p.desc x)).queue &&
    (anvilDesc (p.desc x)).consumer == i)

/-- The pops of a Planisher step stand at or after the bounds of their tiles (R335). -/
def State.popsOk (s : State) (p : Plan) (l : Lode) (i : Nat) (x : PStep) : Bool :=
  let d := p.desc x
  let pops := plPopCount d
  if pops = 0 then true else
  match p.feeders l i with
  | [f] =>
    let a := anvilDesc (p.desc f)
    let cr := max a.cTerm (s.anvilRMax p.descCtx l f a)
    let ticks := (plPopTicks d).map (· + x.start)
    decide (pops ≤ a.tiles) && (List.range pops).all (fun j =>
      let t := ticks.getD j 0
      decide (f.start + tileBound cr a.tiles j ≤ t) && (decide (j < 16) || decide (ticks.getD (j - 16) 0 + 1 ≤ t)))
  | _ => false

/-- Does an engine step have one vault-lane step with its descriptor, start and duration, which no other step of its kind
of engine shares (R168, R345)? -/
def Plan.pairsWithOne (p : Plan) (l : Lode) (x : PStep) : Bool :=
  (p.mates l x).length == 1 &&
  ((p.stepsOf l).filter (fun y => decide (y.eng = x.eng) && y.descOff == x.descOff && y.start == x.start &&
    y.duration == x.duration)).length == 1

/-- The shape and the descriptor of a step, by its engine. -/
def State.stepShape (s : State) (o : Nat) (p : Plan) (l : Lode) (i : Nat) (x : PStep) : Bool :=
  let d := p.desc x
  let one := x.laneCount == 1
  match x.eng with
  | none => false
  | some .host => one && outLegal l.outLen d
  | some .ladle =>
    let g := ladleDesc d
    one && ladleLegal l.maxIn d && (!(g.srcVault || g.dstVault) || p.pairsWithOne l x)
  | some .punch => bagSetLegal d
  | some .vault =>
    (match p.role l x with
    | some .update => updLegal d
    | some _ => true
    | none => false)
  | some .solder =>
    updLegal d && ((p.stepsOf l).filter (fun y => decide (y.eng = some .solder))).length == 1 &&
    ((p.stepsOf l).filter (fun y => decide (y.eng = some .vault))).length == 1 && (p.mates l x).length == 1
  | some .anvil =>
    one && !x.pageable && anvilLegal d && (!(anvilDesc d).queue || (p.consumerOf l x).isSome)
  | some .planisher =>
    one && plLegal d && s.popsOk p l i x && s.noClash p l i x
  | some .tarn =>
    let t := tarnDesc d
    one && tarnLegal d && (if t.op = 2 then (p.mates l x).isEmpty else p.pairsWithOne l x) &&
    !(o == 16 && (t.op == 4 || t.op == 5))
  | some .riddle => one && ridLegal d
  | some .causeway =>
    one && (match p.grants[x.grant]? with
      | some g => remLegal g.reqPerFrame d
      | none => remLegal 1024 d)

/-- The host-write steps of a lode: one exactly when it writes output (R166). -/
def Plan.outputShape (p : Plan) (l : Lode) : Bool :=
  ((p.stepsOf l).filter (fun x => decide (x.eng = some .host))).length == (if l.outLen = 0 then 0 else 1)

/-- Code 5 (R179). -/
def State.check5 (s : State) (o : Nat) (p : Plan) : Verdict :=
  Verdict.or (need 5 0 (decide (1 ≤ p.lodes.length) && decide (1 ≤ p.steps.length) && decide (p.grants.length ≤ 64) &&
    decide (2 * (p.grants.map (·.reqPerFrame)).sum ≤ 512))) <|
  Verdict.or (firstFail p.lodes (fun i l => need 5 i (p.lodeOk l))) <|
  Verdict.or (firstFail p.steps (fun i x => need 5 i (p.recordOk x))) <|
  Verdict.or (firstFail p.lodes (fun _ l =>
    firstFail (p.stepsOf l) (fun j x => need 5 (l.firstStep + j) (Plan.stepOk l x)))) <|
  Verdict.or (firstFail p.lodes (fun i l => need 5 i (p.outputShape l))) <|
  Verdict.or (firstFail p.lodes (fun _ l =>
    firstFail (p.stepsOf l) (fun j x => need 5 (l.firstStep + j) (s.stepShape o p l j x)))) <|
  firstFail p.fits (fun i f => need 5 i (decide (1 ≤ f.laneCount) && decide (f.start < p.frameLen) &&
    (List.range f.laneCount).all (fun k => (laneIdx (f.lane + k)).isSome)))

/-! ## Bookings: codes 7 and 8 (R165, R308) -/

/-- The frame offsets of a lode's windows. -/
def Plan.windows (p : Plan) (l : Lode) : List Nat :=
  (List.range (p.frameLen / max 1 l.period)).map (fun k => l.phase + k * l.period)

/-- A booking: step record number, lanes, start in the frame, ticks, share, highest tier. -/
structure Booking where
  idx : Nat
  lane : Nat
  laneCount : Nat
  start : Nat
  n : Nat
  share : Nat
  tier : Nat
  deriving DecidableEq, Repr

/-- Every booking of a plan in one frame, in record order. -/
def Plan.bookings (p : Plan) : List Booking :=
  p.lodes.flatMap (fun l => ((p.stepsOf l).mapIdx (fun j x =>
    (p.windows l).map (fun w => { idx := l.firstStep + j, lane := x.lane, laneCount := x.laneCount
                                  start := (w + x.start) % max 1 p.frameLen, n := x.duration, share := x.share
                                  tier := l.tierMax : Booking }))).flatten)

/-- A cyclic span contains a tick. -/
def cycHas (len start n t : Nat) : Bool := decide ((t + len - start % len) % len < n)

/-- Two cyclic spans meet. -/
def cycMeet (len a n b m : Nat) : Bool := n != 0 && m != 0 && (cycHas len a n b || cycHas len b m a)

/-- How far from tick `a` the fit spans of a lane reach without a gap: one step of the cover. -/
def Plan.reach (p : Plan) (lane a : Nat) : Nat :=
  (p.fits.filter (fun f => decide (f.lane ≤ lane) && decide (lane < f.lane + f.laneCount) &&
    cycHas p.frameLen f.start f.length a)).foldl (fun m f =>
      max m (f.length - (a + p.frameLen - f.start % p.frameLen) % p.frameLen)) 0

/-- The fit spans of a lane cover `n` ticks from `a`. -/
def Plan.covered (p : Plan) (lane : Nat) : Nat → Nat → Nat → Bool
  | 0, _, n => n == 0
  | fuel + 1, a, n =>
    if n = 0 then true else
    let r := p.reach lane a
    if r = 0 then false else if n ≤ r then true else p.covered lane fuel ((a + r) % p.frameLen) (n - r)

/-- The fit spans cover a span on a lane. -/
def Plan.covers (p : Plan) (lane a n : Nat) : Bool := p.covered lane (p.fits.length + 1) (a % max 1 p.frameLen) n

/-- The queue spans of a plan: step record number, tower, start in the frame, ticks (R308). -/
def Plan.queueSpans (p : Plan) : List (Nat × Nat × Nat × Nat) :=
  p.lodes.flatMap (fun l => ((p.stepsOf l).mapIdx (fun j x =>
    if x.eng = some .anvil ∧ (anvilDesc (p.desc x)).queue = true then
      (match p.consumerOf l x with
      | some y => (p.windows l).map (fun w =>
          (l.firstStep + j, x.lane - 0x100, (w + x.start) % max 1 p.frameLen, y.start + y.duration - x.start))
      | none => [])
    else [])).flatten)

/-- Code 7 (R179, R308). -/
def Plan.check7f (p : Plan) (o : Nat) (f : Frame) : Verdict :=
  Verdict.or (firstFail p.fits (fun i r => need 7 i ((List.range r.laneCount).all (fun k =>
    f.spanAll (r.lane + k) r.start r.length (ownKind o))))) <|
  Verdict.or (firstFail p.bookings (fun _ b => need 7 b.idx ((List.range b.laneCount).all (fun k =>
    p.covers (b.lane + k) b.start b.n)))) <|
  firstFail p.queueSpans (fun _ q => need 7 q.1
    (p.covers (0x100 + q.2.1) q.2.2.1 q.2.2.2 && p.covers (0x108 + q.2.1) q.2.2.1 q.2.2.2))

/-- Two bookings share a lane. -/
def Booking.shares (a b : Booking) : Bool := overlaps a.lane a.laneCount b.lane b.laneCount

/-- A vault-lane booking fits: at its first tick, on each of its lanes, the shares of all bookings stay within the least
share left at any of their tiers (R165). -/
def Plan.vaultFits (p : Plan) (bs : List Booking) (b : Booking) : Bool :=
  (List.range b.laneCount).all (fun k =>
    let here := bs.filter (fun c => decide (c.lane ≤ b.lane + k) && decide (b.lane + k < c.lane + c.laneCount) &&
      cycHas (max 1 p.frameLen) c.start c.n b.start)
    decide ((here.map (·.share)).sum ≤ here.foldl (fun m c => min m (tierLeft c.tier)) 64))

/-- Code 8 (R165, R308). A Causeway lane serves one step in a tick as an engine lane does not: R165 names engine and
host-write lanes. -/
def Plan.check8f (p : Plan) : Verdict :=
  let bs := p.bookings
  let len := max 1 p.frameLen
  Verdict.or ((bs.mapIdx (fun i b =>
    if b.lane < 0x100 then need 8 b.idx (p.vaultFits bs b)
    else if 0x140 ≤ b.lane then none
    else need 8 b.idx ((bs.mapIdx (fun j c => i == j || !b.shares c || !cycMeet len b.start b.n c.start c.n)).all id)
    )).findSome? id) <|
  (p.queueSpans.mapIdx (fun i q =>
    need 8 q.1 ((p.queueSpans.mapIdx (fun j r =>
      i == j || q.2.1 != r.2.1 || !cycMeet len q.2.2.1 q.2.2.2 r.2.2.1 r.2.2.2)).all id))).findSome? id

/-! ## Code 9: worst cases (R164) -/

/-- Does a bag set of owner `o` name a table installed with REMAP (notes/assumptions/27.md)? -/
def State.bagRemap (s : State) (o : Nat) (b : BagSet) : Bool :=
  let remap (t : Nat) : Bool := match SMap.get none s.tables (1024 * o + t) with
    | some x => x.hash == 3
    | none => false
  b.recs.any (fun r => remap r.1) || (b.oneMax != 0 && remap b.oneTable)

/-- The worst case of a Riddle step (R358). -/
def ridWorst (r : RidDesc) : Nat :=
  7 + ceilDiv r.c 8192 + ceilDiv r.k 8 + (if !r.beam && r.withId then ceilDiv r.k 64 else 0)

/-- The worst case of a step, before FAULT_ALLOW. -/
def State.worst (s : State) (o : Nat) (p : Plan) (l : Lode) (x : PStep) : Nat :=
  let d := p.desc x
  match x.eng with
  | none => 0
  | some .host => 3 + ceilDiv (outDesc d).bytes 128
  | some .ladle => ladleWorst (ladleDesc d) (match p.mates l x with | y :: _ => y.share | [] => 0)
  | some .punch =>
    let b := bagSet d
    let n := ceilDiv (b.maxIdx + b.oneMax) x.laneCount
    4 + ceilDiv n 256 + (if s.bagRemap o b then 2 + ceilDiv n 64 else 0)
  | some .solder => let u := updDesc d; 4 + ceilDiv (u.towerCap * u.maxDim) 128
  | some .vault =>
    (match p.role l x with
    | some .gather =>
      let b := bagSet d
      1 + max (ceilDiv (b.vaultCap * b.maxPitch) (10 * x.share)) (ceilDiv (128 * b.vaultCap) (7 * x.share)) + 2 +
        ceilDiv ((b.bags + b.oneMax) * b.maxDim) 16384
    | some .update =>
      let u := updDesc d
      1 + max (ceilDiv (3 * u.vaultCap * u.maxCopy) (10 * x.share)) (ceilDiv (256 * u.vaultCap) (7 * x.share)) + 2
    | some .ladle => ladleWorst (ladleDesc d) x.share
    | some .slab => tarnWorst (tarnDesc d) x.share
    | none => 0)
  | some .anvil =>
    let a := anvilDesc d
    let base := 5 + max (max a.cTerm (s.anvilRMax p.descCtx l x a)) a.vTerm
    if a.queue && decide (16 < a.tiles) then
      (match p.consumerOf l x with
      | some y =>
        (match (plPopTicks (p.desc y))[a.tiles - 17]? with
        | some t => max base (t + y.start - x.start + 2)
        | none => x.duration + 1)
      | none => base)
    else base
  | some .planisher => plWorst d
  | some .tarn => tarnWorst (tarnDesc d) (match p.mates l x with | y :: _ => y.share | [] => 0)
  | some .riddle => ridWorst (ridDesc d)
  | some .causeway =>
    let r := remDesc d
    let body := if r.push then 32 + r.bytes else 32 + 8 * l.bagCap
    2 + ceilDiv (r.reqs * ceilDiv body 228) 3
where
  /-- R169. -/
  ladleWorst (g : LadleDesc) (share : Nat) : Nat :=
    let m := b2n g.srcVault + b2n g.dstVault
    let q := if m = 0 then 0 else
      max (ceilDiv (m * g.vaultBytes) (10 * share)) (ceilDiv (128 * m * ceilDiv g.vaultBytes 1024) (7 * share))
    2 + max (ceilDiv g.bytes 4096) q
  /-- R352. -/
  tarnWorst (t : TarnDesc) (share : Nat) : Nat :=
    let q := max (ceilDiv (4096 * t.vaultCap) (10 * share)) (ceilDiv (512 * t.vaultCap) (7 * share))
    match t.op with
    | 0 => 1 + max (ceilDiv t.winBytes 32768) q
    | 1 => 2 + max (ceilDiv (t.newEv * t.layers * 4 * t.kvDim) 32768) q
    | 2 => 2 + ceilDiv (t.beams * (t.pos + 1) * (2 + 4 * t.layers * t.kvDim)) 32768
    | 3 => 2 + q
    | _ => 1 + q

/-- Code 9 (R164). -/
def State.check9 (s : State) (o : Nat) (p : Plan) : Verdict :=
  firstFail p.lodes (fun _ l => firstFail (p.stepsOf l) (fun j x =>
    need 9 (l.firstStep + j) (decide (s.worst o p l x + (if x.pageable then l.faultAllow else 0) ≤ x.duration))))

/-! ## Codes 10 to 12 -/

/-- The import entries that match a grant reference of an owner (R379): the CW_IMP registers of Causeway page 0. The
PF has none. -/
def State.importOf (s : State) (o : Nat) (g : GrantRef) : Option Nat :=
  (List.range 64).find? (fun i => s.rdi F.CW_IMP_VALID 0 i == 1 && s.rdi F.CW_IMP_POLDER 0 i == o &&
    s.rdi F.CW_IMP_PEER 0 i == g.peer && s.rdi F.CW_IMP_GRANT 0 i == g.grant && decide (g.reqPerFrame ≤ s.rdi F.CW_IMP_RATE 0 i))

/-- Code 10 (R179, R379): every grant reference matches an import entry, and every remote step names a reference. -/
def State.check10 (s : State) (o : Nat) (p : Plan) : Verdict :=
  Verdict.or (firstFail p.grants (fun i g => need 10 i (s.importOf o g).isSome)) <|
  firstFail p.steps (fun i x => need 10 i (!x.remote || decide (x.grant < p.grants.length)))

/-- Code 11: no booked engine is benched. -/
def State.check11 (s : State) (p : Plan) : Verdict :=
  firstFail p.lodes (fun _ l => firstFail (p.stepsOf l) (fun j x =>
    need 11 (l.firstStep + j) (x.lanes.all (fun n => !s.benched n))))

/-- Bytes [va, va + len) lie in one valid PINNED writable object of a context, and every page translates to device
memory (R179). -/
def State.destOk (s : State) (c va len : Nat) : Bool :=
  len == 0 ||
  (match s.mobAt c (va / 4096) with
  | none => false
  | some m => m.pinned && m.write && !m.broken && decide (va + len ≤ (m.page + m.pages) * 4096) &&
    (List.range ((va + len - 1) / 4096 - va / 4096 + 1)).all (fun i =>
      match s.xlate c (max va ((va / 4096 + i) * 4096)) true with
      | .vault _ | .mere _ => true
      | _ => false))

/-- The descriptor of a Planisher step lies in Mere (R319). -/
def State.inMere (s : State) (c va len : Nat) : Bool :=
  (List.range ((va + len - 1) / 4096 - va / 4096 + 1)).all (fun i =>
    match s.xlate c (max va ((va / 4096 + i) * 4096)) true with
    | .mere _ => true
    | _ => false)

/-- Code 12 (R179, R182, R319). -/
def State.check12 (s : State) (o : Nat) (p : Plan) : Verdict :=
  let n := p.descs.length
  let clear := match s.planOf o with
    | some q => q.descCtx != p.descCtx || !overlaps q.descVa q.descs.length p.descVa n
    | none => true
  Verdict.or (need 12 0 (decide (p.descCtx < 256) && s.ownerOf .context p.descCtx == o && s.destOk p.descCtx p.descVa n &&
    clear)) <|
  firstFail p.steps (fun i x => need 12 i (decide (x.eng ≠ some .planisher) || x.descLen == 0 ||
    s.inMere p.descCtx (p.descVa + x.descOff) x.descLen))

/-! ## The sequences -/

/-- Codes 6 to 11 of a plan against a frame (R179, R180, R187). -/
def State.planFit (s : State) (o : Nat) (p : Plan) (f : Option Frame) : Verdict :=
  match f with
  | none => some (6, 0)
  | some f =>
    Verdict.or (need 6 0 (p.frameLen == f.length)) <|
    Verdict.or (p.check7f o f) <|
    Verdict.or p.check8f <|
    Verdict.or (s.check9 o p) <|
    Verdict.or (s.check10 o p) <|
    s.check11 p

/-- The target frame of a load: the staged frame, else the frame in force (R179). -/
def State.targetFrame (s : State) : Option Frame := match s.stagedFrame with | some f => some f | none => s.frame

/-- Codes 5 to 12 of a load (R179). -/
def State.planCheck (s : State) (o : Nat) (p : Plan) : Verdict :=
  Verdict.or (s.check5 o p) <| Verdict.or (s.planFit o p s.targetFrame) <| s.check12 o p

end Sys2Proof.Machine
end

