-- ==== Sys2Proof/Machine/Plans.lean ====
section
/-! DEFINITION. Loading plans and frames, and arming their switches (spec/08_plans_lodes.md, R180 to R188). A command that
is refused (BUSY, BAD_STATE, PLAN_UNFIT) takes no fence (notes/assumptions/31.md). -/

namespace Sys2Proof.Machine
open Sys2Proof

/-! ## Boundaries and arming (R157, R184, R188) -/

/-- The first frame boundary at or after tick `t`: `RV_FRAME_START` + k × LENGTH, k ≥ 1. -/
def State.boundaryFrom (s : State) (f : Frame) (t : Nat) : Nat :=
  let start := s.rd F.RV_FRAME_START_TICK 0
  start + max 1 (ceilDiv (t - start) f.length) * f.length

/-- The latest planned end of the admitted runs of the affected owners (R184). -/
def State.lastEnd (s : State) (q : Nat → Bool) : Nat :=
  ((s.runs.filter (fun r => decide (r.phase ≠ .queued) && q r.owner)).map s.plannedEnd).foldl max 0

/-- The boundary B of a switch armed now (R184); with no frame in force, the first tick that is a multiple of 64 and at
least 64 ticks away (R188). -/
def State.switchAt (s : State) (q : Nat → Bool) : Nat :=
  match s.frame with
  | some f => s.boundaryFrom f (max (s.tick + 64) (s.lastEnd q))
  | none => ceilDiv (s.tick + 64) 64 * 64

/-- Arm the plan switch of an owner (R183). A plan staged while a frame is staged waits for that frame's COMMIT, and one
staged after it takes effect with the frame (R186); with no frame in force there is no boundary, and the plan takes effect
with the first frame. -/
def State.armPlan (s : State) (o : Nat) : State :=
  let at_ (b : Nat) : State :=
    { s with planArmed := SMap.put none s.planArmed o (some { boundary := b, dropUnfit := false, fence := none }) }
  match s.frameArmed with
  | some a => at_ a.boundary
  | none => if s.stagedFrame.isSome ∨ s.frame.isNone then s else at_ (s.switchAt (· == o))

/-- Stage a plan, and arm its switch. -/
def State.stagePlan (s : State) (o : Nat) (p : Plan) : State :=
  State.armPlan { s with stagedPlans := SMap.put none s.stagedPlans o (some p)
                         planArmed := SMap.put none s.planArmed o none } o

/-- The empty plan that UNLOAD stages (R183). -/
def emptyPlan : Plan :=
  { crc := 0, frameLen := 0, lodes := [], steps := [], fits := [], grants := [], descs := [], descVa := 0, descCtx := 0 }

/-! ## `PLN_CMD` -/

/-- Set `PLN_STATUS`. -/
def State.plnStatus (s : State) (o v idx : Nat) : State :=
  (s.wr F.PLN_STATUS_STATUS o v).wr F.PLN_STATUS_FAIL_INDEX o idx

/-- The status codes that no check gives. -/
def plBusy : Nat := 13
def plAborted : Nat := 14
def plBadState : Nat := 15

/-- May the owner load now: the PF always, a polder while CONFIGURING or ACTIVE? -/
def State.mayLoad (s : State) (o : Nat) : Bool := o == 16 || s.pst o == pConfiguring || s.pst o == pActive

/-- The bus address of an image, from the Staithe and offset that a source register names (R181). -/
def State.imageAddr (s : State) (o staithe offset : Nat) : Nat := s.sthBase o staithe + offset * 4096

/-- LOAD and UNLOAD: refused while a load runs or in a wrong state, else started as a long operation (R179, R181). -/
def State.plnStart (s : State) (o : Nat) (fe : Option Nat) (total : Nat) (t : Task) : State :=
  if s.opBusy .pln o then s.plnStatus o plBusy 0
  else if !s.mayLoad o then s.plnStatus o plBadState 0
  else ((s.wr F.PLN_PROGRESS_DONE o 0).wr F.PLN_PROGRESS_TOTAL o total).startOp .pln o o fe total t

/-- LOAD (R181, R182). The image is read from the loader's Staithe; its bytes are the command's operand. -/
def State.plnLoad (s : State) (o : Nat) (fe : Option Nat) (image : List Byte) (cpl : Cpl) : State :=
  if s.opBusy .pln o || !s.mayLoad o then s.plnStart o fe 0 .planUnload else
  let ctx := (s.fromLocal o .context (s.rd F.PLN_DESC_CTX o)).getD 256
  let s1 := s.wr F.PLN_STATUS_DROPPED o 0
  let s2 := if s.bme o then
      s1.hostRead o (s.imageAddr o (s.rd F.PLN_SRC_STAITHE o) (s.rd F.PLN_SRC_OFFSET o)) image.length else s1
  s2.plnStart o fe (numAt image 8 4) (.planLoad image (if s.bme o then cpl else .notIssued) (s.rd F.PLN_DESC_VA o * 64) ctx)

/-- PLN_LOAD (R181). -/
def execPlnLoad (fn : Fn) (fence : Option Nat) (image : List Byte) (cpl : Cpl) (s : State) : Res :=
  .next (s.ownDo fn (s.plnLoad fn.idx fence image cpl))

/-- PLN_UNLOAD (R183). -/
def execPlnUnload (fn : Fn) (fence : Option Nat) (s : State) : Res :=
  .next (s.ownDo fn (s.plnStart fn.idx fence 0 .planUnload))

/-- PLN_RESUME (R428). -/
def execPlnResume (fn : Fn) (fence : Option Nat) (s : State) : Res :=
  .next (s.ownDo fn (s.resumeOp .pln fn.idx fn.idx fence .owner fn.idx 0x110))

/-- PLN_ABORT (R181, R428). -/
def execPlnAbort (fn : Fn) (fence : Option Nat) (s : State) : Res :=
  .next (s.ownDo fn (s.abortOp .pln fn.idx fn.idx fence .owner fn.idx 0x110 (fun t _ => t.plnStatus fn.idx plAborted 0)))

/-- The image could not be read: STATUS is not stated; it is a free value (notes/assumptions/26.md). -/
def State.freeStatus (s : State) : Nat × State := let (v, t) := s.fresh; (v % 16, t)

/-- The final step of a plan load: the checks, the copy of the descriptor section, and the staging. A load that fails
leaves the plan in force and the staged plan as they were. -/
def State.planLoadEnd (s : State) (op : LongOp) (image : List Byte) (cpl : Cpl) (va ctx : Nat) : State :=
  let o := op.owner
  if cpl ≠ .ok then let (v, s1) := s.freeStatus; (s1.plnStatus o v 0).endFree op else
  let p := parsePlan image va ctx
  match Verdict.or (planImageCheck image (s.rd F.RV_CFG_PLAN_SIG 0 == 1) s.bank) (s.planCheck o p) with
  | some (code, idx) => (s.plnStatus o code idx).endFree op
  | none =>
    let (_, s1) := s.writeVa ctx va p.descs true .background
    ((s1.plnStatus o 0 0).stagePlan o p).endOp op none

/-- One step of a plan load: `n` bytes of the image are processed; the last step stages. -/
def State.planLoadStep (s : State) (op : LongOp) (image : List Byte) (cpl : Cpl) (va ctx n : Nat) : State :=
  let d := min op.total (op.done + n)
  let s1 := s.wr F.PLN_PROGRESS_DONE op.owner d
  if op.total ≤ op.done + n ∨ cpl ≠ .ok then s1.planLoadEnd op image cpl va ctx else s1.setOp { op with done := d }

/-- The one step of an UNLOAD. -/
def State.planUnloadStep (s : State) (op : LongOp) : State :=
  ((s.plnStatus op.owner 0 0).stagePlan op.owner emptyPlan).endOp op none

/-! ## `RV_CMD` -/

/-- Set `RV_STATUS`. -/
def State.rvStatus (s : State) (v lane polder : Nat) : State :=
  ((s.wr F.RV_STATUS_STATUS 0 v).wr F.RV_STATUS_FAIL_LANE 0 lane).wr F.RV_STATUS_FAIL_POLDER 0 polder

/-- LOAD of a frame (R180, R181). -/
def State.rvLoad (s : State) (fe : Option Nat) (image : List Byte) (cpl : Cpl) : State :=
  if s.opBusy .rv 0 then s.rvStatus plBusy 0 0 else
  let total := numAt image 8 4
  let s1 := if s.bme 16 then
      s.hostRead 16 (s.imageAddr 16 (s.rd F.RV_FRAME_SRC_STAITHE 0) (s.rd F.RV_FRAME_SRC_OFFSET 0)) image.length else s
  ((s1.wr F.RV_PROGRESS_DONE 0 0).wr F.RV_PROGRESS_TOTAL 0 total).startOp .rv 0 16 fe total
    (.frameLoad image (if s.bme 16 then cpl else .notIssued))

/-- RV_LOAD (R180). -/
def execRvLoad (fn : Fn) (fence : Option Nat) (image : List Byte) (cpl : Cpl) (s : State) : Res :=
  .next (s.pfDo fn (s.rvLoad fence image cpl))

/-- The final step of a frame load. -/
def State.frameLoadEnd (s : State) (op : LongOp) (image : List Byte) (cpl : Cpl) : State :=
  if cpl ≠ .ok then let (v, s1) := s.freeStatus; (s1.rvStatus v 0 0).endFree op else
  match frameCheck image (s.rd F.RV_CFG_FRAME_SIG 0 == 1) s.bank with
  | some (code, lane) => (s.rvStatus code lane 0).endFree op
  | none => State.endOp { s.rvStatus 0 0 0 with stagedFrame := some (parseFrame image) } op none

/-- One step of a frame load. -/
def State.frameLoadStep (s : State) (op : LongOp) (image : List Byte) (cpl : Cpl) (n : Nat) : State :=
  let d := min op.total (op.done + n)
  let s1 := s.wr F.RV_PROGRESS_DONE 0 d
  if op.total ≤ op.done + n ∨ cpl ≠ .ok then s1.frameLoadEnd op image cpl else s1.setOp { op with done := d }

/-- The first polder whose plan in force does not fit a frame (R180, code 8). -/
def State.unfit (s : State) (f : Frame) : Option Nat :=
  (List.range 16).find? (fun p => decide (s.pst p ≠ pFree) && (match s.planOf p with
    | some pl => (s.planFit p pl (some f)).isSome
    | none => false))

/-- A COMMIT arms, for the frame's boundary, every staged plan that waited for it (R183, R186), or for an earlier COMMIT
that this one replaces. -/
def State.armStaged (s : State) (b : Nat) : State :=
  { s with planArmed := (List.range 17).foldl (fun m o =>
      let waits := match SMap.get none m o with
        | none => true
        | some x => (match s.frameArmed with | some a => x.boundary == a.boundary | none => false)
      if (SMap.get none s.stagedPlans o).isSome && waits then
        SMap.put none m o (some { boundary := b, dropUnfit := false, fence := none })
      else m) s.planArmed }

/-- COMMIT (R183, R187). The command's fence is held until the switch takes effect. A COMMIT that finds an unfit plan
arms nothing and keeps the staged frame (notes/assumptions/31.md). -/
def State.rvCommit (s : State) (drop : Bool) (fe : Option Nat) : State :=
  if s.opBusy .rv 0 then s.rvStatus plBusy 0 0 else
  match s.stagedFrame with
  | none => s.illegal .reeve 0 0x050
  | some f =>
    match (if drop then none else s.unfit f) with
    | some p => s.rvStatus 8 0 p
    | none =>
      let (fence, s1) := s.takeFence 16 fe ⟨.rv, 0⟩
      let old := (match s1.frameArmed with | some a => a.fence | none => none)
      let b := s1.switchAt (fun _ => true)
      State.signalOpt { (s1.rvStatus 0 0 0).armStaged b with
        frameArmed := some { boundary := b, dropUnfit := drop, fence := fence } } old none

/-- RV_COMMIT (R183). -/
def execRvCommit (fn : Fn) (dropUnfit : Bool) (fence : Option Nat) (s : State) : Res :=
  .next (s.pfDo fn (s.rvCommit dropUnfit fence))

/-- RV_RESUME (R428). -/
def execRvResume (fn : Fn) (fence : Option Nat) (s : State) : Res :=
  .next (s.pfDo fn (s.resumeOp .rv 0 16 fence .reeve 0 0x050))

/-- RV_ABORT (R181, R428). -/
def execRvAbort (fn : Fn) (fence : Option Nat) (s : State) : Res :=
  .next (s.pfDo fn (s.abortOp .rv 0 16 fence .reeve 0 0x050 (fun t _ => t.rvStatus plAborted 0 0)))

/-- A staged plan that waited for the frame is checked against the frame in force, and armed or dropped
(notes/assumptions/29.md). -/
def State.releasePlan (s : State) (o : Nat) : State :=
  match SMap.get none s.stagedPlans o, SMap.get none s.planArmed o with
  | some p, none =>
    if p.lodes.isEmpty then s.armPlan o else
    (match s.planFit o p s.frame with
    | none => s.armPlan o
    | some (code, idx) => State.plnStatus { s with stagedPlans := SMap.drop o s.stagedPlans } o code idx)
  | _, _ => s

/-- DISCARD: the staged frame goes; illegal while a commit is armed. -/
def State.rvDiscard (s : State) (fe : Option Nat) : State :=
  if s.opBusy .rv 0 then s.rvStatus plBusy 0 0
  else if s.frameArmed.isSome then s.illegal .reeve 0 0x050
  else if s.stagedFrame.isNone then s.doneFence 16 fe ⟨.rv, 0⟩ none
  else
    let s1 : State := { s with stagedFrame := none }
    ((List.range 17).foldl (fun t o => t.releasePlan o) s1).doneFence 16 fe ⟨.rv, 0⟩ none

/-- RV_DISCARD (R181). -/
def execRvDiscard (fn : Fn) (fence : Option Nat) (s : State) : Res := .next (s.pfDo fn (s.rvDiscard fence))

end Sys2Proof.Machine
end

