-- ==== Sys2Proof/Machine/Steps.lean ====
section
/-! DEFINITION. The steps of an admitted run: finding one, its descriptor, its failures and the end of its work
(spec/08_plans_lodes.md, R162, R174 to R178; spec/05_host_objects_fences.md, R97, R98). -/

namespace Sys2Proof.Machine
open Sys2Proof

/-- A step that runs: its run, the plan and lode it follows, its index in the lode, and the tick it started. -/
structure Act where
  run : Run
  plan : Plan
  lode : Lode
  idx : Nat
  step : PStep
  start : Nat

/-- Step `i` of a run, when it is running. -/
def State.act? (s : State) (id i : Nat) : Option Act :=
  match s.run? id with
  | none => none
  | some r =>
    match s.runPlan r, s.runLode r, s.stepOf r i, r.steps[i]? with
    | some p, some l, some x, some (.running t) =>
      if r.phase = .admitted then some { run := r, plan := p, lode := l, idx := i, step := x, start := t } else none
    | _, _, _, _ => none

/-- May a running step work in the present tick, and with it the vault-lane steps that work for it (R174, R176)? -/
def State.actWorks (s : State) (a : Act) : Bool :=
  s.mayWork a.run a.idx a.step && (a.plan.mates a.lode a.step).all (fun y => s.mayWork a.run a.idx y)

/-- Step `i` of a run, when it is running and may work in the present tick. -/
def State.workNow? (s : State) (id i : Nat) : Option Act :=
  match s.act? id i with
  | some a => if s.actWorks a then some a else none
  | none => none

/-- The work of a command that a weir denied a slot is not done: its accesses wait for a later tick (R203). -/
def State.unlessDenied (s t : State) : State := if t.denied then s else t

/-- Do something with a running step of the given kind of engine that has met no failure, in a tick in which it may work
(R174); otherwise nothing happens. -/
def State.onStep (s : State) (id i : Nat) (e : Eng) (f : Act → State) : State :=
  match s.act? id i with
  | some a =>
    if a.step.eng = some e ∧ a.run.late.any (fun x => x.1 == i) = false ∧ s.actWorks a = true then s.unlessDenied (f a) else s
  | none => s

/-- The polder or PF whose run this is, as the maker of an access. -/
def Act.who (a : Act) : Who := .run a.run.id a.run.owner

/-- Instance × SCRATCH_STRIDE, which every Mere address of a step takes (R160). -/
def Act.off (a : Act) : Nat := a.run.inst * a.lode.scratchStride

/-- Record a failure that the run signals at the planned end tick of step `i`. -/
def State.late (s : State) (id i : Nat) (e : Err) : State :=
  s.modRun id (fun r => { r with late := r.late ++ [(i, e)] })

/-- What a Punch passed to the gather steps of its bag set, and what those passed to the merge tree, is gone once they have
all ended (R9). -/
def State.dropPaths (s : State) (r : Run) (x : PStep) : State :=
  let path (y : PStep) : Bool := y.descOff == x.descOff && (y.eng == some .punch || y.eng == some .vault)
  match s.run? r.id with
  | none => s
  | some q =>
    let ended := (List.zip (s.stepsOf q) q.steps).all (fun y => !path y.1 || decide (y.2 = .complete))
    if !path x || !ended then s else
    s.modRun r.id (fun q => { q with data := q.data.map (fun d =>
      match (s.stepsOf q)[d.step]? with
      | some y => if path y then { d with bags := [], parts := [] } else d
      | none => d) })

/-- The work of a step is done. -/
def State.workDone (s : State) (a : Act) : State := s.modRun a.run.id (fun r => r.setStep a.idx (.worked a.start))

/-- The data of step `i` of a run. -/
def Run.dataOf (r : Run) (i : Nat) : StepData := (r.data.find? (fun d => d.step == i)).getD { step := i }

/-- Set the data of a step. -/
def State.setData (s : State) (id : Nat) (d : StepData) : State :=
  s.modRun id (fun r => { r with data := r.data.filter (fun d' => d'.step != d.step) ++ [d] })

/-- Read the descriptor of a step, where the load put it (R182); with it, the state that the read leaves. -/
def State.descOf (s : State) (a : Act) : Got × State :=
  s.readVa a.plan.descCtx (a.plan.descVa + a.step.descOff) a.step.descLen true a.who

/-- Read a step's descriptor and go on; a descriptor that cannot be read fails the run at this tick (R212). -/
def State.withDesc (s : State) (a : Act) (f : List Byte → State → State) : State :=
  match s.descOf a with
  | (.bytes d, s1) => f d s1
  | (.fail e, s1) => s1.failRun a.run.id e

/-- Read a step's descriptor and go on; a descriptor that cannot be read fails the run at the step's planned end, as every
failure of the engines whose chapters say so (R347, R358). -/
def State.withDescLate (s : State) (a : Act) (f : List Byte → State → State) : State :=
  match s.descOf a with
  | (.bytes d, s1) => f d s1
  | (.fail e, s1) => s1.late a.run.id a.idx e

/-- Read bytes in the context of a step's run. -/
def State.get (s : State) (a : Act) (va n : Nat) : Got × State := s.readVa a.run.ctx va n false a.who

/-- Write bytes in the context of a step's run. -/
def State.put (s : State) (a : Act) (va : Nat) (bs : List Byte) : Option Err × State :=
  s.writeVa a.run.ctx va bs false a.who

/-- Write rows of bytes, in order, until one fails. -/
def State.putRows (s : State) (a : Act) : List (Nat × List Byte) → Option Err × State
  | [] => (none, s)
  | (va, bs) :: t =>
    match s.put a va bs with
    | (some e, s1) => (some e, s1)
    | (none, s1) => s1.putRows a t

/-- Read pieces, in order, until one fails; their bytes are joined. -/
def State.getAll (s : State) (a : Act) : List (Nat × Nat) → List Byte → Got × State
  | [], acc => (.bytes acc, s)
  | (va, n) :: t, acc =>
    match s.get a va n with
    | (.fail e, s1) => (.fail e, s1)
    | (.bytes b, s1) => s1.getAll a t (acc ++ b)

/-- The index of the first step of the lode that books vault lanes with the step's descriptor, start and duration. -/
def Act.mate (a : Act) : Option PStep := (a.plan.mates a.lode a.step).head?

/-- Is the vault among the lanes of a step? -/
def PStep.hasVault (x : PStep) (v : Nat) : Bool := x.books v

/-- The staged input bytes of a run, which the engines read by offset; bytes that were not staged are not there. -/
def Act.input (a : Act) : List Byte := a.run.staged

/-- [off, off + n) lies within the staged input. -/
def Act.inInput (a : Act) (off n : Nat) : Bool := decide (off + n ≤ a.run.staged.length)

/-! ## The codes that are due in one tick (R98) -/

/-- Has a step completed? -/
def stepOver : Option StepSt → Bool
  | some .complete => true
  | _ => false

/-- The engine step that a vault-lane step works for (R168, R263, R345): its index. -/
def partnerOf (p : Plan) (l : Lode) (x : PStep) : Option Nat :=
  match p.role l x with
  | some .gather | none => none
  | some _ => (p.stepsOf l).findIdx? (fun y => y.eng != some .vault && y.descOff == x.descOff && y.start == x.start &&
      y.duration == x.duration)

/-- Has the work of a step been done: its own, or for a vault-lane step its engine step's? -/
def workOver (r : Run) (p : Plan) (l : Lode) (i : Nat) (x : PStep) : Bool :=
  let ended : Option StepSt → Bool
    | some (.worked _) | some .complete => true
    | _ => false
  match x.eng, partnerOf p l x with
  | some .vault, some j => ended r.steps[j]?
  | _, _ => (match r.steps[i]? with | some (.worked _) => true | _ => false)

/-- The codes of the steps of a run that have reached their planned end incomplete: a failure that the step has found, or
E_DEADLINE (R98, R177). A vault-lane step follows its engine step. -/
def State.endCodes (s : State) (r : Run) (p : Plan) (l : Lode) : List (Nat × Err) :=
  ((s.stepsOf r).zipIdx).flatMap (fun y =>
    let x := y.1
    let i := y.2
    if s.tick < r.admittedAt + x.start + x.duration ∨ stepOver r.steps[i]? = true
      ∨ workOver r p l i x = true then [] else
    let own := r.late.filter (fun z => z.1 == i)
    let other := match partnerOf p l x with | some j => r.late.any (fun z => z.1 == j) | none => false
    if !own.isEmpty then own else if other then [] else [(i, Err.deadline)])

/-- Does a step stand: stalled on a page, or waiting to resume once it is filled (R145, R146)? -/
def StepSt.stands : StepSt → Bool
  | .stalled _ _ _ | .filled _ _ _ => true
  | _ => false

/-- The ticks that a run's steps have stood stalled, those of every step added (R147, notes/assumptions/25.md). -/
def State.stalledSoFar (s : State) (r : Run) : Nat :=
  r.stalledTicks + (r.steps.map (fun x => match x with | .stalled _ since _ | .filled _ since _ => s.tick - since | _ => 0)).sum

/-- The fault allowance of a run's lode. -/
def State.allowance (s : State) (r : Run) : Nat :=
  match s.runLode r with | some l => l.faultAllow | none => 0

/-- E_FAULT_UNSERVICED, once the stalled ticks of a run reach its lode's allowance while a step is still stalled (R147). -/
def State.stallCodes (s : State) (r : Run) : List Err :=
  if r.steps.any StepSt.stands ∧ s.allowance r ≤ s.stalledSoFar r
  then [.faultUnserviced] else []

/-- The lowest of a code and the others that are due for the run in this tick (R98): of steps at their planned end, of its
fault allowance, and of a stop. -/
def State.withDue (s : State) (id : Nat) (e : Err) : Err :=
  match s.run? id with
  | none => e
  | some r =>
    let ends := match s.runPlan r, s.runLode r with
      | some p, some l => (s.endCodes r p l).map (·.2)
      | _, _ => []
    (Err.lowest (ends ++ s.stallCodes r)).elim e (fun x => e.lower x)

/-- A run fails once its stalled ticks reach its lode's allowance while a step is still stalled (R147). -/
def State.allowanceExpiry (s : State) (id : Nat) : State :=
  match s.run? id with
  | none => s
  | some r => if s.stallCodes r = [] then s else s.failRun id (s.withDue id .faultUnserviced)

/-- FAULT_ALLOWANCE_EXPIRY (R147). -/
def execFaultAllowanceExpiry (run : Nat) (s : State) : Res := .next (s.allowanceExpiry run)

/-! ## Errors in an engine's own storage (R439) -/

/-- The first counter of a spine engine, by its lane (Table — Device counters). -/
def spineCnt (lane : Nat) : Option Nat :=
  if 0x118 ≤ lane ∧ lane < 0x11E then some (768 + 8 * (lane - 0x118))
  else if 0x120 ≤ lane ∧ lane < 0x130 then some (768 + 8 * (6 + (lane - 0x120)))
  else none

/-- The polder that a CPER record of a run's failure names (Table — Section body). -/
def Act.cperPolder (a : Act) : Nat := if a.run.owner = 16 then 0xFF else a.run.owner

/-- What a step's engine finds in its own storage: a correctable error is counted; an uncorrectable one fails the run with
E_POISON and marks the engine. The run carries the lower code of the two failures (R441). -/
def State.flawed (s : State) (a : Act) (f : Flaw) (k : State → State) : State :=
  match f with
  | .none => k s
  | .corrected => k (match spineCnt a.step.lane with | some c => s.count (c + 6) 1 | none => s)
  | .uncorrectable =>
    (s.failRun a.run.id .poison).mark a.step.lane { cause := 3, polder := a.cperPolder }

/-- The same for a slab operation, whose every failure is signalled at its planned end (R347). -/
def State.flawedLate (s : State) (a : Act) (f : Flaw) (k : State → State) : State :=
  match f with
  | .uncorrectable => (s.late a.run.id a.idx .poison).mark a.step.lane { cause := 3, polder := a.cperPolder }
  | _ => s.flawed a f k

end Sys2Proof.Machine
end

