-- ==== Sys2Proof/Machine/Movers.lean ====
section
/-! DEFINITION. The work of Ladle steps and of output steps (spec/08_plans_lodes.md, R166 to R170; spec/06_staithe.md, R122,
R127, R128). -/

namespace Sys2Proof.Machine
open Sys2Proof

/-! ## Pages of a range -/

/-- The vaults that serve a range, with the bytes of each piece; pages that do not translate to vault memory serve none. -/
def State.vaultPieces (s : State) (c va n : Nat) (write : Bool) : List (Nat × Nat) :=
  (pagePieces (n / 4096 + 2) va n).filterMap (fun p =>
    match s.xlate c p.1 write with
    | .vault x => (s.locate x).map (fun vl => (vl.1, p.2))
    | _ => none)

/-- Bytes that one vault serves. -/
def servedBy (ps : List (Nat × Nat)) (v : Nat) : Nat := ((ps.filter (fun p => p.1 == v)).map (·.2)).sum

/-- The page of a PAGEABLE object on which a step with the PAGEABLE flag stalls (R144): its kind. -/
def State.stallKind (s : State) (a : Act) (va : Nat) (write : Bool) : Option Nat :=
  match s.mobAt a.run.ctx (va / 4096), s.xlate a.run.ctx va write with
  | some m, .fail k => if !m.pinned && a.step.pageable && (k == kNotPresent || k == kWriteDenied) then some k else none
  | _, _ => none

/-- The first page of [va, va + n) on which the step stalls: its kind, and the address reached there. -/
def State.stallAt (s : State) (a : Act) (va n : Nat) (write : Bool) : Option (Nat × Nat) :=
  (pagePieces (n / 4096 + 2) va n).findSome? (fun p => (s.stallKind a p.1 write).map (·, p.1))

/-- A step reaches an element on an unrepaired page (R144, R145, R147): it stalls on the page's fault, or the run fails. -/
def State.stall (s : State) (a : Act) (kind va : Nat) (write : Bool) : State :=
  let (ok, s1) := s.raiseFault a.run kind va write
  if !ok then s1.failRun a.run.id .faultUnserviced else
  match s1.faults.find? (fun f => f.ctx == a.run.ctx && overlaps f.page f.pages (va / 4096) 1) with
  | none => s1
  | some f => (s1.modRun a.run.id (fun r => r.setStep a.idx (.stalled a.start s.tick f.id))).allowanceExpiry a.run.id

/-! ## Ladle steps -/

/-- The source and the destination of a Ladle step, with the instance's offset (R160). -/
def Act.ladleSrc (a : Act) (d : LadleDesc) : Nat := if d.srcVault then d.src else d.src + a.off
def Act.ladleDst (a : Act) (d : LadleDesc) : Nat := if d.dstVault then d.dst else d.dst + a.off

/-- The codes that the checks of the first tick find (R170): a vault outside the booked lanes, a vault that would serve
more than VAULT_BYTES. -/
def State.ladleCodes (s : State) (a : Act) (d : LadleDesc) : List Err :=
  let src := if d.op = 0 ∧ d.srcVault then s.vaultPieces a.run.ctx (a.ladleSrc d) d.bytes false else []
  let dst := if d.dstVault then s.vaultPieces a.run.ctx (a.ladleDst d) d.bytes true else []
  let ps := src ++ dst
  let mates := a.plan.mates a.lode a.step
  (if ps.any (fun p => !mates.any (fun y => y.books p.1)) then [Err.indexRange] else []) ++
  (if ps.any (fun p => decide (d.vaultBytes < servedBy ps p.1)) then [Err.bagOverCap] else [])

/-- The 64 bytes that a Ladle moves at offset `o`: of the source, the pattern, zeros, or staged input. What lies past the
staged bytes, and what a COPY onto the bytes that it still has to read delivers there, is not stated: free values
(notes/assumptions/32.md). -/
def State.ladleUnit (s : State) (a : Act) (d : LadleDesc) (o : Nat) : Got × State :=
  match d.op with
  | 0 =>
    let src := a.ladleSrc d
    let dst := a.ladleDst d
    match s.get a (src + o) 64 with
    | (.fail e, s1) => (.fail e, s1)
    | (.bytes b, s1) =>
      if src < dst ∧ dst < src + d.bytes ∧ dst ≤ src + o then let (v, s2) := s1.fresh; (.bytes (leBytes 64 v), s2)
      else (.bytes b, s1)
  | 1 => (.bytes ((List.range 8).flatMap (fun _ => leBytes 8 d.pattern)), s)
  | 2 => (.bytes (leBytes 64 0), s)
  | _ =>
    let b := (a.input.drop (d.inOff + o)).take 64
    if b.length = 64 then (.bytes b, s) else let (v, s1) := s.fresh; (.bytes (b ++ leBytes (64 - b.length) v), s1)

/-- Move 64-byte units from offset `o` on, in ascending order, until the range ends, a unit fails, or the step stalls. -/
def State.ladleLoop (a : Act) (d : LadleDesc) : Nat → State → Nat → State
  | 0, s, _ => s.workDone a
  | fuel + 1, s, o =>
    if d.bytes ≤ o then s.workDone a else
    let src := a.ladleSrc d + o
    let dst := a.ladleDst d + o
    let halt (t : State) (k va : Nat) (w : Bool) : State :=
      (t.setData a.run.id { a.run.dataOf a.idx with next := o }).stall a k va w
    match (if d.op = 0 then s.stallKind a src false else none), s.stallKind a dst true with
    | some k, _ => halt s k src false
    | none, some k => halt s k dst true
    | none, none =>
      match s.ladleUnit a d o with
      | (.fail e, s1) => s1.failRun a.run.id e
      | (.bytes b, s1) =>
        match s1.put a dst b with
        | (some e, s2) => s2.failRun a.run.id e
        | (none, s2) => State.ladleLoop a d fuel s2 (o + 64)

/-- The work of a Ladle step of operation `op`: the checks of its first tick, and the bytes. A step that resumes goes on
from the element that it stalled on (R146). -/
def State.ladle (s : State) (id i op : Nat) (f : Flaw) : State :=
  s.onStep id i .ladle (fun a => s.flawed a f (fun s0 => s0.withDesc a (fun bs s1 =>
    let d := ladleDesc bs
    if d.op ≠ op then s else
    match s1.ladleCodes a d with
    | [] =>
      let o := (a.run.dataOf i).next
      let n := (d.bytes - o) / 64
      let s2 := s1.ladleLoop a d (n + 1) o
      let k := match s2.run? id with
        | some r => (if r.steps[i]? = some (.worked a.start) then n else ((r.dataOf i).next - o) / 64)
        | none => 0
      (s2.count (768 + 8 * (6 + (a.step.lane - 0x120)) + 1) k).countP a.run.owner 103 k
    | es => es.foldl (fun t e => t.late id i e) s1)))

/-- LADLE_COPY (R168). -/
def execLadleCopy (run step : Nat) (flaw : Flaw) (s : State) : Res := .next (s.ladle run step 0 flaw)
/-- LADLE_FILL (R168). -/
def execLadleFill (run step : Nat) (flaw : Flaw) (s : State) : Res := .next (s.ladle run step 1 flaw)
/-- LADLE_ZERO (R168). -/
def execLadleZero (run step : Nat) (flaw : Flaw) (s : State) : Res := .next (s.ladle run step 2 flaw)
/-- LADLE_LOAD (R168). -/
def execLadleLoad (run step : Nat) (flaw : Flaw) (s : State) : Res := .next (s.ladle run step 3 flaw)

/-! ## Output steps -/

/-- Write the payload, word 1 and word 0 of an output berth, and give the berth back (R112, R121, R122). -/
def State.outWrite (s : State) (a : Act) (b : List Byte) : State :=
  let r := a.run
  let o := r.owner
  let at_ := s.berthAddr o r.outRef
  let chk := r.outChk
  let w1 := (if chk then crc32c b else 0) + b2n chk * 2 ^ 32 + b2n r.trunc * 2 ^ 33
  let s1 := (s.hostWrite o (at_ + 16) b (Config.payloadRelaxed o (at_ + 16))).hostWrite o (at_ + 8) (leBytes 8 w1)
  let n := ceilDiv b.length 64
  (((s1.header0 o r.outRef ownHost b.length).modRun r.id (fun r => { r with outHeld := false })).count (devCnt 11) n).countP o 5 n

/-- The work of an output step (R166): the payload comes from Mere. A run whose hold was dropped, or whose function may
not write, counts in SKIPPED and fails with E_BERTH_NOT_OWNED (R127, R128). A run without output writes nothing. -/
def State.output (s : State) (id i : Nat) : State :=
  s.onStep id i .host (fun a => s.withDesc a (fun bs s1 =>
    let d := outDesc bs
    let r := a.run
    if r.noOutput then s1.workDone a
    else if r.outHeld = false ∨ s1.bme r.owner = false then
      (s1.bumpi F.STH_STATUS_SKIPPED r.owner r.outRef.staithe 1).failRun id .berthNotOwned
    else
      match s1.get a (d.src + a.off) d.bytes with
      | (.fail e, s2) => s2.failRun id e
      | (.bytes b, s2) => (s2.outWrite a b).workDone a))

/-- OUTPUT_WRITE (R166). -/
def execOutputWrite (run step : Nat) (s : State) : Res := .next (s.output run step)

end Sys2Proof.Machine
end

