-- ==== Sys2Proof/Machine/Hummock.lean ====
section
/-! DEFINITION. The tables and the Hummock: rows and where they lie, lookups, the sketch, candidates and pins
(spec/10_embedding_path.md, R226 to R232, R245 to R251). -/

namespace Sys2Proof.Machine
open Sys2Proof

/-! ## Table slots (R226 to R232) -/

/-- A slot of an owner. -/
def State.table (s : State) (o n : Nat) : Option TableSlot := SMap.get none s.tables (1024 * o + n)

def State.setTable (s : State) (o n : Nat) (t : Option TableSlot) : State :=
  { s with tables := SMap.put none s.tables (1024 * o + n) t }

/-- Is the slot VALID for a run: VALID, or CLOSING since after the run's admission (R230)? -/
def TableSlot.validFor (t : TableSlot) (run : Nat) : Bool :=
  match t.closing with | none => true | some l => l.contains run

/-- The element format of a table. -/
def tableFmt : Nat → EFmt
  | 0 => .q8 | 1 => .q4 | 2 => .bf16 | 3 => .e4m3 | _ => .e5m2

/-- Bytes of a row's payload. -/
def TableSlot.payload (t : TableSlot) : Nat := (tableFmt t.fmt).bytes t.dim

/-- Bytes of one copy of a live row (R227). -/
def TableSlot.copy (t : TableSlot) : Nat := roundUp (8 + t.payload + 4 * b2n t.acc) 32

/-- The pitch of a row (R227). -/
def TableSlot.pitch (t : TableSlot) : Nat := if t.live then 2 * t.copy else roundUp t.payload 32

/-- Bytes of a row that a gather reads: both copies of a live row in full, else the payload's granules. -/
def TableSlot.readLen (t : TableSlot) : Nat := t.pitch

/-- The device-virtual address of row i (R232). -/
def TableSlot.rowVa (t : TableSlot) (i : Nat) : Nat :=
  let p := t.pitch
  let n := 2 ^ t.log2N
  let rpp := 4096 / p
  let q := i % n + n * (i / n / rpp)
  t.base + q * 4096 + (i / n % rpp) * p

/-! ## The Hummock (R245 to R249) -/

/-- The tower of a device-physical address. -/
def State.towerOf (s : State) (a : Nat) : Nat := match s.locate a with | some (v, _) => v / 32 | none => 0

/-- The set that a line selects. -/
def hSet (line : Nat) : Nat := Config.hummockSet line % 8192

/-- The key of a way of a set. -/
def hKey (t line w : Nat) : Nat := (8192 * t + hSet line) * 16 + w

/-- The line in one way. -/
def State.hLine (s : State) (k : Nat) : Option HLine := SMap.get none s.lines k

/-- The ways that a polder may use: those of `PLD_WAYS` whose zeroing is not pending (R543). -/
def State.myWays (s : State) (p : Nat) : List Nat :=
  (bitList 16 (s.rd F.PLD_WAYS_WAYS p)).filter (fun w => !s.zeroPending (.way w))

/-- The way of a polder that holds a line. -/
def State.hFind (s : State) (p t line : Nat) : Option Nat :=
  (s.myWays p).find? (fun w => match s.hLine (hKey t line w) with | some h => h.line == line | none => false)

/-- The multipliers of the sketch (R248). -/
def sketchK : List Nat := [0x8F3A5C61D2B74E09, 0xC47D1E936A25F0B3, 0xA1E67B5D3C98240F, 0xE5B20F8749C3D6A1]

/-- The counters of a line in the sketch of a polder and slice. -/
def sketchKeys (p t line : Nat) : List Nat :=
  sketchK.mapIdx (fun k m => ((p * 8 + t) * 4 + k) * 4096 + line * m % 2 ^ 64 / 2 ^ 52)

/-- The least of a line's four counters. -/
def State.estimate (s : State) (p t line : Nat) : Nat :=
  ((sketchKeys p t line).map (SMap.get 0 s.sketch)).foldl min 65535

/-- A lookup increments the four counters, saturating. -/
def State.sketchAdd (s : State) (p t line : Nat) : State :=
  { s with sketch := (sketchKeys p t line).foldl (fun m k => SMap.put 0 m k (min 65535 (SMap.get 0 m k + 1))) s.sketch }

/-- The candidate queue of a polder in a slice. -/
def State.cand (s : State) (p t : Nat) : List Nat := SMap.get [] s.cands (p * 8 + t)

/-- A miss enters the candidate queue when its estimate reaches THRESH and PROMOTE = 1 (R249). -/
def State.missCand (s : State) (p t line : Nat) : State :=
  if s.rd F.HMK_CFG_PROMOTE p = 1 ∧ s.rd F.HMK_CFG_THRESH p ≤ s.estimate p t line ∧ (s.cand p t).length < 64 then
    { s with cands := SMap.put [] s.cands (p * 8 + t) (s.cand p t ++ [line]) }
  else s

/-- Put a line into a way; the way is no longer clean (R543). -/
def State.install (s : State) (p t line w : Nat) (pin : Bool) : State :=
  State.setDirty { s with lines := SMap.put none s.lines (hKey t line w) (some { line := line, polder := p, pinned := pin }) }
    (.way w) true

/-- Invalidate a line wherever a polder's ways hold it. -/
def State.dropLine (s : State) (line : Nat) : State :=
  { s with lines := s.lines.filter (fun e => match e.2 with | some h => h.line != line | none => true) }

/-- The victim of a promotion: an invalid way, else the unpinned way with the lowest estimate, the lower way on a tie. -/
def State.victim (s : State) (p t line : Nat) : Option Nat :=
  let ws := s.myWays p
  match ws.find? (fun w => (s.hLine (hKey t line w)).isNone) with
  | some w => some w
  | none =>
    let free := ws.filterMap (fun w => match s.hLine (hKey t line w) with
      | some h => if h.pinned then none else some (w, s.estimate p t h.line)
      | none => none)
    let lo := (free.map (·.2)).foldl min 65536
    (free.find? (fun x => x.2 == lo)).map (·.1)

/-- Look a line up for a polder's run (R245, R246, R248, R251): a hit, or a miss; a hit whose ECC is bad is
invalidated and counts as a miss. PF runs do not use the Hummock. -/
def State.lookup (s : State) (o a : Nat) (bad : List Nat) : Bool × State :=
  if o = 16 then (false, s) else
  let line := a / 128
  let t := s.towerOf a
  let s1 := s.sketchAdd o t line
  let miss (u : State) : Bool × State := (false, ((u.count (512 + 32 * t + 1) 1).countP o 67 1).missCand o t line)
  match s1.hFind o t line with
  | some _ => if bad.contains line then miss (s1.dropLine line) else
      (true, (s1.count (512 + 32 * t) 1).countP o 66 1)
  | none => miss s1

/-! ## Reads of the Dredges -/

/-- Read [a, a + n) of vault memory granule by granule, looking each line up once (R246). `hit` says that the present
line is cached. -/
def State.dredgeLoop (w : Who) (o : Nat) (bad : List Nat) : Nat → Bool → Bool → State → Nat → Nat → List Byte → Got × State
  | 0, _, _, s, _, _, acc => (.bytes acc, s)
  | fuel + 1, first, hit, s, a, n, acc =>
    if n = 0 then (.bytes acc, s) else
    let k := min n (32 - a % 32)
    let (hit', s1) := if first ∨ a % 128 = 0 then s.lookup o a bad else (hit, s)
    if hit' then
      match s1.locate a with
      | none => (.fail .faultPinned, s1)
      | some (v, l) => State.dredgeLoop w o bad fuel false true s1 (a + k) (n - k) (acc ++ readMem s1.vault (vaultKey v l) k)
    else
      match (if newUnit a first then s1.countUnit w a 0 else s1).readWeir w a k with
      | (.fail e, s2) => (.fail e, s2)
      | (.bytes b, s2) => State.dredgeLoop w o bad fuel false false s2 (a + k) (n - k) (acc ++ b)

/-- A Dredge reads `n` bytes at a device-physical address for a run. -/
def State.dredge (s : State) (w : Who) (o : Nat) (bad : List Nat) (a n : Nat) : Got × State :=
  State.dredgeLoop w o bad (n / 32 + 2) true false s a n []

/-! ## Row choice (R254, R255) -/

/-- The tag of a copy: VALID and EPOCH. -/
def tagOf (bs : List Byte) (off : Nat) : Bool × Nat := (bitAt (numAt bs off 8) 32, numAt bs off 4)

/-- The copy that a run pinned to epoch e pools: the eligible one with the higher EPOCH, copy 0 on a tie. -/
def eligibleCopy (bs : List Byte) (c e : Nat) : Option Nat :=
  let (v0, e0) := tagOf bs 0
  let (v1, e1) := tagOf bs c
  let k0 := v0 && decide (e0 ≤ e)
  let k1 := v1 && decide (e1 ≤ e)
  if k0 && k1 then (if e0 < e1 then some 1 else some 0) else if k0 then some 0 else if k1 then some 1 else none

/-- The payload that a run pools from the bytes of a row; none: no eligible copy. -/
def TableSlot.pooled (t : TableSlot) (bs : List Byte) (pin : Nat) : Option (List Byte) :=
  if t.live then (eligibleCopy bs t.copy pin).map (fun c => slice bs (c * t.copy + 8) t.payload)
  else some (slice bs 0 t.payload)

/-! ## The halving of the sketches (R248) -/

/-- At every tick that is a multiple of 65,536, every counter is halved, rounding down. -/
def State.halve (s : State) : State :=
  if s.tick = 0 ∨ s.tick % 65536 ≠ 0 ∨ s.halved = s.tick then s else
  { s with sketch := (s.sketch.map (fun e => (e.1, e.2 / 2))).filter (fun e => e.2 != 0), halved := s.tick }

/-- SKETCH_HALVING (R248). -/
def execSketchHalving (s : State) : Res := .next s.halve

/-! ## Table commands (R228 to R230) -/

/-- The statuses of `TBL_STATUS`. -/
def tblOk : Nat := 0
def tblBadField : Nat := 1
def tblSlotValid : Nat := 2
def tblNotValid : Nat := 3
def tblAborted : Nat := 4

def State.tblStatus (s : State) (o v off : Nat) : State :=
  (s.wr F.TBL_STATUS_STATUS o v).wr F.TBL_STATUS_FAIL_OFFSET o off

/-- A command that ends without its effect signals its fence with an outcome that the spec does not state
(notes/assumptions/15.md). -/
def State.freeFence (s : State) (owner : Nat) (fe : Option Nat) (op : OpSel) : State :=
  let (f, s1) := s.takeFence owner fe op
  match f with
  | none => s1
  | some _ => let (e, s2) := s1.freeErr; s2.signalOpt f e

/-- The byte offset of the first illegal field of a record, or of a byte that is not as it must be (R228). The padding of
the scale vector counts as reserved bytes (notes/assumptions/34.md). -/
def recordBad (r : List Byte) : Option Nat :=
  let dim := numAt r 0x10 2
  let fmt := numAt r 0x12 1
  let fl := numAt r 0x13 1
  let sk := numAt r 0x14 1
  let hash := numAt r 0x16 1
  let remap := hash == 3
  let wide := decide (256 < dim) && sk != 2
  let near := decide (dim ≤ 256) && sk != 2
  let zeros (off n : Nat) : Bool := numAt r off n == 0
  let fields : List (Nat × Bool) :=
    [ (0x00, decide (1 ≤ numAt r 0 8 ∧ numAt r 0 8 ≤ 2 ^ 40)),
      (0x08, numAt r 8 8 % 4096 == 0),
      (0x10, decide (1 ≤ dim ∧ dim ≤ 1024) && !(fmt == 1 && dim % 2 == 1)),
      (0x12, decide (fmt ≤ 4)),
      (0x13, decide (fl ≤ 7) && !(bitAt fl 1 && !bitAt fl 0)),
      (0x14, decide (sk ≤ 2) && !(sk == 2 && decide (fmt ≤ 1))),
      (0x15, decide (numAt r 0x15 1 ≤ 8)),
      (0x16, decide (hash ≤ 3)),
      (0x17, zeros 0x17 1),
      (0x18, if hash = 2 then numAt r 0x18 8 % 2 == 1 else zeros 0x18 8),
      (0x20, if remap then numAt r 0x20 8 % 8 == 0 else zeros 0x20 8),
      (0x28, if remap then decide (1 ≤ numAt r 0x28 4) else zeros 0x28 4),
      (0x2C, zeros 0x2C 4),
      (0x30, if wide then numAt r 0x30 8 % 64 == 0 else zeros 0x30 8),
      (0x38, zeros 0x38 8) ]
  match fields.find? (fun f => !f.2) with
  | some f => some f.1
  | none =>
    if !near then none else
    let w := if sk = 0 then 4 else 1
    let bad := (List.range dim).find? (fun j =>
      let x := numAt r (0x40 + w * j) w
      if sk = 0 then !isFin32 x else decide (31 < x) && decide (x < 224))
    match bad with
    | some j => some (0x40 + w * j)
    | none =>
      let n := w * dim
      ((List.range (roundUp n 64 - n)).find? (fun j => numAt r (0x40 + n + j) 1 != 0)).map (fun j => 0x40 + n + j)

/-- The slot that a legal record describes. -/
def slotOf (r : List Byte) : TableSlot :=
  let dim := numAt r 0x10 2
  let fl := numAt r 0x13 1
  let sk := numAt r 0x14 1
  let w := if sk = 0 then 4 else 1
  { rows := numAt r 0 8, base := numAt r 8 8, dim := dim, fmt := numAt r 0x12 1, live := bitAt fl 0, acc := bitAt fl 1
    dedup := bitAt fl 2, scaleKind := sk, log2N := numAt r 0x15 1, hash := numAt r 0x16 1, salt := numAt r 0x18 8
    remapVa := numAt r 0x20 8, remapLen := numAt r 0x28 4, sidecarVa := numAt r 0x30 8
    scales := if sk ≠ 2 ∧ dim ≤ 256 then (List.range dim).map (fun j => numAt r (0x40 + w * j) w) else []
    closing := none }

/-- WRITE (R228, R229). The record's bytes are the command's operand. -/
def State.tblWrite (s : State) (o slot : Nat) (fe : Option Nat) (rec_ : List Byte) (cpl : Cpl) : State :=
  if s.opBusy .tbl o then s.illegal .owner o 0x408
  else if (s.table o slot).isSome then (s.tblStatus o tblSlotValid 0).freeFence o fe ⟨.tbl, o⟩
  else
    let s1 := if s.bme o then
        s.hostRead o (s.imageAddr o (s.rd F.TBL_SRC_STAITHE o) (s.rd F.TBL_SRC_OFFSET o)) rec_.length else s
    s1.startOp .tbl o o fe 1 (.tblWrite slot rec_ (if s.bme o then cpl else .notIssued))

/-- The final step of a WRITE. A record that could not be read leaves STATUS open (notes/assumptions/26.md), and one whose
only fault is its pitch leaves FAIL_OFFSET open (notes/assumptions/35.md). -/
def State.tblWriteStep (s : State) (op : LongOp) (slot : Nat) (r : List Byte) (cpl : Cpl) : State :=
  let o := op.owner
  if cpl ≠ .ok then let (v, s1) := s.freeStatus; (s1.tblStatus o v 0).endFree op else
  match recordBad r with
  | some off => (s.tblStatus o tblBadField off).endFree op
  | none =>
    let t := slotOf r
    if 4096 < t.pitch then let (v, s1) := s.fresh; (s1.tblStatus o tblBadField v).endFree op
    else ((s.setTable o slot (some t)).tblStatus o tblOk 0).endOp op none

/-- CLEAR (R230): the slot is CLOSING at once. -/
def State.tblClear (s : State) (o slot : Nat) (fe : Option Nat) : State :=
  if s.opBusy .tbl o then s.illegal .owner o 0x408 else
  match s.table o slot with
  | some t =>
    if t.closing.isSome then (s.tblStatus o tblNotValid 0).freeFence o fe ⟨.tbl, o⟩ else
    let early := (s.runs.filter (fun r => r.owner == o && decide (r.phase ≠ .queued))).map (·.id)
    (s.setTable o slot (some { t with closing := some early })).startOp .tbl o o fe 1 (.tblClear slot)
  | none => (s.tblStatus o tblNotValid 0).freeFence o fe ⟨.tbl, o⟩

/-- Journal entry i of an owner, as the Mere bytes of its mapping stand (R267). -/
def State.jnlEntry (s : State) (m i : Nat) : Nat := ofLe (readMem s.mere (m + 8 * i) 8)

/-- Does the journal hold an entry for a slot (R278)? -/
def State.jnlHas (s : State) (o slot : Nat) : Bool :=
  match SMap.get none s.jnlMap o with
  | none => false
  | some m => (List.range (s.rd F.EP_JNL_SIZE_USED o)).any (fun i => bitsOf (s.jnlEntry m i) 40 10 == slot)

/-- The final step of a CLEAR: the slot is EMPTY once every run admitted earlier has ended (R230) and the journal holds
no entry for it (R278). -/
def State.tblClearStep (s : State) (op : LongOp) (slot : Nat) : State :=
  let o := op.owner
  match s.table o slot with
  | some t =>
    let early := t.closing.getD []
    if s.runs.any (fun r => early.contains r.id) || (t.live && s.jnlHas o slot) then s
    else ((s.setTable o slot none).tblStatus o tblOk 0).endOp op none
  | none => (s.tblStatus o tblOk 0).endOp op none

/-- What an ABORT of a table command leaves: a CLOSING slot is VALID again (R230). -/
def State.tblUndo (s : State) (op : LongOp) : State :=
  let o := op.owner
  let s1 := match op.task with
    | .tblClear slot => (match s.table o slot with
      | some t => s.setTable o slot (some { t with closing := none })
      | none => s)
    | _ => s
  s1.tblStatus o tblAborted 0

/-- TBL_WRITE (R229). -/
def execTblWrite (fn : Fn) (slot : Fin 1024) (fence : Option Nat) (image : List Byte) (cpl : Cpl) (s : State) : Res :=
  .next (s.ownDo fn (s.tblWrite fn.idx slot.val fence image cpl))
/-- TBL_CLEAR (R230). -/
def execTblClear (fn : Fn) (slot : Fin 1024) (fence : Option Nat) (s : State) : Res :=
  .next (s.ownDo fn (s.tblClear fn.idx slot.val fence))
/-- TBL_RESUME (R428). -/
def execTblResume (fn : Fn) (fence : Option Nat) (s : State) : Res :=
  .next (s.ownDo fn (s.resumeOp .tbl fn.idx fn.idx fence .owner fn.idx 0x408))
/-- TBL_ABORT (R230, R428). -/
def execTblAbort (fn : Fn) (fence : Option Nat) (s : State) : Res :=
  .next (s.ownDo fn (s.abortOp .tbl fn.idx fn.idx fence .owner fn.idx 0x408 (fun t op => t.tblUndo op)))

/-! ## Hummock commands (R250) -/

def hmkOk : Nat := 0
def hmkFull : Nat := 1
def hmkNotValid : Nat := 2
def hmkAborted : Nat := 3

/-- The operations of `HMK_CMD` that run as a task. -/
def hmkPin : Nat := 1
def hmkUnpin : Nat := 2
def hmkUnpinAll : Nat := 3

/-- The Hummock registers stand on POLDER page 1 only. -/
def State.polDo (s : State) (fn : Fn) (f : Nat → State) : State :=
  match fn with
  | .pf => s
  | .vf p => s.ownDo fn (f p.val)

/-- PIN and UNPIN name a VALID slot and COUNT rows; COUNT 0 is illegal. -/
def State.hmkStart (s : State) (op table : Nat) (fe : Option Nat) (p : Nat) : State :=
  let n := s.rd F.HMK_COUNT_COUNT p
  if s.opBusy .hmk p ∨ (op ≠ hmkUnpinAll ∧ n = 0) then s.illegal .owner p 0x428 else
  let ok := op = hmkUnpinAll ∨ (match s.table p table with | some t => t.closing.isNone | none => false) = true
  if ok then
    ((s.wr F.HMK_STATUS_DONE p 0).wr F.HMK_STATUS_STATUS p hmkOk).startOp .hmk p p fe (if op = hmkUnpinAll then 1 else n)
      (.hmk op table (s.rd F.HMK_FIRST_ROW p) n)
  else (s.wr F.HMK_STATUS_STATUS p hmkNotValid).freeFence p fe ⟨.hmk, p⟩

/-- The device-physical address of a row of a polder's table. `HMK_CMD` names no context: the lowest context of the
polder in which a valid PINNED object covers the row is used (notes/assumptions/36.md). -/
def State.hmkRow (s : State) (p : Nat) (t : TableSlot) (row : Nat) : Option Nat :=
  let va := t.rowVa row
  ((List.range 256).filter (fun c => s.ownerOf .context c == p)).findSome? (fun c =>
    match s.xlatePinned c va false with | .vault a => some a | _ => none)

/-- The lines of a row. -/
def rowLines (a n : Nat) : List Nat := (List.range ((a + n - 1) / 128 - a / 128 + 1)).map (a / 128 + ·)

/-- Read the granules of a line in the background (R212): may it be installed? -/
def State.lineReads (s : State) (line : Nat) : Bool × State :=
  (List.range 4).foldl (fun x i =>
    match x.2.readVault .background (line * 128 + 32 * i) 32 with
    | (.bytes _, s1) => (x.1, s1)
    | (.fail _, s1) => (false, s1)) (true, s)

/-- Pin one line: none when every way of the polder in its set is pinned. -/
def State.pinLine (s : State) (p line : Nat) : Option State :=
  let t := s.towerOf (line * 128)
  match s.hFind p t line with
  | some w => (match s.hLine (hKey t line w) with
    | some h => some (if h.pinned then s else (s.install p t line w true).countP p 69 1)
    | none => some s)
  | none =>
    match s.victim p t line with
    | none => none
    | some w =>
      let (ok, s1) := s.lineReads line
      some (if ok then (s1.install p t line w true).countP p 69 1 else s1)

/-- Pin the lines of one row, all or none (R250). -/
def State.pinRow (s : State) (p : Nat) (t : TableSlot) (row : Nat) : Option State :=
  match s.hmkRow p t row with
  | none => some s
  | some a => (rowLines a t.pitch).foldl (fun x l => x.bind (fun u => u.pinLine p l)) (some s)

/-- Release the pins of lines that satisfy a test. -/
def State.unpin (s : State) (p : Nat) (q : Nat → Bool) : State :=
  { s with lines := s.lines.map (fun e =>
      (e.1, e.2.map (fun h => if h.polder = p ∧ q h.line = true then { h with pinned := false } else h))) }

/-- Advance a PIN or UNPIN by up to `n` rows. -/
def State.hmkRows (p op table : Nat) : Nat → State → Nat → Nat → Nat × Bool × State
  | 0, s, _, k => (k, false, s)
  | n + 1, s, row, k =>
    match s.table p table with
    | none => (k, true, s)
    | some t =>
      if t.rows ≤ row then State.hmkRows p op table n s (row + 1) (k + 1)
      else if op = hmkPin then
        match s.pinRow p t row with
        | none => (k, true, s)
        | some s1 => State.hmkRows p op table n s1 (row + 1) (k + 1)
      else
        let s1 := match s.hmkRow p t row with
          | none => s
          | some a => s.unpin p (fun l => (rowLines a t.pitch).contains l)
        State.hmkRows p op table n s1 (row + 1) (k + 1)

/-- One step of a Hummock command: `n` rows. A PIN that finds a set full stops with FULL (R250). -/
def State.hmkStep (s : State) (op : LongOp) (code table first count n : Nat) : State :=
  let p := op.owner
  if code = hmkUnpinAll then ((s.unpin p (fun _ => true)).wr F.HMK_STATUS_STATUS p hmkOk).endOp op none else
  let (k, full, s1) := State.hmkRows p code table (min n (count - op.done)) s (first + op.done) 0
  let d := op.done + k
  let s2 := s1.wr F.HMK_STATUS_DONE p d
  if full then (s2.wr F.HMK_STATUS_STATUS p hmkFull).endFree op
  else if count ≤ d then (s2.wr F.HMK_STATUS_STATUS p hmkOk).endOp op none
  else s2.setOp { op with done := d }

/-- HMK_PIN (R250). -/
def execHmkPin (fn : Fn) (table : Fin 1024) (fence : Option Nat) (s : State) : Res :=
  .next (s.polDo fn (s.hmkStart hmkPin table.val fence))
/-- HMK_UNPIN (R250). -/
def execHmkUnpin (fn : Fn) (table : Fin 1024) (fence : Option Nat) (s : State) : Res :=
  .next (s.polDo fn (s.hmkStart hmkUnpin table.val fence))
/-- HMK_UNPIN_ALL (R250). -/
def execHmkUnpinAll (fn : Fn) (fence : Option Nat) (s : State) : Res :=
  .next (s.polDo fn (s.hmkStart hmkUnpinAll 0 fence))
/-- HMK_RESUME (R428). -/
def execHmkResume (fn : Fn) (fence : Option Nat) (s : State) : Res :=
  .next (s.polDo fn (fun p => s.resumeOp .hmk p p fence .owner p 0x428))
/-- HMK_ABORT (R428). -/
def execHmkAbort (fn : Fn) (fence : Option Nat) (s : State) : Res :=
  .next (s.polDo fn (fun p => s.abortOp .hmk p p fence .owner p 0x428 (fun t _ => t.wr F.HMK_STATUS_STATUS p hmkAborted)))

end Sys2Proof.Machine
end

