-- ==== Sys2Proof/Machine/Embedding.lean ====
section
/-! DEFINITION. The Punch and the gather with its merge tree and pool finisher (spec/10_embedding_path.md, R233 to R243;
spec/11_live_updates.md, R255, R256; spec/09_towers_memory.md, R203; spec/19_background_integrity.md, R439). -/

namespace Sys2Proof.Machine
open Sys2Proof

/-! ## The Punch (R234 to R239) -/

/-- What the Punch has found so far: rows of each bag, codes, and the state. -/
structure PunchOut where
  st : State
  bags : List (List (Nat × Nat))
  codes : List Err
  trunc : Nat

/-- The row of an index (R234), or the code of its failure. -/
def State.hashRow (s : State) (a : Act) (t : TableSlot) (x : Nat) : Except Err Nat × State :=
  match t.hash with
  | 0 => (if x < t.rows then .ok x else .error .indexRange, s)
  | 1 => (.ok (if t.rows = 0 then 0 else x % t.rows), s)
  | 2 => (.ok (x * t.salt % 2 ^ 64 * t.rows / 2 ^ 64), s)
  | _ =>
    if t.remapLen ≤ x then (.error .indexRange, s) else
    match s.readVa a.run.ctx (t.remapVa + 8 * x) 8 true a.who with
    | (.fail e, s1) => (.error e, s1)
    | (.bytes b, s1) => (if ofLe b < t.rows then .ok (ofLe b) else .error .indexRange, s1)

/-- The vault of a row, or the code with which its address fails (R142, R223, R233). -/
def State.rowVault (s : State) (a : Act) (t : TableSlot) (row : Nat) : Except Err Nat × State :=
  let va := t.rowVa row
  match s.xlatePinned a.run.ctx va false with
  | .vault x => (match s.locate x with
    | some (v, _) => (if s.retired v then .error .vaultRetired else .ok v, s)
    | none => (.error .faultPinned, s))
  | .mere _ => (.error .indexRange, s)
  | .host _ => (.error .faultPinned, s.xlFail a.who kBadTarget va false)
  | .fail k => (.error .faultPinned, s.xlFail a.who k va false)

/-- The gather steps of a Punch step. -/
def Act.gathers (a : Act) : List PStep :=
  (a.plan.stepsOf a.lode).filter (fun y => decide (y.eng = some .vault) && y.descOff == a.step.descOff &&
    (match a.plan.punchOf a.lode y with | some p => decide (p = a.step) | none => false))

/-- Hash the indices of one bag: each row must translate to a booked vault; DEDUP drops a row that the bag already has
(R239). The state keeps, per vault, the rows so far. -/
def State.punchBag (a : Act) (slot : Nat) (t : TableSlot) (bookable : Nat → Bool) :
    List Nat → State → List (Nat × Nat) → List Nat → List Err → State × List (Nat × Nat) × List Nat × List Err
  | [], s, rows, vaults, codes => (s, rows, vaults, codes)
  | x :: xs, s, rows, vaults, codes =>
    match s.hashRow a t x with
    | (.error e, s1) => State.punchBag a slot t bookable xs s1 rows vaults (codes ++ [e])
    | (.ok r, s1) =>
      if t.dedup && rows.any (fun y => y.2 == r) then State.punchBag a slot t bookable xs s1 rows vaults codes else
      match s1.rowVault a t r with
      | (.error e, s2) => State.punchBag a slot t bookable xs s2 rows vaults (codes ++ [e])
      | (.ok v, s2) =>
        State.punchBag a slot t bookable xs s2 (rows ++ [(slot, r)]) (vaults ++ [v])
          (if bookable v then codes else codes ++ [.indexRange])

/-- The u32 and u64 entries of the staged input. -/
def u32At (bs : List Byte) (off i : Nat) : Nat := numAt bs (off + 4 * i) 4
def u64At (bs : List Byte) (off i : Nat) : Nat := numAt bs (off + 8 * i) 8

/-- The index array of a bag set as the staged input describes it: the bounds of each bag, offs[BAGS], and whether the
offset or length array is sound (R235, R237). -/
structure BagIdx where
  bags : List (Nat × Nat)
  total : Nat
  ok : Bool
  deriving DecidableEq, Repr

/-- The bounds of each bag within the index array (R237). An array that the staged input does not hold names no bag; where
it decreases, that bag has no index. -/
def bagBounds (a : Act) (b : BagSet) : BagIdx :=
  let inp := a.input
  let n := b.bags
  if b.lengths then
    if !a.inInput b.offsIn (4 * n) then { bags := [], total := 0, ok := false } else
    let r := (List.range n).foldl (fun (acc : List (Nat × Nat) × Nat) i =>
      (acc.1 ++ [(acc.2, acc.2 + u32At inp b.offsIn i)], acc.2 + u32At inp b.offsIn i)) ([], 0)
    { bags := r.1, total := r.2, ok := true }
  else
    if !a.inInput b.offsIn (4 * (n + 1)) then { bags := [], total := 0, ok := false } else
    let bs := (List.range n).map (fun i => (u32At inp b.offsIn i, u32At inp b.offsIn (i + 1)))
    { bags := bs, total := u32At inp b.offsIn n, ok := bs.all (fun p => decide (p.1 ≤ p.2)) }

/-- A table that a bag names, when the run may use it with the descriptor's bounds (R235). -/
def State.bagTable (s : State) (a : Act) (b : BagSet) (slot : Nat) : Option TableSlot :=
  match s.table a.run.owner slot with
  | some t => if t.validFor a.run.id && decide (t.pitch ≤ b.maxPitch) && decide (t.dim ≤ b.maxDim) then some t else none
  | none => none

/-- One bag of the bag set: the table, its indices, and whether it is cut at BAG_CAP (R238). -/
def State.punchOne (s : State) (a : Act) (b : BagSet) (bookable : Nat → Bool) (slot : Nat) (idx : List Nat)
    (o : PunchOut × List Nat) : PunchOut × List Nat :=
  let cap := a.lode.bagCap
  let tooMany := decide (cap < idx.length)
  let (out, vaults) := o
  if tooMany && !a.lode.capTrunc then ({ out with st := s, bags := out.bags ++ [[]], codes := out.codes ++ [.bagOverCap] }, vaults) else
  match s.bagTable a b slot with
  | none => ({ out with st := s, bags := out.bags ++ [[]], codes := out.codes ++ [.indexRange] }, vaults)
  | some t =>
    let (s1, rows, vs, codes) := State.punchBag a slot t bookable (idx.take cap) s [] [] []
    ({ st := s1, bags := out.bags ++ [rows], codes := out.codes ++ codes, trunc := out.trunc + b2n tooMany }, vaults ++ vs)

/-- The singletons that a Punch step's input names; a count that the staged input does not hold names none. -/
def punchOnes (a : Act) (b : BagSet) : Nat :=
  if b.oneMax = 0 ∨ a.inInput b.oneCntIn 4 = false then 0 else u32At a.input b.oneCntIn 0

/-- More indices or singletons than the caps of the bag set (R235). -/
def punchOver (a : Act) (b : BagSet) (x : BagIdx) : Bool :=
  decide (b.maxIdx < x.total) || decide (b.oneMax < punchOnes a b)

/-- The code of arrays that are not sound or not in the staged input (R235). -/
def punchBad (a : Act) (b : BagSet) (x : BagIdx) : List Err :=
  let oneIn := decide (b.oneMax = 0) || (a.inInput b.oneCntIn 4 && a.inInput b.oneIn (8 * punchOnes a b))
  if x.ok && a.inInput b.idxIn (8 * x.total) && oneIn then [] else [Err.indexRange]

/-- The indices `lo` to `hi - 1` of an id array, as far as the staged input holds them. -/
def idsAt (a : Act) (off lo hi : Nat) : List Nat :=
  (((List.range (hi - lo)).map (lo + ·)).filter (fun i => a.inInput off (8 * (i + 1)))).map (fun i => u64At a.input off i)

/-- Hash the bags, then the singletons: what comes out, and the vault of each row. -/
def State.punchBags (s : State) (a : Act) (b : BagSet) (x : BagIdx) : PunchOut × List Nat :=
  let bookable (v : Nat) : Bool := a.gathers.any (fun y => y.books v)
  let start : PunchOut × List Nat := ({ st := s, bags := [], codes := punchBad a b x, trunc := 0 }, [])
  let afterBags := (List.zip b.recs x.bags).foldl (fun o y =>
    o.1.st.punchOne a b bookable y.1.1 (idsAt a b.idxIn y.2.1 y.2.2) o) start
  (idsAt a b.oneIn 0 (punchOnes a b)).foldl (fun o i => o.1.st.punchOne a b bookable b.oneTable [i] o) afterBags

/-- Count the indices and the truncated bags of a Punch step. -/
def State.punchCount (s : State) (a : Act) (b : BagSet) (x : BagIdx) (trunc : Nat) : State :=
  let n := (x.bags.map (fun p => p.2 - p.1)).sum + punchOnes a b
  let s1 := if a.step.laneCount = 2 then ((s.count (768 + 1) (ceilDiv n 2)).count (768 + 8 + 1) (n - ceilDiv n 2))
    else s.count (768 + 8 * (a.step.lane - 0x118) + 1) n
  (s1.countP a.run.owner 100 n).countP a.run.owner 77 trunc

/-- What the Punch finds in a run: the rows of each bag and every code among its failures. Indices or singletons past their
caps have the lowest of these codes, so that the Punch hashes none of them. -/
def State.punchAll (s : State) (a : Act) (b : BagSet) (x : BagIdx) : PunchOut :=
  if punchOver a b x then { st := s, bags := [], codes := [.bagOverCap], trunc := 0 } else
  let (out, vaults) := s.punchBags a b x
  let tooMany := vaults.any (fun v => decide (b.vaultCap < vaults.count v))
  { out with st := out.st.punchCount a b x out.trunc, codes := out.codes ++ (if tooMany then [Err.bagOverCap] else []) }

/-- The work of a Punch step: bags, then singletons; every failure is signalled at the step's planned end (R235). -/
def State.punchWork (s : State) (a : Act) (b : BagSet) : State :=
  let out := s.punchAll a b (bagBounds a b)
  if !out.codes.isEmpty then out.codes.foldl (fun u e => u.late a.run.id a.idx e) out.st else
  let s1 := out.st.modRun a.run.id (fun r => { r with trunc := r.trunc || decide (0 < out.trunc) })
  (s1.setData a.run.id { a.run.dataOf a.idx with bags := out.bags }).workDone a

/-- PUNCH_HASH (R234). -/
def execPunchHash (run step : Nat) (flaw : Flaw) (s : State) : Res :=
  .next (s.onStep run step .punch (fun a => s.flawed a flaw (fun t =>
    match t.descOf a with
    | (.bytes d, s1) => s1.punchWork a (bagSet d)
    | (.fail e, s1) => s1.late run step e)))

/-! ## Gather, merge and finish (R241 to R243) -/

/-- Add two columns: int32 for codes, FP32 for floats. -/
def addCol (code : Bool) (x y : Nat) : Nat := if code then wrap32 (sext 32 x + sext 32 y) else fadd x y

/-- A row's payload as columns: sign-extended codes, or FP32 values. -/
def rowCols (f : EFmt) (dim : Nat) (bs : List Byte) : List Nat :=
  (List.range dim).map (fun j =>
    let w := elemAt f bs j
    if f.isCode then wrap32 (sext f.width w) else toFp32 (f.val w))

/-- Add a row to the partial sum of its bag and vault; the first row starts the sum. -/
def addPart (code : Bool) (bag v : Nat) (cols : List Nat) : List (Nat × Nat × List Nat) → List (Nat × Nat × List Nat)
  | [] => [(bag, v, cols)]
  | (b, w, c) :: t =>
    if b = bag ∧ w = v then (b, w, List.zipWith (addCol code) c cols) :: t else (b, w, c) :: addPart code bag v cols t

/-- What a gather step has read: the state, the partial sums, whether a live row had no eligible copy, and a failure. -/
structure GatherOut where
  st : State
  parts : List (Nat × Nat × List Nat)
  gone : Bool
  rows : Nat
  fail : Option Err

/-- Read one row of a bag, when its vault is among the step's lanes, and add it (R241, R242, R255). -/
def gatherRow (a : Act) (bad : List Nat) (bag : Nat) (slot row : Nat) (g : GatherOut) : GatherOut :=
  if g.fail.isSome then g else
  match g.st.table a.run.owner slot with
  | none => { g with fail := some .indexRange }
  | some t =>
    match g.st.xlatePinned a.run.ctx (t.rowVa row) false with
    | .vault x =>
      (match g.st.locate x with
      | none => { g with fail := some .faultPinned }
      | some (v, _) =>
        if !a.step.books v then g else
        match g.st.dredge a.who a.run.owner bad x t.readLen with
        | (.fail e, s1) => { g with st := s1, fail := some e }
        | (.bytes bs, s1) =>
          match t.pooled bs a.run.pin with
          | none => { g with st := s1, gone := true }
          | some p =>
            let f := tableFmt t.fmt
            { g with st := s1, rows := g.rows + 1, parts := addPart f.isCode bag v (rowCols f t.dim p) g.parts })
    | .mere _ => { g with fail := some .indexRange }
    | .host _ => { g with st := g.st.xlFail a.who kBadTarget (t.rowVa row) false, fail := some .faultPinned }
    | .fail k => { g with st := g.st.xlFail a.who k (t.rowVa row) false, fail := some .faultPinned }

/-- Insert a partial sum by vault number. -/
def insPart (x : Nat × List Nat) : List (Nat × List Nat) → List (Nat × List Nat)
  | [] => [x]
  | y :: t => if x.1 ≤ y.1 then x :: y :: t else y :: insPart x t

/-- Merge the partial sums of a bag in ascending vault number (R242). -/
def mergeParts (code : Bool) (bag : Nat) (parts : List (Nat × Nat × List Nat)) : Option (List Nat) :=
  let ps := ((parts.filter (fun p => p.1 == bag)).map (·.2)).foldr insPart []
  match ps with
  | [] => none
  | p :: t => some (t.foldl (fun acc q => List.zipWith (addCol code) acc q.2) p.2)

/-- Scale, divide and convert one column total (R243). -/
def finishCol (t : TableSlot) (code : Bool) (scale : Nat) (mean : Option Nat) (fmt : Nat) (total : Nat) : Nat :=
  let v := if code then cvtif total else total
  let v := match t.scaleKind with
    | 0 => fmul v scale
    | 1 => scaleExp v (shiftOf scale)
    | _ => v
  let v := match mean with
    | some n => fmul v (fdiv one32 (cvtif n))
    | none => v
  if fmt = 0 then v else (toBf16 (fp32 v)).bits

/-- The scales of a table: its registers, or its sidecar in Mere (R229). -/
def State.scalesOf (s : State) (a : Act) (t : TableSlot) : Except Err (List Nat) × State :=
  if t.scaleKind = 2 then (.ok [], s)
  else if t.dim ≤ 256 then (.ok t.scales, s)
  else
    let w := if t.scaleKind = 0 then 4 else 1
    match s.readVa a.run.ctx t.sidecarVa (w * t.dim) true a.who with
    | (.fail e, s1) => (.error e, s1)
    | (.bytes b, s1) => (.ok ((List.range t.dim).map (fun j => numAt b (w * j) w)), s1)

/-- The bytes of one bag's output. -/
def bagOut (t : TableSlot) (scales : List Nat) (n : Nat) (mean : Bool) (fmt : Nat) (total : Option (List Nat)) : List Byte :=
  let e := outBytes fmt
  match total with
  | none => leBytes (e * t.dim) 0
  | some cols =>
    (cols.mapIdx (fun j x => leBytes e (finishCol t (tableFmt t.fmt).isCode (scales.getD j 0)
      (if mean then some n else none) fmt x))).flatten

/-- Finish the bags, in order, from bag `i` on: the totals are scaled, converted and written to Mere. At a hole of a
PAGEABLE object the step stalls, and goes on from that bag (R146). -/
def State.finishBags (a : Act) (b : BagSet) (bags : List (List (Nat × Nat))) (parts : List (Nat × Nat × List Nat)) :
    Nat → Nat → State → State
  | 0, _, s => s.workDone a
  | fuel + 1, i, s =>
    if bags.length ≤ i then s.workDone a else
    let single := decide (b.bags ≤ i)
    let slot := if single then b.oneTable else (b.recs.getD i (0, 0)).1
    let mean := !single && (b.recs.getD i (0, 0)).2 == 1
    let va := (if single then b.oneOutVa + (i - b.bags) * b.oneStride else b.outVa + i * b.outStride) + a.off
    match s.table a.run.owner slot with
    | none => s.failRun a.run.id .indexRange
    | some t =>
      match s.scalesOf a t with
      | (.error e, s1) => s1.failRun a.run.id e
      | (.ok sc, s1) =>
        let rows := bags.getD i []
        let out := bagOut t sc rows.length mean b.outFmt (mergeParts (tableFmt t.fmt).isCode i parts)
        match s1.stallAt a va out.length true with
        | some (k, at_) =>
          (s1.setData a.run.id { a.run.dataOf a.idx with parts := parts, limit := 1, next := i }).stall a k at_ true
        | none =>
        match s1.put a va out with
        | (some e, s2) => s2.failRun a.run.id e
        | (none, s2) => State.finishBags a b bags parts fuel (i + 1) s2

/-- A residue that disagrees (R241, R439): at a merge-tree input it marks the sending Dredge; at the finisher it marks no
engine, counts in TREE and sets FAULT_DATA. The run fails with E_RESIDUE. -/
def State.residueFail (s : State) (a : Act) (ev : GatherEv) : State :=
  let s1 := s.failRun a.run.id .residue
  if ev.residue.isEmpty then (s1.bumpSat F.ASY_COUNT_TREE 0 0 1).setFault F.JCT_HEALTH_FAULT_DATA 1
  else ev.residue.foldl (fun t x =>
    (t.count (512 + 32 * (x.1 / 32) + 8) 1).mark x.1
      { cause := 1, polder := a.cperPolder, resExp := x.2.1, resObs := x.2.2 }) s1

/-- Do the residue events of a gather concern it: vaults of the step that sent sums of codes? -/
def residueHits (a : Act) (parts : List (Nat × Nat × List Nat)) (codes : Bool) (ev : GatherEv) : GatherEv :=
  { ev with residue := if codes then ev.residue.filter (fun x => parts.any (fun p => p.2.1 == x.1) && a.step.books x.1) else []
            finisher := ev.finisher && codes }

/-- Gather every row of every bag, in order. -/
def State.gatherAll (s : State) (a : Act) (ev : GatherEv) (bags : List (List (Nat × Nat))) : GatherOut :=
  (bags.zipIdx).foldl (fun g x => x.1.foldl (fun h r => gatherRow a ev.badLines x.2 r.1 r.2 h) g)
    { st := s, parts := [], gone := false, rows := 0, fail := none }

/-- Do the bags hold rows of codes, whose sums carry residues? -/
def State.codeBags (s : State) (a : Act) (bags : List (List (Nat × Nat))) : Bool :=
  bags.any (fun rows => match rows.head? with
    | some x => (match s.table a.run.owner x.1 with | some t => (tableFmt t.fmt).isCode | none => false)
    | none => false)

/-- The other gather steps of the bag set, with their indices. -/
def Act.siblings (a : Act) : List (PStep × Nat) :=
  (a.plan.stepsOf a.lode).zipIdx.filter (fun y => decide (y.1.eng = some .vault) && y.2 != a.idx &&
    y.1.descOff == a.step.descOff && (match a.plan.punchOf a.lode y.1 with | some _ => true | none => false))

/-- Has step `i` of the run done its work? -/
def Act.doneStep (a : Act) (i : Nat) : Bool := match a.run.steps[i]? with | some (.worked _) => true | some .complete => true | _ => false

/-- Finish the bag set from bag `i` on, and count its bags. -/
def State.finishFrom (s : State) (a : Act) (b : BagSet) (bags : List (List (Nat × Nat)))
    (parts : List (Nat × Nat × List Nat)) (i : Nat) : State :=
  let s1 := State.finishBags a b bags parts (bags.length + 1) i s
  let n := match s1.run? a.run.id with
    | some r => (match r.steps[a.idx]? with | some (.stalled _ _ _) => (r.dataOf a.idx).next | _ => bags.length)
    | none => bags.length
  s1.countP a.run.owner 76 (n - i)

/-- The work of a gather step, whose Punch step has done its work. The last of the gather steps of one bag set finishes
the pooling. A live row without an eligible copy fails the run at the step's planned end (R256). -/
def State.gatherWork (s : State) (a : Act) (ev : GatherEv) (b : BagSet) (bags : List (List (Nat × Nat))) : State :=
  let own := a.run.dataOf a.idx
  if own.limit = 1 then s.finishFrom a b bags own.parts own.next else
  let g := s.gatherAll a ev bags
  let s1 := g.st.countP a.run.owner 75 g.rows
  match g.fail with
  | some e => s1.failRun a.run.id e
  | none =>
    let ev' := residueHits a g.parts (s1.codeBags a bags) ev
    if !ev'.residue.isEmpty then s1.residueFail a ev'
    else if g.gone then s1.late a.run.id a.idx .indexRange
    else
      let s2 := s1.setData a.run.id { a.run.dataOf a.idx with parts := g.parts }
      if !a.siblings.all (fun y => a.doneStep y.2) then s2.workDone a
      else if ev'.finisher then s2.residueFail a ev'
      else
        let all := g.parts ++ a.siblings.flatMap (fun y => (a.run.dataOf y.2).parts)
        s2.finishFrom a b bags all 0

/-- GATHER_POOL (R241). -/
def execGatherPool (run step : Nat) (ev : GatherEv) (s : State) : Res :=
  .next (s.onStep run step .vault (fun a =>
    match a.plan.punchOf a.lode a.step, a.run.steps[a.step.dep0]? with
    | some _, some x =>
      (match x with
      | .worked _ | .complete => s.withDesc a (fun d s1 => s1.gatherWork a ev (bagSet d) (a.run.dataOf a.step.dep0).bags)
      | _ => s)
    | _, _ => s))

end Sys2Proof.Machine
end

