-- ==== Sys2Proof/Machine/Epochs.lean ====
section
/-! DEFINITION. Live updates: the Solder, its entries, and the epoch domain (spec/11_live_updates.md, R252 to R279). -/

namespace Sys2Proof.Machine
open Sys2Proof

/-! ## Batches (R262, R264) -/

/-- A head and the place of its payload (Table — Update entry). -/
structure UpdEntry where
  row : Nat
  slot : Nat
  op : Nat
  pfmt : Nat
  pay : Nat
  vault : Nat
  deriving DecidableEq, Repr

/-- The operations of an entry. -/
def opAssign : Nat := 0
def opAdd : Nat := 1
def opSgd : Nat := 2
def opAdagrad : Nat := 3

/-- Bytes of an entry's payload. -/
def payBytes (t : TableSlot) (pfmt : Nat) : Nat :=
  if pfmt = 0 then 4 * t.dim else if pfmt = 1 then 2 * t.dim else t.payload

/-- A batch header is legal (Table — Batch header). -/
def batchLegal (u : UpdDesc) (h : List Byte) : Bool :=
  h.length == 32 && decide (numAt h 0 4 ≤ u.maxEntries) && isFin32 (numAt h 8 4) &&
  (match fp32 (numAt h 0xC 4) with | .fin n m _ => !n && decide (m ≠ 0) | _ => false) &&
  decide (numAt h 0x10 1 ≤ 1) && numAt h 0x11 15 == 0

/-- The entry at byte offset `off` after the header, or the code of its fault (R264). A row in a vault that the paired
vault-lane step does not book counts as one whose lane is not booked (notes/assumptions/37.md). -/
def State.entryAt (s : State) (a : Act) (u : UpdDesc) (body : List Byte) (off : Nat) (used : List Nat) :
    Except Err (UpdEntry × Nat) :=
  if body.length < off + 16 then .error .indexRange else
  let row := numAt body off 8
  let w := numAt body (off + 8) 8
  let slot := w % 1024
  let op := bitsOf w 10 4
  let pfmt := bitsOf w 14 2
  if 4 ≤ op ∨ pfmt = 3 ∨ (pfmt = 2 ∧ op ≠ opAssign) ∨ w / 2 ^ 16 ≠ 0 then .error .indexRange else
  match s.table a.run.owner slot with
  | none => .error .indexRange
  | some t =>
    if t.closing.isSome ∨ t.live = false ∨ t.rows ≤ row ∨ u.maxDim < t.dim ∨ (op = opAdagrad ∧ t.acc = false) then
      .error .indexRange else
    let size := 16 + roundUp (payBytes t pfmt) 16
    if body.length < off + size then .error .indexRange else
    match s.xlatePinned a.run.ctx (t.rowVa row) true with
    | .vault x =>
      (match s.locate x with
      | none => .error .faultPinned
      | some (v, _) =>
        if s.retired v then .error .vaultRetired
        else if !a.step.books (0x110 + v / 32) || !(a.plan.mates a.lode a.step).any (fun y => y.books v) then
          .error .indexRange
        else if u.vaultCap ≤ used.count v ∨ u.towerCap ≤ (used.filter (fun y => y / 32 == v / 32)).length then
          .error .bagOverCap
        else .ok ({ row := row, slot := slot, op := op, pfmt := pfmt, pay := off + 16, vault := v }, off + size))
    | .mere _ => .error .indexRange
    | .host _ => .error .faultPinned
    | .fail _ => .error .faultPinned

/-- Distribute entries in batch order up to the first fault: the entries, and the fault's code. -/
def State.distribute (s : State) (a : Act) (u : UpdDesc) (body : List Byte) : Nat → Nat → List Nat → List UpdEntry × Option Err
  | 0, _, _ => ([], none)
  | n + 1, off, used =>
    match s.entryAt a u body off used with
    | .error e => ([], some e)
    | .ok (x, off') =>
      let (t, e) := s.distribute a u body n off' (x.vault :: used)
      (x :: t, e)

/-- The batch of a Solder step: header, and entry bytes; none when the header is illegal. -/
def Act.batch (a : Act) (u : UpdDesc) : Option (List Byte × List Byte) :=
  let h := (a.input.drop u.inOff).take 32
  if batchLegal u h then some (h, (a.input.drop (u.inOff + 32)).take (numAt h 4 4)) else none

/-- The head of the entry at byte offset `off`, as it was distributed; its row's vault as it translates now. -/
def State.headAt (s : State) (a : Act) (body : List Byte) (off : Nat) : Option (UpdEntry × TableSlot × Nat) :=
  let w := numAt body (off + 8) 8
  match s.table a.run.owner (w % 1024) with
  | none => none
  | some t =>
    let row := numAt body off 8
    let v := match s.xlatePinned a.run.ctx (t.rowVa row) true with
      | .vault x => (match s.locate x with | some (v, _) => v | none => 0)
      | _ => 0
    let pfmt := bitsOf w 14 2
    some ({ row := row, slot := w % 1024, op := bitsOf w 10 4, pfmt := pfmt, pay := off + 16, vault := v }, t,
      off + 16 + roundUp (payBytes t pfmt) 16)

/-- The head of entry `n`. -/
def State.head? (s : State) (a : Act) (body : List Byte) : Nat → Nat → Option (UpdEntry × TableSlot × Nat)
  | 0, off => s.headAt a body off
  | n + 1, off => match s.headAt a body off with
    | some (_, _, off') => s.head? a body n off'
    | none => none

/-- A translation that fails in the distribution, at entry `n`, writes its record (R143). -/
def State.batchRecord (s : State) (a : Act) (body : List Byte) (n : Nat) : State :=
  match s.head? a body n 0 with
  | none => s
  | some (x, t, _) =>
    let va := t.rowVa x.row
    match s.xlatePinned a.run.ctx va true with
    | .fail k => s.xlFail a.who k va true
    | .host _ => s.xlFail a.who kBadTarget va true
    | _ => s

/-- All entries are applied or passed over: the step's work is done unless it has failed. -/
def State.solderEnd (s : State) (a : Act) : State :=
  match s.run? a.run.id with
  | none => s
  | some r => if r.late.any (fun x => x.1 == a.idx) then s else s.workDone a

/-- SOLDER_UPDATE: distribute the batch of an update run (R264). The fault that stops it is signalled at the step's
planned end (R272). -/
def State.solderUpdate (s : State) (id i : Nat) : State :=
  s.onStep id i .solder (fun a =>
    if a.run.data.any (fun d => d.step == i) then s else
    match s.descOf a with
    | (.fail e, s1) => s1.late id i e
    | (.bytes d, s1) =>
      let u := updDesc d
      match a.batch u with
      | none => (s1.setData id { step := i }).late id i .indexRange
      | some (h, body) =>
      let (es, e) := s1.distribute a u body (numAt h 0 4) 0 []
      let s2 := s1.setData id { step := i, limit := es.length }
      let s3 := match e with
        | some .faultPinned => (s2.batchRecord a body es.length).late id i .faultPinned
        | some c => s2.late id i c
        | none => s2
      if es.isEmpty then s3.solderEnd a else s3)

/-- SOLDER_UPDATE (R264). -/
def execSolderUpdate (run step : Nat) (s : State) : Res := .next (s.solderUpdate run step)

/-! ## Applying an entry (R265 to R271) -/

/-- Pack element bits into payload bytes. -/
def packElems (f : EFmt) (es : List Nat) : List Byte :=
  match f with
  | .q4 => (List.range (es.length / 2)).map (fun j => BitVec.ofNat 8 (es.getD (2 * j) 0 % 16 + 16 * (es.getD (2 * j + 1) 0 % 16)))
  | .bf16 => es.flatMap (leBytes 2)
  | _ => es.map (BitVec.ofNat 8)

/-- One element after an update: its bits, and whether it saturates (R270). `old` is the source's element. A quotient
that is NaN counts as a NaN element (R292, notes/assumptions/40.md). -/
def storeElem (t : TableSlot) (scale old v : Nat) : Nat × Bool :=
  let f := tableFmt t.fmt
  if isNan32 v then (old, true)
  else if f.isCode then
    let lim := if f = .q8 then 127 else 7
    let c := if t.scaleKind = 1 then quantS v (shiftOf scale) lim else quantF v scale lim
    if c.inv then (old, true) else (c.bits % 2 ^ f.width, c.sat || isInf32 v)
  else
    let c := match f with
      | .bf16 => toBf16 (fp32 v)
      | .e4m3 => toE4m3 (fp32 v)
      | _ => toE5m2 (fp32 v)
    (c.bits, c.sat || isInf32 v)

/-- The value d of a source element (R269). -/
def sourceVal (t : TableSlot) (scale w : Nat) : Nat :=
  let f := tableFmt t.fmt
  if f.isCode then
    let c := cvtif (wrap32 (sext f.width w))
    if t.scaleKind = 1 then scaleExp c (shiftOf scale) else fmul c scale
  else toFp32 (f.val w)

/-- The new payload and accumulator of a row, and whether the entry saturates (R269, R270). -/
def applyOp (t : TableSlot) (scales : List Nat) (x : UpdEntry) (lr eps : Nat) (src pay : List Byte) (acc : Nat) :
    List Byte × Nat × Bool :=
  let f := tableFmt t.fmt
  if x.pfmt = 2 then (slice pay 0 t.payload, acc, false) else
  let xs := (List.range t.dim).map (fun j =>
    if x.pfmt = 0 then canon32 (numAt pay (4 * j) 4) else toFp32 (bf16 (numAt pay (2 * j) 2)))
  let g := xs.foldl (fun a v => fadd a (fmul v v)) 0
  let acc' := if x.op = opAdagrad then fadd acc (fdiv g (cvtif t.dim)) else acc
  let root := fadd (fsqrt acc') eps
  let es := xs.mapIdx (fun j v =>
    let old := elemAt f src j
    let sc := scales.getD j 0
    let d := sourceVal t sc old
    let n := match x.op with
      | 0 => v
      | 1 => fadd d v
      | 2 => fsub d (fmul lr v)
      | _ => fsub d (fdiv (fmul lr v) root)
    storeElem t sc old n)
  (packElems f (es.map (·.1)), acc', es.any (·.2))

/-- The pending epoch of an owner (R252). -/
def State.pend (s : State) (o : Nat) : Nat := s.rd F.EP_STATE_PUB o + 1

/-- The tag of a copy; a copy whose tag granule cannot be read is taken as not VALID (notes/assumptions/38.md). -/
def State.readTag (s : State) (a : Act) (va : Nat) : Option (Bool × Nat) × State :=
  match s.readVa a.run.ctx va 32 true a.who with
  | (.bytes b, s1) => (some (tagOf b 0), s1)
  | (.fail _, s1) => (none, s1)

/-- The newest VALID copy of a row: its number and EPOCH; copy 0 on a tie. -/
def newestCopy (t0 t1 : Option (Bool × Nat)) : Option (Nat × Nat) :=
  match t0, t1 with
  | some (true, e0), some (true, e1) => if e0 < e1 then some (1, e1) else some (0, e0)
  | some (true, e0), _ => some (0, e0)
  | _, some (true, e1) => some (1, e1)
  | _, _ => none

/-- Append a journal entry (R267): none when the journal is full or its granule cannot take it. -/
def State.journal (s : State) (o granule slot : Nat) : Option Err × State :=
  let used := s.rd F.EP_JNL_SIZE_USED o
  match SMap.get none s.jnlMap o with
  | none => (some .saturated, s.bump F.EP_SAT_JNL_FULL o 1)
  | some m =>
    if s.rd F.EP_JNL_SIZE_CAP o ≤ used then (some .saturated, s.bump F.EP_SAT_JNL_FULL o 1) else
    match s.writeMere (m + 8 * used) (leBytes 8 (granule + slot * 2 ^ 40)) with
    | (some e, s1) => (some e, s1)
    | (none, s1) => (none, s1.wr F.EP_JNL_SIZE_USED o (used + 1))

/-- Write a copy granule by granule, the tag granule last (R266). -/
def State.writeCopy (s : State) (a : Act) (va : Nat) (bs : List Byte) : Option Err × State :=
  match s.writeVa a.run.ctx (va + 32) (bs.drop 32) true a.who with
  | (some e, s1) => (some e, s1)
  | (none, s1) => s1.writeVa a.run.ctx va (bs.take 32) true a.who

/-- What an entry does: none, it is applied; else the code of its failure. -/
def State.applyEntry (s : State) (a : Act) (h body : List Byte) (x : UpdEntry) (t : TableSlot) : Option Err × Bool × State :=
  let o := a.run.owner
  let va := t.rowVa x.row
  let c := t.copy
  let (t0, s1) := s.readTag a va
  let (t1, s2) := s1.readTag a (va + c)
  let src := newestCopy t0 t1
  if src = none ∧ (t0 = none ∨ t1 = none) then (some .poison, false, s2) else
  let (got, s3) := match src with
    | none => (Got.bytes (leBytes c 0), s2)
    | some (k, _) => s2.readVa a.run.ctx (va + k * c) c true a.who
  match got with
  | .fail e => (some e, false, s3)
  | .bytes old =>
    match s3.scalesOf a t with
    | (.error e, s4) => (some e, false, s4)
    | (.ok scales, s4) =>
      let inPlace := match src with | some (_, e) => decide (e = s.pend o) | none => false
      let target := match src with
        | some (k, _) => if inPlace then k else 1 - k
        | none => 0
      let acc := if t.acc then numAt old (8 + t.payload) 4 else 0
      let (pay, acc', sat) := applyOp t scales x (numAt h 8 4) (numAt h 0xC 4) (slice old 8 t.payload) (body.drop x.pay) acc
      let strict := bitAt (numAt h 0x10 1) 0
      let tower := x.vault / 32
      let cnt (u : State) : State := if sat then
          ((u.bump F.EP_SAT_SATURATED o 1).count (512 + 32 * tower + 12) 1).countP o 79 1 else u
      if sat && strict then (some .saturated, true, cnt s4) else
      let (je, s5) := if inPlace then (none, s4) else
        match s4.xlatePinned a.run.ctx (va + target * c) true with
        | .vault p => s4.journal o (p / 32) x.slot
        | _ => (some .faultPinned, s4)
      match je with
      | some e => (some e, false, s5)
      | none =>
        let pad := Config.copyPad (old ++ pay)
        let data := leBytes 8 (s.pend o + 2 ^ 32) ++ pay ++ (if t.acc then leBytes 4 acc' else [])
        match s5.writeCopy a (va + target * c) (data ++ leBytes (c - data.length) pad) with
        | (some e, s7) => (some e, false, s7)
        | (none, s7) =>
          (none, false, cnt (((s7.wr F.EP_STATE_TOUCHED o 1).count (512 + 32 * tower + 11) 1).countP o 78 1))

/-- Take the next entry of a Solder step when its operation is `op`: apply it, or pass it over when its Solder has
stopped (R271). -/
def State.updateEntry (s : State) (id i op : Nat) : State :=
  s.onStep id i .solder (fun a =>
    let d := a.run.dataOf i
    if d.limit ≤ d.next then s else
    match s.descOf a with
    | (.fail e, s1) => s1.late id i e
    | (.bytes bs, s1) =>
      match a.batch (updDesc bs) with
      | none => s
      | some (h, body) =>
        match s1.head? a body d.next 0 with
        | none => s
        | some (x, t, _) =>
          if x.op ≠ op then s else
          let tower := x.vault / 32
          let last := decide (d.limit ≤ d.next + 1)
          let fin (u : State) : State := if last then u.solderEnd a else u
          if d.stopped.contains tower then fin (s1.setData id { d with next := d.next + 1 }) else
          let (e, stop, s2) := s1.applyEntry a h body x t
          let d' : StepData := { d with next := d.next + 1, applied := d.applied + (if e.isNone then 1 else 0)
                                        stopped := if stop then tower :: d.stopped else d.stopped }
          let s3 := s2.setData id d'
          fin (match e with | some c => s3.late id i c | none => s3))

/-- UPDATE_ASSIGN (R269). -/
def execUpdateAssign (run step : Nat) (s : State) : Res := .next (s.updateEntry run step opAssign)
/-- UPDATE_ADD (R269). -/
def execUpdateAdd (run step : Nat) (s : State) : Res := .next (s.updateEntry run step opAdd)
/-- UPDATE_SGD (R269). -/
def execUpdateSgd (run step : Nat) (s : State) : Res := .next (s.updateEntry run step opSgd)
/-- UPDATE_ADAGRAD_ROW (R269). -/
def execUpdateAdagradRow (run step : Nat) (s : State) : Res := .next (s.updateEntry run step opAdagrad)

/-! ## The epoch domain (R273 to R279) -/

/-- The states of an epoch domain. -/
def epReady : Nat := 0
def epPublishing : Nat := 1
def epAbandoning : Nat := 2

/-- An update run of the owner is admitted. -/
def State.updating (s : State) (o : Nat) : Bool :=
  s.runs.any (fun r => r.owner == o && decide (r.phase ≠ .queued) && s.isUpdate r)

/-- PUBLISH and ABANDON, as Table — Epoch states allows them. -/
def State.epStart (s : State) (o : Nat) (publish : Bool) (fe : Option Nat) : State :=
  let st := s.rd F.EP_STATE_STATE o
  let ok := !s.opBusy .ep o &&
    (if publish then st == epReady && s.rd F.EP_STATE_PUB o != 0xFFFFFFFE
     else (st == epReady || st == epAbandoning) && s.rd F.EP_STATE_JNL_LOST o == 0)
  if !ok then s.illegal .owner o 0x488
  else if publish then (s.wr F.EP_STATE_STATE o epPublishing).startOp .ep o o fe 1 .publish
  else
    let s1 := if st = epReady then s.wr F.EP_PROGRESS_DONE o 0 else s
    (s1.wr F.EP_STATE_STATE o epAbandoning).startOp .ep o o fe (s1.rd F.EP_JNL_SIZE_USED o) .abandon

/-- The final step of either command: TOUCHED and USED become 0, the mapping goes, STATE is READY. -/
def State.epClear (s : State) (o : Nat) : State :=
  let s1 := ((s.wr F.EP_STATE_TOUCHED o 0).wr F.EP_JNL_SIZE_USED o 0).wr F.EP_STATE_STATE o epReady
  { s1 with jnlMap := SMap.put none s1.jnlMap o none }

/-- A run of the owner has been admitted in the present tick. -/
def State.admittedNow (s : State) (o : Nat) : Bool :=
  s.runs.any (fun r => r.owner == o && decide (r.phase ≠ .queued) && r.admittedAt == s.tick)

/-- A step of PUBLISH: it waits for admitted update runs, then publishes (R273, R277). Its final step takes effect before
the admissions of its tick, which pin the new PUB (R274): once one has been made, it waits for the next tick. -/
def State.publishStep (s : State) (op : LongOp) : State :=
  let o := op.owner
  if s.updating o || s.admittedNow o then s else
  let s1 := (s.wr F.EP_STATE_PUB o (s.rd F.EP_STATE_PUB o + 1)).epClear o
  (((s1.wr F.EP_STATE_RET_VALID o 1).wr F.EP_STATE_RET_OPEN o 1).wr F.EP_STATE_JNL_LOST o 0).endOp op none

/-- Empty the tag that a journal entry names (R275). An entry that cannot be read, and a granule in a retired vault, are
walked past (notes/assumptions/39.md). -/
def State.abandonEntry (s : State) (o i : Nat) : State :=
  match SMap.get none s.jnlMap o with
  | none => s
  | some m =>
    match s.readMereN 3 (m + 8 * i) 8 [] with
    | (.fail _, s1) => s1
    | (.bytes b, s1) => (s1.writePhys .background 3 (bitsOf (ofLe b) 0 34 * 32) (leBytes 32 0)).2

/-- A step of ABANDON: up to `n` entries of the journal, then the final step (R275). -/
def State.abandonStep (s : State) (op : LongOp) (n : Nat) : State :=
  let o := op.owner
  if s.updating o then s else
  let done := s.rd F.EP_PROGRESS_DONE o
  let used := s.rd F.EP_JNL_SIZE_USED o
  let k := min n (used - done)
  let s1 := ((List.range k).foldl (fun t i => t.abandonEntry o (done + i)) s).wr F.EP_PROGRESS_DONE o (done + k)
  if used ≤ done + k then (s1.epClear o).endOp op none else s1.setOp { op with done := done + k }

/-- What an ABORT leaves (R276). -/
def State.epUndo (s : State) (op : LongOp) : State :=
  match op.task with
  | .publish => s.wr F.EP_STATE_STATE op.owner epReady
  | _ => s

/-- EP_PUBLISH (R273). -/
def execEpPublish (fn : Fn) (fence : Option Nat) (s : State) : Res := .next (s.ownDo fn (s.epStart fn.idx true fence))
/-- EP_ABANDON (R275). -/
def execEpAbandon (fn : Fn) (fence : Option Nat) (s : State) : Res := .next (s.ownDo fn (s.epStart fn.idx false fence))
/-- EP_RESUME (R428). -/
def execEpResume (fn : Fn) (fence : Option Nat) (s : State) : Res :=
  .next (s.ownDo fn (s.resumeOp .ep fn.idx fn.idx fence .owner fn.idx 0x488))
/-- EP_ABORT (R276). -/
def execEpAbort (fn : Fn) (fence : Option Nat) (s : State) : Res :=
  .next (s.ownDo fn (s.abortOp .ep fn.idx fn.idx fence .owner fn.idx 0x488 (fun t op => t.epUndo op)))

end Sys2Proof.Machine
end

