-- ==== Sys2Proof/Machine/Anvil.lean ====
section
/-! DEFINITION. The Anvil jobs and the finished-tile queue (spec/12_numerics.md, R293 to R298; spec/13_anvil.md, R301 to R315). -/

namespace Sys2Proof.Machine
open Sys2Proof

/-! ## Arithmetic of a job -/

/-- The exact sum of a list of values, rounded once (R298). -/
def sumFv (l : List Fv) : Nat :=
  if l.any (fun x => decide (x = .nan)) then nan32
  else if l.any (fun x => decide (x = .inf false)) then
    (if l.any (fun x => decide (x = .inf true)) then nan32 else inf32 false)
  else if l.any (fun x => decide (x = .inf true)) then inf32 true
  else
    let t := l.foldl (fun acc x => match x with | .fin n m e => acc.add (finEx n m e) | _ => acc) (⟨0, 0⟩ : Ex)
    rneI t.i t.e false

/-- Blocks of 32 products: each block summed exactly, then added to the accumulator (R298). -/
def blockSum : Nat → List Fv → Nat → Nat
  | 0, _, acc => acc
  | fuel + 1, l, acc => if l.isEmpty then acc else blockSum fuel (l.drop 32) (fadd acc (sumFv (l.take 32)))

/-- A value times 2^k, exactly. -/
def shiftFv (v : Fv) (k : Int) : Fv := match v with | .fin n m e => .fin n m (e + k) | w => w

/-- The operand bytes of a job: activation rows, weight panels, and the scale of each channel as FP32 bits or as the bits
of a shift. -/
structure AnvilIn where
  xs : List (List Byte)
  ws : List (List Byte)
  sc : List Nat

/-- Weight and activation elements (R303). -/
def AnvilDesc.wAt (a : AnvilDesc) (i : AnvilIn) (k n : Nat) : Nat :=
  elemAt (anvilFmt a.wFmt) (i.ws.getD (n / 32) []) (32 * k + n % 32)
def AnvilDesc.xAt (a : AnvilDesc) (i : AnvilIn) (m k : Nat) : Nat := elemAt (anvilFmt a.xFmt) (i.xs.getD m []) k

/-- Apply a scale to an accumulator: an FP32 factor, a shift, or none. -/
def scaleBy (kind acc s : Nat) (k : Int) : Nat :=
  match kind with
  | 0 => fmul acc s
  | 1 => scaleExp acc k
  | _ => acc

/-- One output element, before conversion to the output format (R294 to R297). -/
def AnvilDesc.elem (a : AnvilDesc) (i : AnvilIn) (m n : Nat) : Nat :=
  let wf := anvilFmt a.wFmt
  let xf := anvilFmt a.xFmt
  let s := i.sc.getD n 0
  match a.path with
  | 0 =>
    let acc := if wf.isCode then
        cvtif (wrap32 ((List.range a.k).foldl (fun t k => t + sext wf.width (a.wAt i k n) * sext xf.width (a.xAt i m k)) 0))
      else blockSum (a.k / 32 + 1) ((List.range a.k).map (fun k => mulFv (wf.val (a.wAt i k n)) (xf.val (a.xAt i m k)))) 0
    scaleBy a.scaleKind acc (fmul s a.xScale) (shiftOf s + sext 8 a.xScale)
  | 1 =>
    let w (k : Nat) : Fv :=
      let c := wf.val (a.wAt i k n)
      match a.scaleKind with
      | 0 => bf16 (toBf16 (mulFv c (fp32 s))).bits
      | 1 => bf16 (toBf16 (shiftFv c (shiftOf s))).bits
      | _ => c
    blockSum (a.k / 32 + 1) ((List.range a.k).map (fun k => mulFv (w k) (xf.val (a.xAt i m k)))) 0
  | _ =>
    let acc := blockSum (a.k / 32 + 1) ((List.range a.k).map (fun k => mulFv (wf.val (a.wAt i k n)) (xf.val (a.xAt i m k)))) 0
    scaleBy a.scaleKind acc s (shiftOf s)

/-- The 512 elements of a tile, rows first; positions outside M or N are +0.0 (R307). -/
def AnvilDesc.tile (a : AnvilDesc) (i : AnvilIn) (ta tb : Nat) : List Nat :=
  (List.range 512).map (fun e =>
    let m := 16 * ta + e / 32
    let n := 32 * tb + e % 32
    if m < a.m ∧ n < a.n then a.elem i m n else 0)

/-- The tiles in the order in which they are produced: channel blocks outermost (R307). -/
def AnvilDesc.order (a : AnvilDesc) : List (Nat × Nat) :=
  (List.range (ceilDiv a.n 32)).flatMap (fun b => (List.range (ceilDiv a.m 16)).map (fun r => (r, b)))

/-! ## Operands (R303 to R305) -/

/-- Read pieces one by one, until one fails. -/
def State.getList (s : State) (a : Act) : List (Nat × Nat) → List (List Byte) → Except Err (List (List Byte)) × State
  | [], acc => (.ok acc, s)
  | (va, n) :: t, acc =>
    match s.get a va n with
    | (.fail e, s1) => (.error e, s1)
    | (.bytes b, s1) => s1.getList a t (acc ++ [b])

/-- Load the N 32-bit entries of a job into the scale registers of its Anvil, from register BASE on (R304). -/
def State.loadScales (s : State) (a : Act) (d : AnvilDesc) (bs : List Byte) : State :=
  { s with avScale := SMap.put none s.avScale (a.step.lane - 0x100) (some
      { run := a.run.id, step := a.idx
        regs := (List.range d.n).foldl (fun m i => SMap.put 0 m (d.base + i) (numAt bs (4 * i) 4)) [] }) }

/-- The scale registers of an Anvil are dropped when the step that loaded them ends. -/
def State.dropScales (s : State) (t run step : Nat) : State :=
  match SMap.get none s.avScale t with
  | some b => if b.run = run ∧ b.step = step then { s with avScale := SMap.put none s.avScale t none } else s
  | none => s

/-- A scale register that the step may read: one that it loaded itself. -/
def State.scaleReg (s : State) (a : Act) (n : Nat) : Nat :=
  match SMap.get none s.avScale (a.step.lane - 0x100) with
  | some b => if b.run = a.run.id ∧ b.step = a.idx then SMap.get 0 b.regs n else 0
  | none => 0

/-- The scales of the channels: registers hold 32-bit entries, a sidecar holds BF16 factors or shifts (R304, R305). -/
def State.scales (s : State) (a : Act) (d : AnvilDesc) (bs : List Byte) : List Nat :=
  if d.scaleKind = 2 then [] else
  (List.range d.n).map (fun n =>
    if d.sidecar then (if d.scaleKind = 0 then toFp32 (bf16 (numAt bs (2 * n) 2)) else numAt bs n 1)
    else s.scaleReg a (d.base + n))

/-- Read the operands of a job from Mere, and load its scale registers. -/
def State.anvilIn (s : State) (a : Act) (d : AnvilDesc) : Except Err AnvilIn × State :=
  let xs := (List.range d.m).map (fun m => (d.x + a.off + m * d.xStride, (anvilFmt d.xFmt).bytes d.k))
  let pb := d.k * (anvilFmt d.wFmt).bytes 32
  let ws := (List.range (ceilDiv d.n 32)).map (fun p => (d.w + a.off + p * pb, pb))
  match s.getList a [(d.sc + a.off, d.scBytes)] [] with
  | (.error e, s1) => (.error e, s1)
  | (.ok sc, s0) =>
    let s1 := if d.scaleKind ≠ 2 ∧ d.sidecar = false then s0.loadScales a d (sc.getD 0 []) else s0
    match s1.getList a ws [] with
    | (.error e, s2) => (.error e, s2)
    | (.ok ws, s2) =>
      match s2.getList a xs [] with
      | (.error e, s3) => (.error e, s3)
      | (.ok xs, s3) => (.ok { xs := xs, ws := ws, sc := s3.scales a d (sc.getD 0 []) }, s3)

/-! ## Residues (R314) -/

/-- An operand as an integer multiple of the smallest step of its format: a code is itself, E4M3 counts steps of 2^−9,
E5M2 steps of 2^−16. -/
def EFmt.units (f : EFmt) (w : Nat) : Int :=
  let step : Int := match f with | .e4m3 => 9 | .e5m2 => 16 | _ => 0
  match f.val w with
  | .fin n m e => let k : Int := m * 2 ^ (e + step).toNat; if n then -k else k
  | _ => Config.residueOf w

/-- The rows and the channels of a tile that lie within M and N. -/
def AnvilDesc.tileDims (d : AnvilDesc) (t : Nat × Nat) : List Nat × List Nat :=
  ((List.range (min 16 (d.m - 16 * t.1))).map (16 * t.1 + ·), (List.range (min 32 (d.n - 32 * t.2))).map (32 * t.2 + ·))

/-- The sum of a tile's accumulators as the array forms it, mod 255. -/
def AnvilDesc.arraySum (d : AnvilDesc) (i : AnvilIn) (t : Nat × Nat) : Nat :=
  let (ms, ns) := d.tileDims t
  ((ms.flatMap (fun m => ns.flatMap (fun n => (List.range d.k).map (fun k =>
    (anvilFmt d.xFmt).units (d.xAt i m k) * (anvilFmt d.wFmt).units (d.wAt i k n))))).sum % 255).toNat

/-- The sum over k of (sum of activations) × (sum of weights), as the residue unit forms it from the operand bytes, mod
255. -/
def AnvilDesc.unitSum (d : AnvilDesc) (i : AnvilIn) (t : Nat × Nat) : Nat :=
  let (ms, ns) := d.tileDims t
  (((List.range d.k).map (fun k =>
    (ms.map (fun m => (anvilFmt d.xFmt).units (d.xAt i m k))).sum *
    (ns.map (fun n => (anvilFmt d.wFmt).units (d.wAt i k n))).sum)).sum % 255).toNat

/-- The first tile of an INTEGER job whose two values differ, with the residue unit's value and the array's. A fault of
the array is `hit`: a tile and the value that its array forms. -/
def AnvilDesc.mismatch (d : AnvilDesc) (i : AnvilIn) (hit : Option (Nat × Nat)) : Option (Nat × Nat × Nat) :=
  if d.path ≠ 0 then none else
  (d.order.zipIdx).findSome? (fun x =>
    let want := d.unitSum i x.1
    let got := match hit with
      | some h => if h.1 = x.2 then h.2 % 255 else d.arraySum i x.1
      | none => d.arraySum i x.1
    if want = got then none else some (x.2, want, got))

/-! ## Jobs -/

/-- The rows of a tile as they are written to Mere: address and bytes; elements outside M or N are not written. -/
def AnvilDesc.tileRows (d : AnvilDesc) (off : Nat) (t : Nat × Nat) (es : List Nat) : List (Nat × List Byte) :=
  let e := outBytes d.outFmt
  let n := min 32 (d.n - 32 * t.2)
  (List.range (min 16 (d.m - 16 * t.1))).map (fun r =>
    (d.y + off + (16 * t.1 + r) * d.yStride + 32 * t.2 * e,
     (List.range n).flatMap (fun c =>
       let v := es.getD (32 * r + c) 0
       leBytes e (if d.outFmt = 0 then v else (toBf16 (fp32 v)).bits))))

/-- Write tiles to Mere in order until one fails. -/
def State.tilesOut (s : State) (a : Act) (d : AnvilDesc) (i : AnvilIn) : List (Nat × Nat) → Option Err × State
  | [] => (none, s)
  | t :: rest =>
    match s.putRows a (d.tileRows a.off t (d.tile i t.1 t.2)) with
    | (some e, s1) => (some e, s1)
    | (none, s1) => ((s1.count (512 + 32 * (a.step.lane - 0x100) + 7) 1).countP a.run.owner 97 1).tilesOut a d i rest

/-- A residue mismatch of tile `j` (R315): the run fails with E_RESIDUE and the Anvil is marked. -/
def State.anvilMismatch (s : State) (a : Act) (j exp obs : Nat) : State :=
  let t := a.step.lane - 0x100
  let s1 := ((s.bumpSat F.AV_RESIDUE_MISMATCHES t 0 1).wr F.AV_RESIDUE_LAST_TICK t (low32 s.tick)).count (512 + 32 * t + 8) 1
  (s1.failRun a.run.id .residue).mark a.step.lane
    { cause := 1, polder := a.cperPolder, tile := j, resExp := exp, resObs := obs }

/-- The work of an Anvil step of one path. `hit` is a fault of the array; only the INTEGER path has the check (R314). Tiles
before a mismatch are delivered; with DEST QUEUE they wait to be pushed. -/
def State.anvil (s : State) (id i path : Nat) (f : Flaw) (hit : Option (Nat × Nat)) : State :=
  s.onStep id i .anvil (fun a => s.flawed a f (fun s0 => s0.withDesc a (fun bs s1 =>
    let d := anvilDesc bs
    let t := a.step.lane - 0x100
    if d.path ≠ path ∨ (SMap.get none s1.avJobs t).isSome then s else
    match s1.anvilIn a d with
    | (.error e, s2) => s2.failRun id e
    | (.ok inp, s2) =>
      let bad := d.mismatch inp hit
      let good := match bad with | some b => d.order.take b.1 | none => d.order
      if d.queue then
        let job : AvJob := { run := id, step := i, tiles := good.map (fun x => d.tile inp x.1 x.2), bad := bad }
        { s2 with avJobs := SMap.put none s2.avJobs t (some job) }
      else
        match s2.tilesOut a d inp good with
        | (some e, s3) => s3.failRun id e
        | (none, s3) => (match bad with
          | some (j, e, o) => s3.anvilMismatch a j e o
          | none => s3.workDone a))))

/-- ANVIL_INTEGER (R294, R295). -/
def execAnvilInteger (run step : Nat) (flaw : Flaw) (hit : Option (Nat × Nat)) (s : State) : Res :=
  .next (s.anvil run step 0 flaw hit)
/-- ANVIL_EXPAND (R296). -/
def execAnvilExpand (run step : Nat) (flaw : Flaw) (s : State) : Res := .next (s.anvil run step 1 flaw none)
/-- ANVIL_PRODUCT_TABLE (R297). -/
def execAnvilProductTable (run step : Nat) (flaw : Flaw) (s : State) : Res := .next (s.anvil run step 2 flaw none)

/-! ## The finished-tile queue (R309) -/

/-- Push the next finished tile of an Anvil; a full queue holds the Anvil for the tick. A tile whose residues differ is
not pushed: the run fails in the tick in which that tile completes (R315). -/
def State.tilePush (s : State) (t : Nat) : State :=
  match SMap.get none s.avJobs t with
  | none => s
  | some j =>
    match s.workNow? j.run j.step, j.tiles with
    | some a, tile :: rest =>
      let q := SMap.get [] s.tiles t
      if 16 ≤ q.length then (s.bump F.AV_QUEUE_HOLDS t 1).count (512 + 32 * t + 9) 1 else
      let out : Tile := { run := j.run, elems := tile }
      let last := rest.isEmpty && j.bad.isNone
      let s1 : State := { s with
        tiles := SMap.put [] s.tiles t (q ++ [out])
        avJobs := SMap.put none s.avJobs t (if last then none else some { j with tiles := rest }) }
      let s2 := (s1.count (512 + 32 * t + 7) 1).countP a.run.owner 97 1
      if last then s2.workDone a else s2
    | some a, [] => (match j.bad with
      | some (n, e, o) => s.anvilMismatch a n e o
      | none => s)
    | none, _ => s

/-- ANVIL_TILE_PUSH (R309). -/
def execAnvilTilePush (t : Fin 8) (s : State) : Res := .next (s.tilePush t.val)

end Sys2Proof.Machine
end

