-- ==== Sys2Proof/Machine/Gcm.lean ====
section
/-! DEFINITION. AES-256 (FIPS 197) in Galois/Counter Mode (NIST SP 800-38D), which encrypts the data flits of the Causeway
(spec/16_causeway.md, R362, R368). -/

namespace Sys2Proof.Machine
open Sys2Proof

/-! ## AES-256 -/

/-- The substitution box, 32 entries in each number, entry n of a row in bits 8n and up. -/
def aesRows : List Nat :=
  [0xc072a49cafa2d4adf04759fa7dc982ca76abd7fe2b670130c56f6bf27b777c63,
   0x75b227ebe28012079a059618c323c7041531d871f1e5a534ccf73f362693fdb7,
   0xcf584c4a39becb6a5bb1fc20ed00d153842fe329b3d63b52a05a6e1b1a2c8309,
   0xd2f3ff1021dab6bcf5389d928f40a351a89f3c507f02f94585334d43fbaaefd0,
   0xdb0b5ede14b8ee4688902a22dc4f816073195d643d7ea7c41744975fec130ccd,
   0x08ae7a65eaf4566ca94ed58d6d37c8e779e4959162acd3c25c2406490a3a32e0,
   0x9e1dc186b95735610ef6034866b53e708a8bbd4b1f74dde8c6b4a61c2e2578ba,
   0x16bb54b00f2d99416842e6bf0d89a18cdf2855cee9871e9b948ed9691198f8e1]

def aesSub (b : Nat) : Nat := aesRows.getD (b / 32) 0 / 256 ^ (b % 32) % 256

/-- A byte times x in the field of AES. -/
def aesTimes2 (b : Nat) : Nat := if b < 128 then 2 * b else Nat.xor (2 * b) 0x11B

/-- Add two byte strings in the field. -/
def xorBytes (x y : List Nat) : List Nat := List.zipWith Nat.xor x y

/-- Byte `n` of a block of four columns. -/
def aesAt (b : List Nat) (n : Nat) : Nat := b.getD n 0

/-- Row r moves r columns to the left. -/
def aesShift (b : List Nat) : List Nat := (List.range 16).map (fun n => aesAt b (4 * ((n / 4 + n % 4) % 4) + n % 4))

/-- Each column is multiplied by the fixed polynomial. -/
def aesMix (b : List Nat) : List Nat :=
  (List.range 16).map (fun n =>
    let at_ (k : Nat) : Nat := aesAt b (4 * (n / 4) + (n + k) % 4)
    [aesTimes2 (at_ 1), at_ 1, at_ 2, at_ 3].foldl Nat.xor (aesTimes2 (at_ 0)))

/-- One more word of the key schedule; the list holds the newest word first. `n` is the word's number. -/
def aesKeyWord (ws : List (List Nat)) (n : Nat) : List (List Nat) :=
  let last := ws.headD []
  let t := if n % 8 = 0 then xorBytes ((last.drop 1 ++ last.take 1).map aesSub) [2 ^ (n / 8 - 1), 0, 0, 0]
    else if n % 8 = 4 then last.map aesSub else last
  xorBytes (ws.getD 7 []) t :: ws

/-- The 15 round keys of a 32-byte key. -/
def aesKeys (key : List Nat) : List (List Nat) :=
  let first := ((List.range 8).map (fun i => (key.drop (4 * i)).take 4)).reverse
  let words := ((List.range 52).foldl (fun ws i => aesKeyWord ws (8 + i)) first).reverse
  (List.range 15).map (fun r => ((words.drop (4 * r)).take 4).flatten)

/-- Encrypt one block under its round keys. -/
def aesBlock (keys : List (List Nat)) (b : List Nat) : List Nat :=
  let whitened := xorBytes b (keys.headD [])
  let inner := ((keys.drop 1).take 13).foldl (fun x k => xorBytes (aesMix (aesShift (x.map aesSub))) k) whitened
  xorBytes (aesShift (inner.map aesSub)) (keys.getD 14 [])

/-! ## Galois/Counter Mode -/

/-- A byte string as a number, the first byte leading, and a number as `n` such bytes. -/
def beNum (bs : List Nat) : Nat := bs.foldl (fun a b => 256 * a + b) 0
def beBytes (n v : Nat) : List Nat := (List.range n).map (fun i => v / 256 ^ (n - 1 - i) % 256)

/-- Multiply two elements of GF(2^128); the leading bit of a block is the coefficient of 1. -/
def gfTimes (x y : Nat) : Nat :=
  ((List.range 128).foldl (fun (zv : Nat × Nat) i =>
    (if bitAt x (127 - i) then Nat.xor zv.1 zv.2 else zv.1,
     if zv.2 % 2 = 1 then Nat.xor (zv.2 / 2) (0xE1 * 2 ^ 120) else zv.2 / 2)) (0, y)).1

/-- The 16-byte blocks of a byte string, the last one filled with zeros, as numbers. -/
def gcmBlocks (bs : List Nat) : List Nat :=
  (List.range (ceilDiv bs.length 16)).map (fun i =>
    let b := (bs.drop (16 * i)).take 16
    beNum b * 256 ^ (16 - b.length))

/-- Encrypt or decrypt bytes with the counter blocks that follow the first one. -/
def gcmStream (keys : List (List Nat)) (iv bs : List Nat) : List Nat :=
  ((List.range (ceilDiv bs.length 16)).map (fun i =>
    xorBytes ((bs.drop (16 * i)).take 16) (aesBlock keys (iv ++ beBytes 4 (i + 2))))).flatten

/-- The tag over additional data and ciphertext. -/
def gcmTag (keys : List (List Nat)) (iv aad cipher : List Nat) : List Nat :=
  let h := beNum (aesBlock keys (List.replicate 16 0))
  let sizes := 8 * aad.length * 2 ^ 64 + 8 * cipher.length
  let hash := (gcmBlocks aad ++ gcmBlocks cipher ++ [sizes]).foldl (fun y b => gfTimes (Nat.xor y b) h) 0
  xorBytes (beBytes 16 hash) (aesBlock keys (iv ++ [0, 0, 0, 1]))

/-- The bytes of a string as numbers, and back. -/
def natBytes (bs : List Byte) : List Nat := bs.map (·.toNat)
def toBytes (bs : List Nat) : List Byte := bs.map (BitVec.ofNat 8)

/-- Encrypt a body: the ciphertext and its tag. -/
def gcmSeal (key iv aad body : List Byte) : List Byte × List Byte :=
  let keys := aesKeys (natBytes key)
  let c := gcmStream keys (natBytes iv) (natBytes body)
  (toBytes c, toBytes (gcmTag keys (natBytes iv) (natBytes aad) c))

/-- Decrypt a body; none when the tag does not verify. -/
def gcmOpen (key iv aad cipher tag : List Byte) : Option (List Byte) :=
  let keys := aesKeys (natBytes key)
  if toBytes (gcmTag keys (natBytes iv) (natBytes aad) (natBytes cipher)) = tag
  then some (toBytes (gcmStream keys (natBytes iv) (natBytes cipher))) else none

end Sys2Proof.Machine
end

