-- ==== Sys2Proof/Machine/Planisher.lean ====
section
/-! DEFINITION. The Planisher: its prologue and its instructions (spec/14_planisher.md, R316 to R337). One command
executes one instruction of the step that the Planisher of a tower runs; it has an effect only when that instruction is
the next one of the program. -/

namespace Sys2Proof.Machine
open Sys2Proof

/-! ## Registers of a step (R316, R317) -/

/-- The registers of a Planisher at the start of a step: tiles +0.0, masks 0 but MK0, flags clear, counters 0. -/
def plStart (run step : Nat) (d : List Byte) (off : Nat) : Pl :=
  { run := run, step := step, desc := d, off := off, prog := plProgram d, pc := 0, cyc := 0, loops := [], lc := [0, 0, 0, 0]
    tiles := [], masks := (2 ^ 512 - 1) :: List.replicate 7 0, flags := List.replicate 64 0
    sc := (List.range 16).map (fun i => numAt d (0xC0 + 4 * i) 4) }

/-- Element e of a tile. -/
def Pl.el (p : Pl) (tile e : Nat) : Nat := SMap.get 0 p.tiles (512 * tile + e)

/-- A loop counter. -/
def Pl.cnt (p : Pl) (lv : Nat) : Nat := p.lc.getD lv 0

/-- An operand number with its index (R323). -/
def Pl.idx (p : Pl) (w : Nat) (ix : Bool) (n : Nat) : Nat := if ix then n + p.cnt (plLv w) else n

/-- The operand numbers of an instruction. -/
def Pl.dst (p : Pl) (w : Nat) : Nat := p.idx w (plIxd w) (plDst w)
def Pl.sa (p : Pl) (w : Nat) : Nat := p.idx w (plIxa w) (plSa w)
def Pl.sb (p : Pl) (w : Nat) : Nat := p.idx w (plIxb w) (plSb w)

/-- A mask register; MK0 governs every element. -/
def Pl.mask (p : Pl) (m : Nat) : Nat := p.masks.getD m 0

/-- Is element e governed? -/
def Pl.governs (p : Pl) (w e : Nat) : Bool := bitAt (p.mask (plMask w)) e

/-- Element e of the second operand, as BMODE selects (R326). -/
def Pl.b (p : Pl) (w e : Nat) : Nat :=
  match plBmode w with
  | 0 => p.el (p.sb w) e
  | 1 => p.el (p.sb w) (e % 32)
  | 2 => p.el (p.sb w) (32 * (e / 32))
  | _ => p.sc.getD (plSc w) 0

/-- Write a tile: governed elements take their result, the others stay or become 0 (R327); the flags of governed
elements are sticky on the tile (R333). -/
def Pl.put (p : Pl) (w tile : Nat) (f : Nat → Nat × Nat) : Pl :=
  let rs := (List.range 512).map f
  let vals := rs.mapIdx (fun e r => if p.governs w e then r.1 else if plZ w then 0 else p.el tile e)
  let fl := (rs.zipIdx.filter (fun x => p.governs w x.2)).foldl (fun acc x => bitsOr 3 acc x.1.2) (p.flags.getD tile 0)
  { p with tiles := (vals.zipIdx).foldl (fun m x => SMap.put 0 m (512 * tile + x.2) x.1) p.tiles
           flags := p.flags.set tile fl }

/-- Write a mask: governed bits take their result, the others stay or become 0. -/
def Pl.putMask (p : Pl) (w : Nat) (f : Nat → Bool) : Pl :=
  let m := p.dst w
  let old := p.mask m
  let v := (List.range 512).foldl (fun acc e =>
    let bit := if p.governs w e then f e else if plZ w then false else bitAt old e
    if bit then acc + 2 ^ e else acc) 0
  { p with masks := p.masks.set m v }

/-! ## Flags (R333) -/

def flInv : Nat := 1
def flOvf : Nat := 2
def flNan : Nat := 4

/-- The flags of an arithmetic result: INV for a NaN from operands that are none, OVF for an infinity from finite
operands, NAN for a NaN. -/
def arithFlags (r : Nat) (ops : List Nat) : Nat :=
  (if isNan32 r && !ops.any isNan32 then flInv else 0) + (if isInf32 r && ops.all isFin32 then flOvf else 0) +
  (if isNan32 r then flNan else 0)

/-- The NAN flag alone. -/
def nanFlag (r : Nat) : Nat := if isNan32 r then flNan else 0

/-- The flags of a conversion; `nan` says that the instruction writes a NaN. -/
def convFlags (c : Conv) (nan : Bool) : Nat := (if c.inv then flInv else 0) + (if c.sat then flOvf else 0) + (if nan then flNan else 0)

/-! ## Going on (R320, R322) -/

/-- The next instruction: at the end of a loop's body, the body again or what follows it. -/
def Pl.settle : Nat → Pl → Pl
  | 0, p => p
  | fuel + 1, p =>
    match p.loops with
    | [] => p
    | (lv, first, stop, left) :: rest =>
      if p.pc < stop then p
      else if left = 0 then Pl.settle fuel { p with loops := rest, lc := p.lc.set lv 0 }
      else { p with pc := first, loops := (lv, first, stop, left - 1) :: rest, lc := p.lc.set lv (p.cnt lv + 1) }

def Pl.next (p : Pl) : Pl := Pl.settle (p.loops.length + 1) { p with pc := p.pc + 1 }

/-- What an instruction does: the Planisher's new registers, or the code with which the run fails. -/
abbrev PlRes := Except Err Pl × State

/-- Has the tick of the next instruction come (R321)? -/
def State.plDue (s : State) (a : Act) (p : Pl) : Bool := decide (a.start + plPrologue p.desc + p.cyc / 16 ≤ s.tick)

/-- The Planisher of tower t after an instruction of opcode `op`; the last one ends the step's work. -/
def State.plDone (s : State) (t op : Nat) (a : Act) (p : Pl) : State :=
  let p' := { p.next with cyc := p.cyc + (plCycles op).getD 0 }
  let s1 : State := { s with pls := SMap.put none s.pls t (some p') }
  let s2 := s1.count (512 + 32 * t + 10) 1
  if p'.prog.length ≤ p'.pc then s2.workDone a else s2

/-- A failure under R337 counts in `PL_COUNT.POISON`. -/
def State.plFail (s : State) (t id : Nat) (e : Err) : State :=
  (if e = .poison then s.bump F.PL_COUNT_POISON t 1 else s).failRun id e

/-- Execute opcode `op` on the Planisher of tower t, when it is the next instruction and its tick has come (R320, R321). An
uncorrectable error in what it reads of the engine's own storage, or of the Anvil's queue for POP, fails the run with
E_POISON and marks that engine
(R337, R439). -/
def State.plRun (s : State) (t op : Nat) (f : Flaw) (k : Act → Pl → Nat → State → PlRes) : State :=
  match SMap.get none s.pls t with
  | none => s
  | some p =>
    match s.workNow? p.run p.step, p.prog[p.pc]? with
    | some a, some w =>
      if plOp w ≠ op ∨ s.plDue a p = false then s else
      if f = .uncorrectable then
        (s.plFail t p.run .poison).mark ((if op = 0x1F then 0x100 else 0x108) + t) { cause := 3, polder := a.cperPolder }
      else
      (match k a p w s with
      | (.ok p', s1) => s1.plDone t op a p'
      | (.error e, s1) => s1.plFail t p.run e)
    | _, _ => s

/-- PLANISHER_PROLOGUE (R317, R321): the program and the scalars come from the descriptor. -/
def execPlanisherPrologue (run step : Nat) (s : State) : Res :=
  .next (s.onStep run step .planisher (fun a =>
    let t := a.step.lane - 0x108
    if (SMap.get none s.pls t).isSome then s else
    s.withDesc a (fun d s1 => { s1 with pls := SMap.put none s1.pls t (some (plStart run step d a.off)) })))

/-! ## Shapes of instructions -/

/-- An instruction on registers alone. -/
def State.plReg (s : State) (t op : Nat) (f : Flaw) (k : Pl → Nat → Pl) : State :=
  s.plRun t op f (fun _ p w s1 => (.ok (k p w), s1))

/-- A float instruction on SA. -/
def State.plUn (s : State) (t op : Nat) (f : Flaw) (g : Nat → Nat) : State :=
  s.plReg t op f (fun p w => p.put w (p.dst w) (fun e => let x := p.el (p.sa w) e; let r := g x; (r, arithFlags r [x])))

/-- A float instruction on SA and B. -/
def State.plBin (s : State) (t op : Nat) (f : Flaw) (g : Nat → Nat → Nat) : State :=
  s.plReg t op f (fun p w => p.put w (p.dst w) (fun e =>
    let x := p.el (p.sa w) e; let y := p.b w e; let r := g x y; (r, arithFlags r [x, y])))

/-- An integer instruction on SA and B; it sets no flag. -/
def State.plInt (s : State) (t op : Nat) (f : Flaw) (g : Int → Int → Int) : State :=
  s.plReg t op f (fun p w => p.put w (p.dst w) (fun e => (wrap32 (g (sext 32 (p.el (p.sa w) e)) (sext 32 (p.b w e))), 0)))

/-- A conversion of SA. -/
def State.plConv (s : State) (t op : Nat) (f : Flaw) (g : Pl → Nat → Nat → Conv) : State :=
  s.plReg t op f (fun p w => p.put w (p.dst w) (fun e => let c := g p w (p.el (p.sa w) e); (c.bits, convFlags c false)))

/-- The six conditions of a comparison: the sign of SA − B, and whether the two compare at all. -/
def condBit (cond : Nat) (c : Int) (ordered : Bool) : Bool :=
  match cond with
  | 0 => ordered && decide (c = 0)
  | 1 => !ordered || decide (c ≠ 0)
  | 2 => ordered && decide (c < 0)
  | 3 => ordered && decide (c ≤ 0)
  | 4 => ordered && decide (0 < c)
  | _ => ordered && decide (0 ≤ c)

/-! ## Control and flags -/

/-- NOP (R328). -/
def execNop (t : Fin 8) (s : State) : Res := .next (s.plReg t.val 0x00 .none (fun p _ => p))
/-- LOOP (R322). -/
def execLoop (t : Fin 8) (s : State) : Res :=
  .next (s.plReg t.val 0x01 .none (fun p w =>
    { p with loops := (plLoopLv w, p.pc + 1, p.pc + 1 + plBody w, plCount w - 1) :: p.loops, lc := p.lc.set (plLoopLv w) 0 }))
/-- CLRF (R333). -/
def execClrf (t : Fin 8) (s : State) : Res :=
  .next (s.plReg t.val 0x02 .none (fun p w =>
    { p with flags := if bitAt (plArg w) 0 then List.replicate 64 0 else p.flags.set (p.dst w) 0 }))

/-! ## Memory instructions (R323, R325, R327) -/

/-- The address of row r of a memory instruction. -/
def Pl.rowVa (p : Pl) (w r : Nat) : Nat :=
  let e := abEnt p.desc (plAb w)
  let i := if bitAt w 35 then p.cnt (plLv w) else 0
  e.va + p.off + (plRowOff e w i r).toNat

/-- STF: 64 bytes, byte n the flags of TLn. -/
def execStf (t : Fin 8) (s : State) : Res :=
  .next (s.plRun t.val 0x03 .none (fun a p w s1 =>
    match s1.put a (p.rowVa w 0) (p.flags.map (BitVec.ofNat 8)) with
    | (some e, s2) => (.error e, s2)
    | (none, s2) => (.ok p, s2)))

/-- A loaded element, and its flags. -/
def loadElem (op : Nat) (row : List Byte) (c : Nat) : Nat × Nat :=
  let fl (r : Nat) : Nat × Nat := (r, nanFlag r)
  match op with
  | 0x10 => fl (numAt row (4 * c) 4)
  | 0x11 => fl (toFp32 (bf16 (numAt row (2 * c) 2)))
  | 0x12 => (wrap32 (sext 8 (numAt row c 1)), 0)
  | 0x13 => (wrap32 (sext 4 (elemAt .q4 row c)), 0)
  | 0x14 => fl (toFp32 (e4m3 (numAt row c 1)))
  | _ => fl (toFp32 (e5m2 (numAt row c 1)))

/-- A load of 16 rows; every byte of its range is read, whatever the mask. -/
def State.plLoad (s : State) (t op : Nat) (f : Flaw) : State :=
  s.plRun t op f (fun a p w s1 =>
    match s1.getList a ((List.range 16).map (fun r => (p.rowVa w r, plRowBytes op))) [] with
    | (.error e, s2) => (.error e, s2)
    | (.ok rows, s2) => (.ok (p.put w (p.dst w) (fun e => loadElem op (rows.getD (e / 32) []) (e % 32))), s2))

/-- LD.F32 (R328). -/
def execLdF32 (t : Fin 8) (flaw : Flaw) (s : State) : Res := .next (s.plLoad t.val 0x10 flaw)
/-- LD.BF16 (R328). -/
def execLdBf16 (t : Fin 8) (flaw : Flaw) (s : State) : Res := .next (s.plLoad t.val 0x11 flaw)
/-- LD.Q8 (R328). -/
def execLdQ8 (t : Fin 8) (flaw : Flaw) (s : State) : Res := .next (s.plLoad t.val 0x12 flaw)
/-- LD.Q4 (R328). -/
def execLdQ4 (t : Fin 8) (flaw : Flaw) (s : State) : Res := .next (s.plLoad t.val 0x13 flaw)
/-- LD.E4M3 (R328). -/
def execLdE4m3 (t : Fin 8) (flaw : Flaw) (s : State) : Res := .next (s.plLoad t.val 0x14 flaw)
/-- LD.E5M2 (R328). -/
def execLdE5m2 (t : Fin 8) (flaw : Flaw) (s : State) : Res := .next (s.plLoad t.val 0x15 flaw)

/-- The largest code that a code store writes, and the clamp of an int32 (R328). -/
def clampCode (lim w : Nat) : Conv :=
  let i := sext 32 w
  if i < -(lim : Int) then { bits := wrap32 (-(lim : Int)), sat := true }
  else if (lim : Int) < i then { bits := lim, sat := true }
  else { bits := wrap32 i }

/-- The bits that a store writes for an element, and its flags. -/
def storeBits (op w : Nat) : Nat × Nat :=
  let conv (c : Conv) : Nat × Nat := (c.bits, convFlags c (isNan32 w))
  match op with
  | 0x18 => (w, nanFlag w)
  | 0x19 => conv (toBf16 (fp32 w))
  | 0x1A => let c := clampCode 127 w; (c.bits % 256, convFlags c false)
  | 0x1B => let c := clampCode 7 w; (c.bits % 16, convFlags c false)
  | 0x1C => conv (toE4m3 (fp32 w))
  | _ => conv (toE5m2 (fp32 w))

/-- The bytes of one stored row: none where the byte stays as it is. A byte of two Q4 elements of which one is masked
under MERGE keeps the other nibble of `old`. -/
def storeRow (op : Nat) (p : Pl) (w tile r : Nat) (old : List Byte) : List (Option Byte) :=
  let val (c : Nat) : Option Nat :=
    let e := 32 * r + c
    if p.governs w e then some (storeBits op (p.el tile e)).1 else if plZ w then some 0 else none
  if op = 0x1B then
    (List.range 16).map (fun j =>
      match val (2 * j), val (2 * j + 1) with
      | none, none => none
      | x, y => some (BitVec.ofNat 8 (x.getD (numAt old j 1 % 16) + 16 * y.getD (numAt old j 1 / 16))))
  else
    let n := plRowBytes op / 32
    (List.range 32).flatMap (fun c => match val c with
      | some v => (leBytes n v).map some
      | none => List.replicate n none)

/-- Group the bytes that are written into runs, with their addresses. -/
def byteRuns : Nat → List (Option Byte) → List (Nat × List Byte)
  | _, [] => []
  | va, none :: t => byteRuns (va + 1) t
  | va, some b :: t =>
    match byteRuns (va + 1) t with
    | (va', bs) :: rest => if va' = va + 1 then (va, b :: bs) :: rest else (va, [b]) :: (va', bs) :: rest
    | [] => [(va, [b])]

/-- A store of 16 rows. A masked Q4 store under MERGE first reads the bytes that it changes in part. -/
def State.plStore (s : State) (t op : Nat) (f : Flaw) : State :=
  s.plRun t op f (fun a p w s1 =>
    let tile := p.dst w
    let partQ4 := op == 0x1B && !plZ w && (List.range 256).any (fun j => p.governs w (2 * j) != p.governs w (2 * j + 1))
    let (old, s2) := if partQ4 then s1.getList a ((List.range 16).map (fun r => (p.rowVa w r, 16))) [] else (.ok [], s1)
    match old with
    | .error e => (.error e, s2)
    | .ok rows =>
      let pieces := (List.range 16).flatMap (fun r => byteRuns (p.rowVa w r) (storeRow op p w tile r (rows.getD r [])))
      match s2.putRows a pieces with
      | (some e, s3) => (.error e, s3)
      | (none, s3) =>
        let fl := (List.range 512).foldl (fun acc e => if p.governs w e then bitsOr 3 acc (storeBits op (p.el tile e)).2 else acc)
          (p.flags.getD tile 0)
        (.ok { p with flags := p.flags.set tile fl }, s3))

/-- ST.F32 (R328). -/
def execStF32 (t : Fin 8) (flaw : Flaw) (s : State) : Res := .next (s.plStore t.val 0x18 flaw)
/-- ST.BF16 (R328). -/
def execStBf16 (t : Fin 8) (flaw : Flaw) (s : State) : Res := .next (s.plStore t.val 0x19 flaw)
/-- ST.Q8 (R328). -/
def execStQ8 (t : Fin 8) (flaw : Flaw) (s : State) : Res := .next (s.plStore t.val 0x1A flaw)
/-- ST.Q4 (R328). -/
def execStQ4 (t : Fin 8) (flaw : Flaw) (s : State) : Res := .next (s.plStore t.val 0x1B flaw)
/-- ST.E4M3 (R328). -/
def execStE4m3 (t : Fin 8) (flaw : Flaw) (s : State) : Res := .next (s.plStore t.val 0x1C flaw)
/-- ST.E5M2 (R328). -/
def execStE5m2 (t : Fin 8) (flaw : Flaw) (s : State) : Res := .next (s.plStore t.val 0x1D flaw)

/-- Take the oldest tile of a run out of a queue. -/
def takeTile (id : Nat) : List Tile → Option (Tile × List Tile)
  | [] => none
  | x :: t => if x.run = id then some (x, t) else (takeTile id t).map (fun y => (y.1, x :: y.2))

/-- POP (R334): the oldest tile of the run in the queue; none fails the run with E_DEADLINE, a plan violation (R310). -/
def execPop (t : Fin 8) (flaw : Flaw) (s : State) : Res :=
  .next (s.plRun t.val 0x1F flaw (fun a p w s1 =>
    match takeTile a.run.id (SMap.get [] s1.tiles t.val) with
    | none => (.error .deadline,
        ((s1.bump F.AV_QUEUE_EMPTY_POPS t.val 1).count (devCnt 12) 1).countP a.run.owner 52 1)
    | some (x, q) =>
      (.ok (p.put w (p.dst w) (fun e => let v := x.elems.getD e 0; (v, nanFlag v))),
       { s1 with tiles := SMap.put [] s1.tiles t.val q })))

/-! ## FP32 arithmetic (R330, R331) -/

/-- FADD (R289). -/
def execFadd (t : Fin 8) (flaw : Flaw) (s : State) : Res := .next (s.plBin t.val 0x20 flaw fadd)
/-- FSUB (R289). -/
def execFsub (t : Fin 8) (flaw : Flaw) (s : State) : Res := .next (s.plBin t.val 0x21 flaw fsub)
/-- FMUL (R289). -/
def execFmul (t : Fin 8) (flaw : Flaw) (s : State) : Res := .next (s.plBin t.val 0x22 flaw fmul)
/-- FMA (R330): SA × B + DST with one rounding. -/
def execFma (t : Fin 8) (flaw : Flaw) (s : State) : Res :=
  .next (s.plReg t.val 0x23 flaw (fun p w => p.put w (p.dst w) (fun e =>
    let x := p.el (p.sa w) e; let y := p.b w e; let z := p.el (p.dst w) e
    let r := ffma x y z; (r, arithFlags r [x, y, z]))))
/-- FMAX (R330). -/
def execFmax (t : Fin 8) (flaw : Flaw) (s : State) : Res := .next (s.plBin t.val 0x24 flaw fmax)
/-- FMIN (R330). -/
def execFmin (t : Fin 8) (flaw : Flaw) (s : State) : Res := .next (s.plBin t.val 0x25 flaw fmin)

/-- The magnitude and the negation of a value. -/
def fabs (x : Nat) : Nat := toFp32 (match fp32 x with | .fin _ m e => .fin false m e | .inf _ => .inf false | v => v)
def fneg (x : Nat) : Nat := toFp32 (negFv (fp32 x))

/-- FABS (R328). -/
def execFabs (t : Fin 8) (flaw : Flaw) (s : State) : Res := .next (s.plUn t.val 0x26 flaw fabs)
/-- FNEG (R328). -/
def execFneg (t : Fin 8) (flaw : Flaw) (s : State) : Res := .next (s.plUn t.val 0x27 flaw fneg)
/-- FRCP (R331). -/
def execFrcp (t : Fin 8) (flaw : Flaw) (s : State) : Res := .next (s.plUn t.val 0x28 flaw frcp)
/-- FRSQ (R331). -/
def execFrsq (t : Fin 8) (flaw : Flaw) (s : State) : Res := .next (s.plUn t.val 0x29 flaw frsq)
/-- FEXP2 (R331). -/
def execFexp2 (t : Fin 8) (flaw : Flaw) (s : State) : Res := .next (s.plUn t.val 0x2A flaw fexp2)
/-- FLOG2 (R331). -/
def execFlog2 (t : Fin 8) (flaw : Flaw) (s : State) : Res := .next (s.plUn t.val 0x2B flaw flog2)
/-- FTANH (R331). -/
def execFtanh (t : Fin 8) (flaw : Flaw) (s : State) : Res := .next (s.plUn t.val 0x2C flaw ftanh)
/-- FSIGM (R331). -/
def execFsigm (t : Fin 8) (flaw : Flaw) (s : State) : Res := .next (s.plUn t.val 0x2D flaw fsigm)

/-! ## Comparisons and masks (R328) -/

/-- FCMP (R328): a NaN compares with nothing; condition 6 asks whether SA is a NaN. -/
def execFcmp (t : Fin 8) (flaw : Flaw) (s : State) : Res :=
  .next (s.plReg t.val 0x30 flaw (fun p w => p.putMask w (fun e =>
    let x := p.el (p.sa w) e; let y := p.b w e
    let cond := plArg w % 8
    if cond = 6 then isNan32 x else condBit cond (cmpFv (fp32 x) (fp32 y)) (!isNan32 x && !isNan32 y))))
/-- ICMP (R328). -/
def execIcmp (t : Fin 8) (flaw : Flaw) (s : State) : Res :=
  .next (s.plReg t.val 0x31 flaw (fun p w => p.putMask w (fun e =>
    condBit (plArg w % 8) (sext 32 (p.el (p.sa w) e) - sext 32 (p.b w e)) true)))

/-- A bit of the second mask operand. BMODE selects it as it does an element of a tile (R326); for BMODE 3 the spec
gives no bit of a scalar: a free value, the same on every run (R299; notes/assumptions/41.md). -/
def Pl.bMask (p : Pl) (w e : Nat) : Bool :=
  let m := p.mask (p.idx w (plIxb w) (plSbNum w))
  match plBmode w with
  | 0 => bitAt m e
  | 1 => bitAt m (e % 32)
  | 2 => bitAt m (32 * (e / 32))
  | _ => bitAt (Config.scalarMask (p.sc.getD (plSc w) 0)) e

/-- A bit of the first mask operand. -/
def Pl.aMask (p : Pl) (w e : Nat) : Bool := bitAt (p.mask (p.idx w (plIxa w) (plSaNum w))) e

/-- Mask logic on two masks. -/
def State.plMask (s : State) (t op : Nat) (g : Bool → Bool → Bool) : State :=
  s.plReg t op .none (fun p w => p.putMask w (fun e => g (p.aMask w e) (p.bMask w e)))

/-- MKAND (R328). -/
def execMkand (t : Fin 8) (s : State) : Res := .next (s.plMask t.val 0x38 (fun x y => x && y))
/-- MKOR (R328). -/
def execMkor (t : Fin 8) (s : State) : Res := .next (s.plMask t.val 0x39 (fun x y => x || y))
/-- MKNOT (R328). -/
def execMknot (t : Fin 8) (s : State) : Res :=
  .next (s.plReg t.val 0x3A .none (fun p w => p.putMask w (fun e => !p.aMask w e)))
/-- MKRANGE (R328): rows and columns within the bounds of ARG. -/
def execMkrange (t : Fin 8) (s : State) : Res :=
  .next (s.plReg t.val 0x3B .none (fun p w => p.putMask w (fun e =>
    let g := plArg w
    decide (bitsOf g 0 4 ≤ e / 32) && decide (e / 32 ≤ bitsOf g 4 4) && decide (bitsOf g 8 5 ≤ e % 32) &&
    decide (e % 32 ≤ bitsOf g 16 5))))
/-- SEL (R328): SA where MASK is 1, B elsewhere; every element is written. -/
def execSel (t : Fin 8) (flaw : Flaw) (s : State) : Res :=
  .next (s.plReg t.val 0x3C flaw (fun p w =>
    let all := w - 2 ^ 26 * plMask w
    p.put all (p.dst w) (fun e => let v := if p.governs w e then p.el (p.sa w) e else p.b w e; (v, nanFlag v))))
/-- MOV (R328). -/
def execMov (t : Fin 8) (flaw : Flaw) (s : State) : Res :=
  .next (s.plReg t.val 0x3D flaw (fun p w => p.put w (p.dst w) (fun e => (p.b w e, nanFlag (p.b w e)))))

/-! ## Integer arithmetic (R328) -/

/-- IADD (R328). -/
def execIadd (t : Fin 8) (flaw : Flaw) (s : State) : Res := .next (s.plInt t.val 0x40 flaw (fun x y => x + y))
/-- ISUB (R328). -/
def execIsub (t : Fin 8) (flaw : Flaw) (s : State) : Res := .next (s.plInt t.val 0x41 flaw (fun x y => x - y))
/-- IMUL (R328). -/
def execImul (t : Fin 8) (flaw : Flaw) (s : State) : Res := .next (s.plInt t.val 0x42 flaw (fun x y => x * y))
/-- IMAX (R328). -/
def execImax (t : Fin 8) (flaw : Flaw) (s : State) : Res := .next (s.plInt t.val 0x43 flaw max)
/-- IMIN (R328). -/
def execImin (t : Fin 8) (flaw : Flaw) (s : State) : Res := .next (s.plInt t.val 0x44 flaw min)
/-- ISHR (R328): SA shifted right arithmetically by ARG [4:0]. -/
def execIshr (t : Fin 8) (flaw : Flaw) (s : State) : Res :=
  .next (s.plReg t.val 0x45 flaw (fun p w => p.put w (p.dst w) (fun e =>
    (wrap32 (sext 32 (p.el (p.sa w) e) / 2 ^ (plArg w % 32)), 0))))

/-! ## Conversions (R290 to R292) -/

/-- CVTIF (R290). -/
def execCvtif (t : Fin 8) (flaw : Flaw) (s : State) : Res :=
  .next (s.plConv t.val 0x48 flaw (fun _ _ x => { bits := cvtif x }))
/-- CVTFI (R328). -/
def execCvtfi (t : Fin 8) (flaw : Flaw) (s : State) : Res := .next (s.plConv t.val 0x49 flaw (fun _ _ x => cvtfi x))
/-- QNT8 (R292): factor SC[SB]. -/
def execQnt8 (t : Fin 8) (flaw : Flaw) (s : State) : Res :=
  .next (s.plConv t.val 0x4A flaw (fun p w x => quantF x (p.sc.getD (plSc w) 0) 127))
/-- QNT4 (R292). -/
def execQnt4 (t : Fin 8) (flaw : Flaw) (s : State) : Res :=
  .next (s.plConv t.val 0x4C flaw (fun p w x => quantF x (p.sc.getD (plSc w) 0) 7))
/-- QNT8S (R292): shift ARG [7:0]. -/
def execQnt8s (t : Fin 8) (flaw : Flaw) (s : State) : Res :=
  .next (s.plConv t.val 0x4B flaw (fun _ w x => quantS x (sext 8 (plArg w)) 127))
/-- QNT4S (R292). -/
def execQnt4s (t : Fin 8) (flaw : Flaw) (s : State) : Res :=
  .next (s.plConv t.val 0x4D flaw (fun _ w x => quantS x (sext 8 (plArg w)) 7))
/-- FRBF (R291): narrow to BF16, widen back exactly. -/
def execFrbf (t : Fin 8) (flaw : Flaw) (s : State) : Res :=
  .next (s.plReg t.val 0x4E flaw (fun p w => p.put w (p.dst w) (fun e =>
    let c := toBf16 (fp32 (p.el (p.sa w) e))
    let r := toFp32 (bf16 c.bits)
    (r, convFlags c (isNan32 r)))))

/-! ## Reductions (R332) -/

/-- One level of a binary tree: adjacent pairs, with the flags so far. -/
def treeLevel (g : Nat → Nat → Nat) : List (Nat × Nat) → List (Nat × Nat)
  | x :: y :: t => let r := g x.1 y.1; (r, bitsOr 3 (bitsOr 3 x.2 y.2) (arithFlags r [x.1, y.1])) :: treeLevel g t
  | l => l

/-- Reduce 2^n elements in a binary tree: the result and the flags of its additions. -/
def treeFold (g : Nat → Nat → Nat) : Nat → List (Nat × Nat) → Nat × Nat
  | 0, l => l.headD (0, 0)
  | n + 1, l => treeFold g n (treeLevel g l)

/-- A reduction along rows or columns; the result goes to every element of the row or column. -/
def State.plTree (s : State) (t op : Nat) (f : Flaw) (rows : Bool) (g : Nat → Nat → Nat) : State :=
  s.plReg t op f (fun p w =>
    let tile := p.sa w
    let res := if rows then (List.range 16).map (fun r => treeFold g 5 ((List.range 32).map (fun c => (p.el tile (32 * r + c), 0))))
      else (List.range 32).map (fun c => treeFold g 4 ((List.range 16).map (fun r => (p.el tile (32 * r + c), 0))))
    p.put w (p.dst w) (fun e => res.getD (if rows then e / 32 else e % 32) (0, 0)))

/-- RSUM (R332). -/
def execRsum (t : Fin 8) (flaw : Flaw) (s : State) : Res := .next (s.plTree t.val 0x50 flaw true fadd)
/-- RMAX (R332). -/
def execRmax (t : Fin 8) (flaw : Flaw) (s : State) : Res := .next (s.plTree t.val 0x51 flaw true fmax)
/-- CSUM (R332). -/
def execCsum (t : Fin 8) (flaw : Flaw) (s : State) : Res := .next (s.plTree t.val 0x52 flaw false fadd)
/-- CMAX (R332). -/
def execCmax (t : Fin 8) (flaw : Flaw) (s : State) : Res := .next (s.plTree t.val 0x53 flaw false fmax)

end Sys2Proof.Machine
end

