-- ==== Sys2Proof/Machine/TarnRiddle.lean ====
section
/-! DEFINITION. The Tarn and the Riddle (spec/15_tarn_riddle.md, R339 to R358). A slab granule is a 4 KiB granule of the slab. -/

namespace Sys2Proof.Machine
open Sys2Proof

/-! ## Slabs (R339, R340, R343) -/

/-- The geometry of an owner's slabs, and the slab that a run names. -/
structure Slab where
  base : Nat
  layers : Nat
  kv : Nat
  cap : Nat
  region : Nat
  deriving DecidableEq, Repr

/-- The slab registers of an owner, as they stand. -/
def State.slabRegs (s : State) (o : Nat) : SlabRegs :=
  { va := s.rd F.TN_SLABS_VA_VA o, stride := s.rd F.TN_SLABS_STRIDE o, count := s.rd F.TN_SLABS_COUNT o
    layers := s.rd F.TN_GEOM_LAYERS o, kv := s.rd F.TN_GEOM_KV_DIM o, cap := s.rd F.TN_GEOM_CAP o }

/-- A Tarn step that starts reads the slab registers once (R342). -/
def State.slabStart (s : State) (r : Run) (i : Nat) (x : PStep) : State :=
  if x.eng = some .tarn then s.setData r.id { r.dataOf i with slab := some (s.slabRegs r.owner) } else s

/-- The slab of a run, by the registers that the step read; none when its number is at or above COUNT. -/
def State.slab (s : State) (a : Act) : Option Slab :=
  let g := (a.run.dataOf a.idx).slab.getD (s.slabRegs a.run.owner)
  let n := a.run.word 4
  if g.count ≤ n then none else
  some { base := g.va * 4096 + n * g.stride * 4096, layers := g.layers, kv := g.kv, cap := g.cap
         region := roundUp (g.cap * 4 * g.kv) 4096 }

/-- The address of slot i of region l. -/
def Slab.slot (b : Slab) (l i : Nat) : Nat := b.base + 4096 + l * b.region + i * (4 * b.kv)

/-- Bytes of a slab. -/
def Slab.size (b : Slab) : Nat := 4096 + b.layers * b.region

/-- The 4 KiB granules of byte ranges, each once. -/
def granulesOf (rs : List (Nat × Nat)) : List Nat :=
  (rs.flatMap (fun r => if r.2 = 0 then [] else
    (List.range ((r.1 + r.2 - 1) / 4096 - r.1 / 4096 + 1)).map (r.1 / 4096 + ·))).eraseDups

/-- The codes of the accesses to granules (R142, R223, R346), and the state with the records of failed translations. -/
def State.slabCodes (s : State) (a : Act) (cap : Nat) (write : Bool) (gs : List Nat) : List Err × State :=
  let mates := a.plan.mates a.lode a.step
  let f (x : List Err × List Nat × State) (g : Nat) : List Err × List Nat × State :=
    let (es, vs, t) := x
    match t.xlatePinned a.run.ctx (g * 4096) write with
    | .vault p => (match t.locate p with
      | none => (es ++ [.faultPinned], vs, t)
      | some (v, _) =>
        if !mates.any (fun y => y.books v) then (es ++ [.indexRange], v :: vs, t)
        else if t.retired v then (es ++ [.vaultRetired], v :: vs, t)
        else (es, v :: vs, t))
    | .mere _ => (es ++ [.indexRange], vs, t)
    | .host _ => (es ++ [.faultPinned], vs, t.xlFail a.who kBadTarget (g * 4096) write)
    | .fail k => (es ++ [.faultPinned], vs, t.xlFail a.who k (g * 4096) write)
  let (es, vs, t) := gs.foldl f ([], [], s)
  (es ++ (if vs.any (fun v => decide (cap < vs.count v)) then [Err.bagOverCap] else []), t)

/-- Read slab bytes as the Dredges do, page by page. `bad` names Hummock lines whose ECC is uncorrectable (R251). -/
def State.slabRead (s : State) (a : Act) (bad : List Nat) (va n : Nat) : Got × State :=
  (pagePieces (n / 4096 + 2) va n).foldl (fun x p =>
    match x with
    | (.fail e, t) => (.fail e, t)
    | (.bytes acc, t) =>
      match t.xlatePinned a.run.ctx p.1 false with
      | .vault q => (match t.dredge a.who a.run.owner bad q p.2 with
        | (.bytes b, u) => (.bytes (acc ++ b), u)
        | (.fail e, u) => (.fail e, u))
      | _ => (.fail .faultPinned, t)) (.bytes [], s)

/-- Write slab bytes. -/
def State.slabWrite (s : State) (a : Act) (va : Nat) (bs : List Byte) : Option Err × State :=
  s.writeVa a.run.ctx va bs true a.who

/-- A slab header (Table — Slab header). -/
structure SlabHdr where
  count : Nat
  head : Nat
  seq : Nat
  hot : Bool
  deriving DecidableEq, Repr

def slabHdr (b : List Byte) : SlabHdr := { count := numAt b 0 4, head := numAt b 4 4, seq := numAt b 8 8, hot := bitAt (numAt b 16 8) 0 }

/-- The header granule that the Tarn writes: its three words, and word 3, which is reserved (R349). -/
def SlabHdr.bytes (h : SlabHdr) : List Byte :=
  leBytes 4 h.count ++ leBytes 4 h.head ++ leBytes 8 h.seq ++ leBytes 8 (b2n h.hot) ++ leBytes 8 0

/-- The checks of a slab operation that need no header: the geometry that its descriptor names (R347). -/
def slabGeo (d : TarnDesc) (b : Slab) : List Err :=
  if d.layers ≠ b.layers ∨ d.kvDim ≠ b.kv ∨ b.cap < d.newEv then [Err.indexRange] else []

/-- Read a slab's header: none when it cannot be read or is corrupt, with the code (R343). -/
def State.slabHeader (s : State) (a : Act) (bad : List Nat) (b : Slab) : Option SlabHdr × List Err × State :=
  match s.slabRead a bad b.base 64 with
  | (.fail e, s1) => (none, [e], s1)
  | (.bytes bs, s1) =>
    let h := slabHdr bs
    if b.cap < h.count ∨ b.cap ≤ h.head then (none, [.indexRange], s1) else (some h, [], s1)

/-- What the checks of a slab operation find (R347): the slab and its header, with the granules that it accesses, or every
code. `ranges` names the byte ranges beside the header that the operation accesses, as far as the header gives them. -/
def State.slabOpen (s : State) (a : Act) (d : TarnDesc) (bad : List Nat) (ranges : Slab → Option SlabHdr → List (Nat × Nat)) :
    Except (List Err) (Slab × SlabHdr × List Nat) × State :=
  match s.slab a with
  | none => (.error [.indexRange], s)
  | some b =>
    let write := d.op == 1 || d.op == 3
    let (own, s1) := s.slabCodes a d.vaultCap write [b.base / 4096]
    let (h, es, s2) := if own.contains .indexRange || own.contains .faultPinned || own.contains .vaultRetired
      then (none, [], s1) else s1.slabHeader a bad b
    let gs := granulesOf ((b.base, 64) :: ranges b h)
    let (all, s3) := if gs = [b.base / 4096] then (own, s2) else s2.slabCodes a d.vaultCap write gs
    let codes := slabGeo d b ++ es ++ all
    match h with
    | some h => (if codes.isEmpty then .ok (b, h, gs) else .error codes, s3)
    | none => (.error codes, s3)

/-- Every failure of a slab operation is signalled at the step's planned end (R347). -/
def State.lateAll (s : State) (a : Act) (es : List Err) : State := es.foldl (fun t e => t.late a.run.id a.idx e) s

/-- Count the granules that a Tarn step handles. -/
def State.tarnItems (s : State) (a : Act) (n : Nat) : State :=
  (s.count (768 + 8 * (4 + (a.step.lane - 0x11C)) + 1) n).countP a.run.owner 102 n

/-- A slab operation: its checks, the granules it accesses, and what it does when no check fails. It writes nothing in its
first tick, in which a step on the other Tarn may still start and win a conflict (R347, R351). -/
def State.slabOp (s : State) (id i op : Nat) (f : Flaw) (bad : List Nat)
    (ranges : TarnDesc → Slab → Option SlabHdr → List (Nat × Nat))
    (go : Act → TarnDesc → Slab → SlabHdr → State → List Err × State) : State :=
  s.onStep id i .tarn (fun a => s.flawedLate a f (fun s0 => s0.withDescLate a (fun bs s1 =>
    let d := tarnDesc bs
    if d.op ≠ op ∨ ((op = 1 ∨ op = 3) ∧ s.tick ≤ a.start) then s else
    match s1.slabOpen a d bad (ranges d) with
    | (.error es, s2) => s2.lateAll a es
    | (.ok (b, h, gs), s2) =>
      (match go a d b h (s2.tarnItems a gs.length) with
      | ([], s3) => s3.workDone a
      | (es, s3) => s3.lateAll a es))))

/-! ## WINDOW_READ (R348) -/

/-- The slots of the window's events, oldest first. -/
def windowSlots (d : TarnDesc) (b : Slab) (h : SlabHdr) : List Nat :=
  let n := min d.win h.count
  (List.range n).map (fun j => (h.head + b.cap - n + j) % b.cap)

/-- BF16 element k of an entry. -/
def entEl (e : List Byte) (k : Nat) : List Byte := slice e (2 * k) 2

/-- One layer of the output: its key block and its value block in panel layout (R303). -/
def windowLayer (d : TarnDesc) (es : List (List Byte)) : List Byte :=
  let ev (j : Nat) : List Byte := es.getD j []
  ((List.range (d.win / 32)).flatMap (fun p => (List.range d.kvDim).flatMap (fun k =>
    (List.range 32).flatMap (fun c => entEl (ev (32 * p + c)) k)))) ++
  ((List.range (d.kvDim / 32)).flatMap (fun p => (List.range d.win).flatMap (fun j =>
    (List.range 32).flatMap (fun c => entEl (ev j) (d.kvDim + 32 * p + c)))))

/-- Read entries one by one, until one fails. -/
def State.slabList (s : State) (a : Act) (bad : List Nat) (n : Nat) :
    List Nat → List (List Byte) → Except Err (List (List Byte)) × State
  | [], acc => (.ok acc, s)
  | va :: t, acc =>
    match s.slabRead a bad va n with
    | (.fail e, s1) => (.error e, s1)
    | (.bytes b, s1) => s1.slabList a bad n t (acc ++ [b])

/-- Deliver layers in ascending order. -/
def State.windowLayers (s : State) (a : Act) (bad : List Nat) (d : TarnDesc) (b : Slab) (slots : List Nat) :
    List Nat → List Err × State
  | [] => ([], s)
  | l :: t =>
    match s.slabList a bad (4 * b.kv) (slots.map (fun i => b.slot l i)) [] with
    | (.error e, s1) => ([e], s1)
    | (.ok es, s1) =>
      match s1.put a (d.out + a.off + 64 + l * 4 * d.win * d.kvDim) (windowLayer d es) with
      | (some e, s2) => ([e], s2)
      | (none, s2) => s2.windowLayers a bad d b slots t

/-- WINDOW_READ (R348). -/
def execWindowRead (run step : Nat) (flaw : Flaw) (badLines : List Nat) (s : State) : Res :=
  .next (s.slabOp run step 0 flaw badLines
    (fun d b h => (List.range b.layers).flatMap (fun l => (h.elim [] (windowSlots d b)).map (fun i => (b.slot l i, 4 * b.kv))))
    (fun a d b h s1 =>
      let slots := windowSlots d b h
      match s1.put a (d.out + a.off) (leBytes 4 slots.length ++ leBytes 4 0 ++ leBytes 8 h.seq ++ leBytes 48 0) with
      | (some e, s2) => ([e], s2)
      | (none, s2) => s2.windowLayers a badLines d b slots (List.range b.layers)))

/-! ## APPEND_HISTORY and EVICT (R349) -/

/-- The slots that the new events take. -/
def newSlots (d : TarnDesc) (b : Slab) (h : SlabHdr) : List Nat := (List.range d.newEv).map (fun e => (h.head + e) % b.cap)

/-- Write slab pieces in order, until one fails. -/
def State.slabRows (s : State) (a : Act) : List (Nat × List Byte) → Option Err × State
  | [] => (none, s)
  | (va, bs) :: t =>
    match s.slabWrite a va bs with
    | (some e, s1) => (some e, s1)
    | (none, s1) => s1.slabRows a t

/-- APPEND_HISTORY (R349): the entries, then the header. -/
def execAppendHistory (run step : Nat) (flaw : Flaw) (badLines : List Nat) (s : State) : Res :=
  .next (s.slabOp run step 1 flaw badLines
    (fun d b h => (List.range b.layers).flatMap (fun l => (h.elim [] (newSlots d b)).map (fun i => (b.slot l i, 4 * b.kv))))
    (fun a d b h s1 =>
      let n := 4 * b.kv
      match s1.get a (d.src + a.off) (d.newEv * b.layers * n) with
      | (.fail e, s2) => ([e], s2)
      | (.bytes src, s2) =>
        let rows := ((newSlots d b h).zipIdx).flatMap (fun x => (List.range b.layers).map (fun l =>
          (b.slot l x.1, slice src ((x.2 * b.layers + l) * n) n)))
        let h' : SlabHdr := { h with head := (h.head + d.newEv) % b.cap, count := min (h.count + d.newEv) b.cap
                                     seq := h.seq + d.newEv }
        match s2.slabRows a (rows ++ [(b.base, h'.bytes)]) with
        | (some e, s3) => ([e], s3)
        | (none, s3) => ([], s3)))

/-- The lines of a slab, as its pages translate. -/
def State.slabLines (s : State) (a : Act) (b : Slab) : List Nat :=
  (List.range (b.size / 4096)).flatMap (fun i =>
    match s.xlatePinned a.run.ctx (b.base + 4096 * i) false with
    | .vault p => (List.range 32).map (p / 128 + ·)
    | _ => [])

/-- Release the pins of a slab's lines and write its header. -/
def State.slabUnpin (s : State) (a : Act) (b : Slab) (h : SlabHdr) : List Err × State :=
  let ls := s.slabLines a b
  let s1 := if a.run.owner = 16 then s else s.unpin a.run.owner (fun l => ls.contains l)
  match s1.slabWrite a b.base h.bytes with
  | (some e, s2) => ([e], s2)
  | (none, s2) => ([], s2)

/-- EVICT (Table — Tarn operations). -/
def execEvict (run step : Nat) (flaw : Flaw) (badLines : List Nat) (s : State) : Res :=
  .next (s.slabOp run step 3 flaw badLines (fun _ _ _ => [])
    (fun a _ b h s1 => s1.slabUnpin a b { h with count := 0, head := 0, hot := false }))

/-! ## PIN and UNPIN -/

/-- Pin one line of a slab: whether it is pinned, a failure of its granules, the state. The line is read as every slab
granule is, with its lookup (R346). A line whose set holds only pinned ways stays unpinned and counts in PIN_FULL. -/
def State.slabPinLine (s : State) (a : Act) (bad : List Nat) (p line : Nat) : Bool × Option Err × State :=
  let t := s.towerOf (line * 128)
  match s.dredge a.who p bad (line * 128) 128 with
  | (.fail e, s1) => (false, some e, s1)
  | (.bytes _, s1) =>
    match s1.hFind p t line with
    | some w => (match s1.hLine (hKey t line w) with
      | some h => (true, none, if h.pinned then s1 else (s1.install p t line w true).countP p 69 1)
      | none => (true, none, s1))
    | none =>
      match s1.victim p t line with
      | none => (false, none, s1.bump F.TN_STATUS_PIN_FULL p 1)
      | some w => (true, none, (s1.install p t line w true).countP p 69 1)

/-- PIN (Table — Tarn operations): every line of the slab; HOT is 1 when every line is pinned. -/
def execTarnPin (run step : Nat) (flaw : Flaw) (badLines : List Nat) (s : State) : Res :=
  .next (s.slabOp run step 4 flaw badLines (fun _ b _ => [(b.base, b.size)])
    (fun a _ b h s1 =>
      let p := a.run.owner
      let (ok, err, s2) := (s1.slabLines a b).foldl (fun x l =>
        match x.2.1 with
        | some _ => x
        | none => let (o, e, t) := x.2.2.slabPinLine a badLines p l; (x.1 && o, e, t)) (true, none, s1)
      match err with
      | some e => ([e], s2)
      | none =>
        match s2.slabWrite a b.base { h with hot := ok }.bytes with
        | (some e, s3) => ([e], s3)
        | (none, s3) => ([], s3)))

/-- UNPIN (Table — Tarn operations). -/
def execTarnUnpin (run step : Nat) (flaw : Flaw) (badLines : List Nat) (s : State) : Res :=
  .next (s.slabOp run step 5 flaw badLines (fun _ _ _ => []) (fun a _ b h s1 => s1.slabUnpin a b { h with hot := false }))

/-! ## APPEND_BEAM (R350) -/

/-- Offsets in a beam area of a token and of an entry. -/
def TarnDesc.tokAt (d : TarnDesc) (b j : Nat) : Nat := (b * d.pcap + j) * 2
def TarnDesc.entAt (d : TarnDesc) (l b j : Nat) : Nat := d.tk + ((l * d.beams + b) * d.pcap + j) * (4 * d.kvDim)

/-- The copies that give new beam b the state of beam `parent`: source address, bytes, destination address. The tokens
and the entries of the positions before POS come from the source area, and the new position's entries from NEW_VA. -/
def TarnDesc.copies (d : TarnDesc) (off b parent : Nat) : List (Nat × Nat × Nat) :=
  let e := 4 * d.kvDim
  (if d.pos = 0 then [] else [(d.src + off + d.tokAt parent 0, 2 * d.pos, d.out + off + d.tokAt b 0)]) ++
  (List.range d.layers).flatMap (fun l =>
    (if d.pos = 0 then [] else [(d.src + off + d.entAt l parent 0, d.pos * e, d.out + off + d.entAt l b 0)]) ++
    [(d.new + off + (l * d.beams + parent) * e, e, d.out + off + d.entAt l b d.pos)])

/-- APPEND_BEAM (R350): it reads only what it copies. -/
def State.appendBeam (s : State) (id i : Nat) (f : Flaw) : State :=
  s.onStep id i .tarn (fun a => s.flawed a f (fun s0 => s0.withDesc a (fun bs s1 =>
    let d := tarnDesc bs
    if d.op ≠ 2 then s else
    match s1.get a (d.sel + a.off) (8 * d.beams) with
    | (.fail e, s2) => s2.failRun id e
    | (.bytes sel, s2) =>
      let recs := (List.range d.beams).map (fun b => (b, numAt sel (8 * b + 4) 2, numAt sel (8 * b + 6) 2))
      if recs.any (fun r => decide (d.beams ≤ r.2.1)) then s2.late id i .indexRange else
      let cs := recs.flatMap (fun r => d.copies a.off r.1 r.2.1)
      let toks := recs.map (fun r => (d.out + a.off + d.tokAt r.1 d.pos, leBytes 2 r.2.2))
      match s2.getList a (cs.map (fun c => (c.1, c.2.1))) [] with
      | (.error e, s3) => s3.failRun id e
      | (.ok bss, s3) =>
        match s3.putRows a (List.zipWith (fun c b => (c.2.2, b)) cs bss ++ toks) with
        | (some e, s4) => s4.failRun id e
        | (none, s4) => s4.workDone a)))

/-- APPEND_BEAM (R350). -/
def execAppendBeam (run step : Nat) (flaw : Flaw) (s : State) : Res := .next (s.appendBeam run step flaw)

/-! ## Riddle (R355 to R358) -/

/-- Does candidate x rank before candidate y (R355)? Score and index. -/
def ranksBefore (x y : Nat × Nat) : Bool :=
  match isNan32 x.1, isNan32 y.1 with
  | true, true => decide (x.2 < y.2)
  | true, false => false
  | false, true => true
  | false, false =>
    let c := cmpFv (fp32 x.1) (fp32 y.1)
    decide (0 < c) || (decide (c = 0) && decide (x.2 < y.2))

/-- Insert a candidate into a ranked list. -/
def rankIn (x : Nat × Nat) : List (Nat × Nat) → List (Nat × Nat)
  | [] => [x]
  | y :: t => if ranksBefore x y then x :: y :: t else y :: rankIn x t

/-- The first K candidates in rank order. -/
def topK (k : Nat) (cs : List (Nat × Nat)) : List (Nat × Nat) := cs.foldl (fun acc x => (rankIn x acc).take k) []

/-- A score, widened to FP32. -/
def RidDesc.score (r : RidDesc) (row : List Byte) (v : Nat) : Nat :=
  if r.bf16 then toFp32 (Machine.bf16 (numAt row (2 * v) 2)) else canon32 (numAt row (4 * v) 4)

/-- The scores of all candidates in index order, from the score rows and the priors (R356). -/
def RidDesc.scores (r : RidDesc) (rows : List (List Byte)) (prior : List Byte) : List Nat :=
  if !r.beam then (List.range r.n).map (r.score (rows.getD 0 [])) else
  (List.range r.beams).flatMap (fun b =>
    let p := match r.prior with
      | 0 => 0
      | 1 => if b = 0 then 0 else inf32 true
      | _ => numAt prior (8 * b) 4
    (List.range r.n).map (fun v => fadd p (r.score (rows.getD b []) v)))

/-- One output record (R357): with REC 1, the ID at its INDEX comes first. -/
def RidDesc.record (r : RidDesc) (x : Nat × Nat) (ident : List Byte) : List Byte :=
  if r.beam then leBytes 4 x.1 ++ leBytes 2 (x.2 / r.n) ++ leBytes 2 (x.2 % r.n)
  else if r.withId then ident ++ leBytes 4 x.1
  else leBytes 4 x.1 ++ leBytes 4 x.2

/-- The work of a Riddle step: read, rank, write. A failed read, of the descriptor or of data, is signalled at the step's
planned end (R358). -/
def State.riddle (s : State) (id i : Nat) (beam : Bool) (f : Flaw) : State :=
  s.onStep id i .riddle (fun a => s.flawed a f (fun s0 => s0.withDescLate a (fun bs s1 =>
    let r := ridDesc bs
    if r.beam ≠ beam then s else
    let rows := if r.beam then (List.range r.beams).map (fun b => (r.inVa + a.off + b * r.inStride, r.n * r.eb))
      else [(r.inVa + a.off, r.n * r.eb)]
    match s1.getList a ((r.priorVa + a.off, if r.prior = 2 then 8 * r.beams else 0) :: rows) [] with
    | (.error e, s2) => s2.late id i e
    | (.ok rs, s2) =>
      let sc := r.scores rs.tail (rs.headD [])
      let best := topK r.k sc.zipIdx
      match s2.getList a (if r.withId then best.map (fun x => (r.idVa + a.off + 8 * x.2, 8)) else []) [] with
      | (.error e, s3) => s3.late id i e
      | (.ok ids, s3) =>
        match s3.put a (r.out + a.off) ((best.zipIdx).flatMap (fun x => r.record x.1 (ids.getD x.2 []))) with
        | (some e, s4) => s4.late id i e
        | (none, s4) =>
          let u := a.step.lane - 0x11A
          (((s4.bump F.RD_STATUS_NAN_SCORES u (sc.countP isNan32)).count (768 + 8 * (2 + u) + 1) r.c).countP
            a.run.owner 101 r.c).workDone a)))

/-- RIDDLE_TOPK (R355). -/
def execRiddleTopk (run step : Nat) (flaw : Flaw) (s : State) : Res := .next (s.riddle run step false flaw)
/-- RIDDLE_BEAM (R356). -/
def execRiddleBeam (run step : Nat) (flaw : Flaw) (s : State) : Res := .next (s.riddle run step true flaw)

end Sys2Proof.Machine
end

