-- ==== Sys2Proof/Machine/Causeway.lean ====
section
/-! DEFINITION. The ports of the Causeway fabric: link states, authentication, flits, encryption, retry, credits, quarantine
and transit (spec/16_causeway.md, R359 to R374, R387 to R389). What the physical layer sees, and what an SPDM session ends
with, arrives with a command (notes/assumptions/42.md). -/

namespace Sys2Proof.Machine
open Sys2Proof

/-! ## Port states (R365) -/

/-- The values of `CW_STATE.STATE`. -/
def cwDown : Nat := 0
def cwSeek : Nat := 1
def cwTrain : Nat := 2
def cwAuth : Nat := 3
def cwKeyed : Nat := 4
def cwUp : Nat := 5
def cwQuar : Nat := 6

/-- A port at reset. -/
def port0 : Port :=
  { txSn := 0, rxSn := 0, retry := [], credits := [0, 0, 0, 0], held := [0, 0, 0, 0], txKey := [], txSalt := [], rxKey := []
    rxSalt := [], keyFlits := 0, peerDomain := 0, peerPort := 0, anchors := [], mgmt := [], nakOut := false, nakSeq := 0
    nakRun := 0, since := 0, keepNs := 0, keepSent := 0, retrains := [], hostile := [], lateSec := 0, lateBase := 0
    parts := [], mid := [] }

def State.port (s : State) (n : Nat) : Port := (SMap.get none s.ports n).getD port0

def State.setPort (s : State) (n : Nat) (p : Port) : State :=
  { s with ports := SMap.put none s.ports n (if p = port0 then none else some p) }

def State.modPort (s : State) (n : Nat) (f : Port → Port) : State := s.setPort n (f (s.port n))

/-- The state of a port. -/
def State.cwSt (s : State) (n : Nat) : Nat := s.rd F.CW_STATE_STATE n

/-- The counters of a port (Table — Device counters). -/
def portCnt (n j : Nat) : Nat := 944 + 16 * n + j

/-- `JCT_PORT_EN.EFF` of a port: owner AND MGC AND NOT quarantined (R31). -/
def State.portEff (s : State) (n : Nat) : Bool :=
  bitAt (s.rd F.JCT_PORT_EN_HOST_EN 0) n && bitAt (s.rd F.JCT_PORT_EN_MGC_EN 0) n && !bitAt (s.rd F.JCT_PORT_EN_QUAR 0) n

/-- Is the port usable in `CW_ID.PORT_MAP`? -/
def State.portUsable (s : State) (n : Nat) : Bool := decide (n < 12) && bitAt (s.rd F.CW_ID_PORT_MAP 0) n

/-- Every request outstanding on a port that leaves UP ends with E_PEER_ABSENT (R37, R385). -/
def State.losePeers (s : State) (n : Nat) : State :=
  { s with requests := s.requests.map (fun q =>
      if q.port = n ∧ q.open_ = true then { q with open_ := false, err := some .peerAbsent } else q) }

/-- This device's ID. -/
def State.devId (s : State) : Nat := s.rd F.CW_ID_DEV_ID 0

/-- Move a port to a state. A port that leaves UP loses its requests; one that enters TRAIN sends its HELLO (R366). -/
def State.cwMove (s : State) (n st : Nat) : State :=
  let s1 := if s.cwSt n = cwUp ∧ st ≠ cwUp then s.losePeers n else s
  let s2 := if st = cwTrain then s1.emit (.hello n false s.devId (s.rd F.CW_ID_DOMAIN 0) n) else s1
  (s2.wr F.CW_STATE_STATE n st).modPort n (fun p => { p with since := s.ns })

/-- Keys, retry buffer and credits are discarded, with the messages that have not arrived or left whole. -/
def State.cwDiscard (s : State) (n : Nat) : State :=
  s.modPort n (fun p => { p with retry := [], credits := [0, 0, 0, 0], held := [0, 0, 0, 0], txKey := [], txSalt := []
                                 rxKey := [], rxSalt := [], keyFlits := 0, txSn := 0, rxSn := 0, mgmt := [], nakOut := false
                                 nakSeq := 0, nakRun := 0, parts := [], mid := [] })

/-- The port goes to DOWN, unless it is quarantined (Table — Link states). -/
def State.cwDownPort (s : State) (n : Nat) : State :=
  if s.cwSt n = cwQuar then s else ((s.cwMove n cwDown).cwDiscard n)

/-! ## Quarantine and retrains (R367, R388, R389) -/

/-- The quarantine causes. -/
def qcAuth : Nat := 1
def qcFault : Nat := 2
def qcHostile : Nat := 3

/-- The third quarantine with cause FAULT within 24 h is the replace cause PORTS (Table — Replace causes). -/
def State.faultQuarantine (s : State) : State :=
  let s1 : State := { s with faultQuar := s.ns :: s.faultQuar }
  if 3 ≤ s1.faultPorts then s1.setCause .ports else s1

/-- Quarantine a port (R389). -/
def State.quarantine (s : State) (n cause : Nat) : State :=
  if s.cwSt n = cwQuar then s else
  let s1 := ((s.cwMove n cwQuar).cwDiscard n).wr F.CW_STATE_QCAUSE n cause
  let s2 := (s1.wr F.JCT_PORT_EN_QUAR 0 (setBit (s1.rd F.JCT_PORT_EN_QUAR 0) n)).raise 16 evPortQuarantined
    (n + cause * 2 ^ 8) 0
  if cause = qcFault then s2.faultQuarantine else s2

/-- How many of these times lie within the last 10 s on `DEV_NS`. -/
def State.within10s (s : State) (ts : List Nat) : Nat := (ts.filter (fun t => decide (s.ns < t + 10000000000))).length

/-- Count a retrain; four within any 10 s quarantine the port with cause FAULT (R367). -/
def State.countRetrain (s : State) (n : Nat) : State :=
  if s.cwSt n = cwQuar then s else
  let s1 := ((s.bump F.CW_CNT_LINK_RETRAINS n 1).count (portCnt n 11) 1).modPort n
    (fun p => { p with retrains := s.ns :: p.retrains })
  if 4 ≤ s1.within10s (s1.port n).retrains then s1.quarantine n qcFault else s1

/-- A retrain cause: an UP port goes to TRAIN and its keys are discarded; the retrain is counted. -/
def State.retrain (s : State) (n : Nat) : State :=
  let s1 := if s.cwSt n = cwUp then ((s.cwMove n cwTrain).cwDiscard n) else s
  s1.countRetrain n

/-- Count a hostile flit or message of a port; HOSTILE_LIMIT of them within any 10 s quarantine it (R388). -/
def State.hostile (s : State) (n : Nat) (f : Fld) : State :=
  if s.cwSt n = cwQuar then s else
  let s1 := ((s.bump f n 1).count (portCnt n 10) 1).modPort n (fun p => { p with hostile := s.ns :: p.hostile })
  if s1.rd F.CW_POLICY_HOSTILE_LIMIT n ≤ s1.within10s (s1.port n).hostile then s1.quarantine n qcHostile else s1

/-- Do something with a port in one of the given states. -/
def State.inPort (s : State) (n : Nat) (sts : List Nat) (f : State) : State := if sts.contains (s.cwSt n) then f else s

/-- LINK_ENABLE (R365). -/
def execLinkEnable (port : Fin 12) (s : State) : Res :=
  .next (if s.cwSt port = cwDown ∧ s.portEff port = true ∧ s.portUsable port = true then s.cwMove port cwSeek else s)
/-- SIGNAL_DETECT (R365). -/
def execSignalDetect (port : Fin 12) (s : State) : Res := .next (s.inPort port [cwSeek] (s.cwMove port cwTrain))
/-- SEEK_RETRY: detection is tried again every 1 s, and nothing is counted (R365). -/
def execSeekRetry (port : Fin 12) (s : State) : Res :=
  .next (if s.cwSt port = cwSeek ∧ (s.port port).since + 1000000000 ≤ s.ns then s.cwMove port cwSeek else s)
/-- TRAIN_TIMEOUT: 500 ms in TRAIN (R365, R367). -/
def execTrainTimeout (port : Fin 12) (s : State) : Res :=
  .next (if s.cwSt port = cwTrain ∧ (s.port port).since + 500000000 ≤ s.ns then
    ((s.cwMove port cwSeek).bump F.CW_CNT_LINK_TRAIN_TIMEOUTS port 1).countRetrain port else s)
/-- AUTH_TIMEOUT: 200 ms since AUTH was entered (R365, R367). -/
def execAuthTimeout (port : Fin 12) (s : State) : Res :=
  .next (if (s.cwSt port = cwAuth ∨ s.cwSt port = cwKeyed) ∧ (s.port port).since + 200000000 ≤ s.ns then
    (((s.cwMove port cwSeek).cwDiscard port).countRetrain port) else s)
/-- An authentication fails (R369, R389). -/
def State.authFail (s : State) (n : Nat) : State :=
  s.inPort n [cwAuth] ((s.bumpSat F.CW_CNT_HOSTILE_AUTH_FAIL n 0 1).quarantine n qcAuth)

/-- The anchors of a trust record (Table — Trust record). -/
def trustAnchors (r : List Byte) : List (List Byte) := (List.range (numAt r 4 2)).map (fun i => slice r (0x10 + 48 * i) 48)

/-- Does none of the conditions of R369 hold for what a session ended with? -/
def State.authentic (s : State) (n : Nat) (x : Session) : Bool :=
  let p := s.port n
  let peer := s.rd F.CW_STATE_PEER n
  p.anchors.contains x.anchor && x.signed && x.leaf.toNat == peer && peer != s.devId &&
  p.peerDomain == s.rd F.CW_ID_DOMAIN 0 && !x.error

/-- The keys are installed and SN is 0 in each direction (R362, R365). The time of entry to AUTH stays. -/
def State.keyed (s : State) (n : Nat) (x : Session) : State :=
  (s.wr F.CW_STATE_STATE n cwKeyed).modPort n (fun p =>
    { p with txSn := 0, rxSn := 0, retry := [], keyFlits := 0, nakOut := false, nakRun := 0
             txKey := x.txKey, txSalt := x.txSalt, rxKey := x.rxKey, rxSalt := x.rxSalt })

/-- SPDM_SESSION_ESTABLISHED (R365, R368): a session that some condition of R369 holds for fails its authentication. -/
def execSpdmSessionEstablished (port : Fin 12) (x : Session) (s : State) : Res :=
  .next (s.inPort port [cwAuth] (if s.authentic port x then s.keyed port x else s.authFail port))
/-- AUTH_FAILURE (R369, R389): some condition of R369 holds for what the session ended with. -/
def execAuthFailure (port : Fin 12) (x : Session) (s : State) : Res :=
  .next (if s.authentic port x then s else s.authFail port)

/-- KEYED to UP. -/
def State.linkUp (s : State) (n : Nat) : State :=
  s.inPort n [cwKeyed] (((s.cwMove n cwUp).bump F.CW_STATE_UPS n 1).modPort n (fun p => { p with keepNs := s.ns, keepSent := s.ns }))

/-! ## Flits (R361, R362) -/

/-- The kinds of control flits. -/
def kindIdle : Nat := 0
def kindAck : Nat := 1
def kindNak : Nat := 2
def kindCredit : Nat := 3

/-- A flit of a header, a body of 228 bytes and a tag: the CRC-32C over bytes 0 to 251 stands last (R361). -/
def flitOf (hdr : Nat) (body tag : List Byte) : List Byte :=
  let m := leBytes 8 hdr ++ body ++ tag
  m ++ leBytes 4 (crc32c m)

/-- The header, body and tag of a flit. -/
def flitHdr (b : List Byte) : Nat := numAt b 0 8
def flitBody (b : List Byte) : List Byte := slice b 8 228
def flitTag (b : List Byte) : List Byte := slice b 236 16

/-- Is the flit whole, with the CRC of its bytes 0 to 251? -/
def flitCrcOk (b : List Byte) : Bool := b.length == 256 && crc32c (slice b 0 252) == numAt b 252 4

/-- The header of a data flit (Table — Flit header). -/
def dataHdr (vc : Nat) (last : Bool) (dst src seq len : Nat) : Nat :=
  vc + b2n last * 2 ^ 3 + dst * 2 ^ 4 + src * 2 ^ 12 + seq * 2 ^ 20 + len * 2 ^ 32

/-- A header of a data flit with no illegal value and no reserved bit set (Table — Flit header). -/
def dataHdrOk (h : Nat) : Bool :=
  !bitAt h 2 && decide (1 ≤ bitsOf h 32 8) && decide (bitsOf h 32 8 ≤ 228) && bitsOf h 40 24 == 0

/-- A control flit: its tag bytes are 0, and its body bytes are not stated. -/
def ctrlFlit (kind low : Nat) : List Byte :=
  let h := 2 ^ 2 + kind * 2 ^ 4 + low
  flitOf h (leBytes 228 (Config.flitPad (leBytes 8 h))) (List.replicate 16 0)

/-- A header of a control flit of the kind, with no reserved bit set. -/
def ctrlHdrOk (kind h : Nat) : Bool :=
  bitAt h 2 && bitsOf h 0 2 == 0 && !bitAt h 3 && bitsOf h 4 4 == kind && (bitsOf h 30 34 == 0) && bitsOf h 8 4 == 0

/-- The SEQ point of an ACK or NAK: bits [19:8] of the header. -/
def seqPoint (h : Nat) : Nat := bitsOf h 8 12

/-- A control header whose bits [19:8] are a SEQ point. -/
def ctrlSeqOk (kind h : Nat) : Bool := ctrlHdrOk kind (h - seqPoint h * 2 ^ 8) && bitsOf h 20 10 == 0

/-- A control flit whose CRC and tag bytes are right. -/
def ctrlOk (b : List Byte) : Bool := flitCrcOk b && flitTag b == List.replicate 16 0

/-- The body and the tag as they are sent: encrypted from KEYED onward, with the header as additional data and the salt and
SN as IV; before that in clear (R362; notes/assumptions/119.md). -/
def Port.seal (p : Port) (hdr sn : Nat) (body : List Byte) : List Byte × List Byte :=
  if p.txKey.isEmpty then (body, List.replicate 16 0)
  else gcmSeal p.txKey (p.txSalt ++ leBytes 8 sn) (leBytes 8 hdr) body

/-- The body of a received data flit whose sequence number is `sn`; none when its tag does not verify. -/
def Port.unseal (p : Port) (b : List Byte) (sn : Nat) : Option (List Byte) :=
  if p.rxKey.isEmpty then (if flitTag b = List.replicate 16 0 then some (flitBody b) else none)
  else gcmOpen p.rxKey (p.rxSalt ++ leBytes 8 sn) (slice b 0 8) (flitBody b) (flitTag b)

/-! ## Sending (R363, R364) -/

/-- Send a NAK that names the expected SEQ. -/
def State.sendNak (s : State) (n : Nat) : State :=
  if s.cwSt n = cwQuar then s else
  (((s.emit (.flit n (ctrlFlit kindNak ((s.port n).rxSn % 4096 * 2 ^ 8)))).bump F.CW_CNT_LINK_NAKS n 1).count
    (portCnt n 3) 1).modPort n (fun p => { p with nakOut := true })

/-- Is the device in STANDBY, where its ports carry keep-alives only and it answers no request (R390, R398)? -/
def State.asleep (s : State) : Bool := s.rd F.PWR_STATUS_STATE 0 == 2

/-- May the port send a data flit on a virtual channel now (R363, R364, R370, R390)? Before UP only MGMT flows. -/
def State.canSend (s : State) (n vc : Nat) : Bool :=
  let p := s.port n
  (if vc = 3 then [cwAuth, cwKeyed, cwUp].contains (s.cwSt n) else s.cwSt n == cwUp && !s.asleep) &&
  decide (0 < p.credits.getD vc 0) && decide (p.retry.length < 256) && decide (p.keyFlits < 2 ^ 48)

/-- Send a data flit: it takes the next SN and a credit, and its bytes stay in the retry buffer. -/
def State.sendFlit (s : State) (n vc : Nat) (last : Bool) (dst src : Nat) (body : List Byte) : State :=
  let p := s.port n
  let h := dataHdr vc last dst src (p.txSn % 4096) body.length
  let whole := body ++ leBytes (228 - body.length) (Config.flitPad (leBytes 8 h ++ body))
  let (c, tag) := p.seal h p.txSn whole
  let bytes := flitOf h c tag
  ((s.emit (.flit n bytes)).count (portCnt n 0) 1).setPort n
    { p with txSn := p.txSn + 1, keyFlits := p.keyFlits + 1, retry := p.retry ++ [{ sn := p.txSn, bytes := bytes }]
             credits := p.credits.mapIdx (fun i c => if i = vc then c - 1 else c) }

/-- The flits of a message. -/
def msgFlits (body : List Byte) : Nat := max 1 (ceilDiv body.length 228)

/-- A message cut into bodies of flits, with LAST. -/
def msgBodies (b : List Byte) : List (Bool × List Byte) :=
  (List.range (msgFlits b)).map (fun i => (decide (i + 1 = msgFlits b), (b.drop (228 * i)).take 228))

/-- Send MGMT flits that wait, while the port may. -/
def State.pump (n : Nat) : Nat → State → State
  | 0, s => s
  | fuel + 1, s =>
    match (s.port n).mgmt with
    | [] => s
    | (last, b) :: rest =>
      if s.canSend n 3 = false then s else
      State.pump n fuel ((s.modPort n (fun p => { p with mgmt := rest })).sendFlit n 3 last (s.rd F.CW_STATE_PEER n) s.devId b)

/-- Send a message on MGMT. -/
def State.say (s : State) (n : Nat) (b : List Byte) : State :=
  let s1 := s.modPort n (fun p => { p with mgmt := p.mgmt ++ msgBodies b })
  State.pump n (s1.port n).mgmt.length s1

/-! ## SPDM over MGMT (R368) -/

/-- The codes of the requests that R368 lists: GET_VERSION, GET_CAPABILITIES, NEGOTIATE_ALGORITHMS, GET_DIGESTS,
GET_CERTIFICATE, KEY_EXCHANGE, FINISH, KEY_UPDATE, HEARTBEAT, END_SESSION (notes/assumptions/119.md). -/
def spdmRequests : List Nat := [0x84, 0xE1, 0xE3, 0x81, 0x82, 0xE4, 0xE5, 0xE9, 0xE8, 0xEC]

/-- Is the code that of an answer to one of them? -/
def spdmAnswer (code : Nat) : Bool := (spdmRequests.map (· % 128)).contains code

/-- The request that follows an answer while a session is made; none once FINISH is answered. -/
def spdmNext (answer : Nat) : Option Nat :=
  match ([0x84, 0xE1, 0xE3, 0x81, 0x82, 0xE4, 0xE5] : List Nat).findIdx? (fun c => c % 128 == answer) with
  | some i => ([0xE1, 0xE3, 0x81, 0x82, 0xE4, 0xE5] : List Nat)[i]?
  | none => none

/-- An SPDM message of a code: the code is its second byte. -/
def spdmMsg (code : Nat) (prev : List Byte) : List Byte :=
  let t := Config.spdmText code prev
  t.headD 0 :: BitVec.ofNat 8 code :: t.tail

/-- The side with the lower device ID is the requester. -/
def State.requester (s : State) (n : Nat) : Bool := decide (s.devId < s.rd F.CW_STATE_PEER n)

/-- An SPDM message arrives. In AUTH a requester goes on after an answer and a responder answers a request; every other
message is an error of the authentication. Later a responder answers the requests it supports. -/
def State.spdmIn (s : State) (n : Nat) (b : List Byte) : State :=
  let code := numAt b 1 1
  if s.requester n then
    if s.cwSt n ≠ cwAuth then s
    else if spdmAnswer code then (match spdmNext code with | some c => s.say n (spdmMsg c b) | none => s)
    else s.authFail n
  else if spdmRequests.contains code then s.say n (spdmMsg (code % 128) b)
  else s.authFail n

/-- The bytes of a keep-alive. -/
def keepAliveMsg : List Byte := (List.range (Config.keepAliveLen.val + 1)).map Config.keepAliveByte

/-! ## TRAIN and its HELLO (R366) -/

/-- A HELLO arrives: what it carries is kept and echoed. -/
def State.helloIn (s : State) (n peer domain number : Nat) : State :=
  (s.emit (.hello n true peer domain number)).modPort n (fun p => { p with peerDomain := domain, peerPort := number })

/-- A HELLO of another domain sends the port back to SEEK, and a retrain is counted (Table — Link states). -/
def State.helloBad (s : State) (n : Nat) : State := (s.cwMove n cwSeek).countRetrain n

/-- TRAIN is over: half the measured round trip, rounded up, is LAT_NS; each side holds 64 credits for every virtual channel
(R364); the authentication starts under the trust record in force (R371), and the requester opens the SPDM session. -/
def State.trained (s : State) (n peer roundTrip : Nat) : State :=
  let s1 := (((s.cwMove n cwAuth).wr F.CW_STATE_LAT_NS n (ceilDiv roundTrip 2)).wr F.CW_STATE_PEER n peer).modPort n (fun p =>
    { p with credits := [64, 64, 64, 64], held := [0, 0, 0, 0], anchors := trustAnchors s.trust })
  if s1.requester n then s1.say n (spdmMsg 0x84 []) else s1

/-- TRAIN_COMPLETE (R365, R366). -/
def execTrainComplete (port : Fin 12) (peer : BitVec 8) (domain : BitVec 16) (number : Fin 12) (roundTrip : Nat) (s : State) :
    Res :=
  .next (s.inPort port [cwTrain]
    (let s1 := s.helloIn port peer.toNat domain.toNat number
     if domain.toNat = s.rd F.CW_ID_DOMAIN 0 then s1.trained port peer.toNat roundTrip else s1.helloBad port))
/-- HELLO_MISMATCH (R365). -/
def execHelloMismatch (port : Fin 12) (peer : BitVec 8) (domain : BitVec 16) (number : Fin 12) (s : State) : Res :=
  .next (s.inPort port [cwTrain]
    (if domain.toNat = s.rd F.CW_ID_DOMAIN 0 then s else (s.helloIn port peer.toNat domain.toNat number).helloBad port))

/-! ## Receiving (R361 to R364, R372, R373) -/

/-- Flits leave the receiver's buffer, and their credits go back to the sender (R364). -/
def State.freeBuf (s : State) (n vc k : Nat) : State :=
  let h := min k ((s.port n).held.getD vc 0)
  if h = 0 then s else
  (s.emit (.flit n (ctrlFlit kindCredit (h * 2 ^ 20 + vc * 2 ^ 28)))).modPort n
    (fun p => { p with held := p.held.mapIdx (fun i c => if i = vc then c - h else c) })

/-- Entry `d` of route table `g`; entry 15 is no route. -/
def State.route (s : State) (g d : Nat) : Nat :=
  if d = s.devId then 15 else s.rdi { F.CW_ROUTE_ENTRY0 with lo := 4 * (d % 16) } 0 (16 * g + d / 16)

/-- A flit for this device. An MGMT message is taken at once, a keep-alive dating the port; the messages of the other
channels wait whole, in the order of their arrival. -/
def State.deliver (s : State) (n : Nat) (f : Flit) : State :=
  let k := 256 * f.vc + f.src
  let old := SMap.get (0, []) (s.port n).parts k
  let all := old.2 ++ f.body
  let s0 := s.modPort n (fun p => { p with parts := SMap.put (0, []) p.parts k (if f.last then (0, []) else (old.1 + 1, all)) })
  let s1 := if f.vc = 3 then s0.freeBuf n 3 1 else s0
  if !f.last then s1
  else if f.vc = 3 then
    (if all = keepAliveMsg ∧ s.cwSt n ≠ cwAuth then s1.modPort n (fun p => { p with keepNs := s.ns }) else s1.spdmIn n all)
  else { s1 with inbox := s1.inbox ++ [{ port := n, vc := f.vc, src := f.src, body := all, ns := s.ns, flits := old.1 + 1 }] }

/-- A flit for another device waits for a TRANSIT tick of the port that the route table of its ingress group names now; one
without a route, or whose port is not UP, is dropped and counted (R372, R374). -/
def State.toTransit (s : State) (n : Nat) (f : Flit) : State :=
  let e := s.route (n / 4) f.dst
  if e = 15 ∨ s.cwSt e ≠ cwUp then (s.freeBuf n f.vc 1).bump F.CW_CNT_SVC_NO_ROUTE n 1
  else { s with transit := s.transit ++ [{ port := n, out := e, flit := f, ns := s.ns }] }

/-- Accept a data flit: it is acknowledged, then it is checked against its source's route (R373) and delivered, or waits to
be forwarded (R372). The SPDM messages of AUTH come from the peer itself (notes/assumptions/119.md). -/
def State.acceptFlit (s : State) (n h : Nat) (body : List Byte) : State :=
  let f : Flit := { vc := bitsOf h 0 2, last := bitAt h 3, dst := bitsOf h 4 8, src := bitsOf h 12 8, body := slice body 0 (bitsOf h 32 8) }
  let s1 := ((s.modPort n (fun p => { p with rxSn := p.rxSn + 1, nakOut := false
                                             held := p.held.mapIdx (fun i c => if i = f.vc then c + 1 else c) })).count
    (portCnt n 1) 1).emit (.flit n (ctrlFlit kindAck (bitsOf h 20 12 * 2 ^ 8)))
  if s.cwSt n = cwAuth then s1.deliver n f
  else if f.src ≠ s.devId ∧ s.route 3 f.src ≠ n then (s1.freeBuf n f.vc 1).hostile n F.CW_CNT_HOSTILE_SPOOF
  else if f.dst = s.devId then s1.deliver n f
  else s1.toTransit n f

/-- How far a SEQ lies behind the expected SN, mod 4,096. -/
def seqBack (exp seq : Nat) : Nat := (exp % 4096 + 4096 - seq) % 4096

/-- The SN that a SEQ stands for: up to half the sequence space behind the expected one, or ahead of it
(notes/assumptions/43.md). -/
def seqSn (exp seq : Nat) : Nat :=
  if seqBack exp seq ≤ 2048 ∧ seqBack exp seq ≤ exp then exp - seqBack exp seq else exp + (4096 - seqBack exp seq)

/-- Is a data flit one that the receiver can take at all: whole, with a legal header, and in AUTH on MGMT? -/
def State.flitFit (s : State) (n : Nat) (b : List Byte) : Bool :=
  flitCrcOk b && dataHdrOk (flitHdr b) && (s.cwSt n != cwAuth || bitsOf (flitHdr b) 0 2 == 3)

/-- The body of a data flit whose tag verifies. -/
def State.flitOpen (s : State) (n : Nat) (b : List Byte) : Option (List Byte) :=
  (s.port n).unseal b (seqSn (s.port n).rxSn (bitsOf (flitHdr b) 20 12))

/-- Receive a data flit (R361 to R363, R388). The first one whose tag verifies moves a KEYED port to UP (R365). One that
finds its virtual channel's buffer full is dropped as an unexpected one is (notes/assumptions/43.md). -/
def State.rxData (s : State) (n : Nat) (b : List Byte) : State :=
  if !s.flitFit n b then s.sendNak n else
  let h := flitHdr b
  let seq := bitsOf h 20 12
  let back := seqBack (s.port n).rxSn seq
  let replay (t : State) : State :=
    if back ≠ 0 ∧ back ≤ 2048 ∧ (s.port n).nakOut = false then t.hostile n F.CW_CNT_HOSTILE_REPLAY else t
  match s.flitOpen n b with
  | none => (replay (s.hostile n F.CW_CNT_HOSTILE_TAG_FAIL)).sendNak n
  | some body =>
    let s1 := s.linkUp n
    if back = 0 ∧ (s.port n).held.getD (bitsOf h 0 2) 0 < 64 then s1.acceptFlit n h body else (replay s1).sendNak n

/-- FIRST_FLIT_VERIFIED (R365): the flit's tag verifies, and the port is UP. What the flit carries is for
DATA_FLIT_RECEIVED. -/
def execFirstFlitVerified (port : Fin 12) (flit : List Byte) (s : State) : Res :=
  .next (if s.flitFit port flit && (s.flitOpen port flit).isSome then s.linkUp port else s)

/-- DATA_FLIT_RECEIVED (R361 to R364, R372, R373). -/
def execDataFlitReceived (port : Fin 12) (flit : List Byte) (s : State) : Res :=
  .next (s.inPort port [cwAuth, cwKeyed, cwUp] (s.rxData port flit))

/-- Entries of the retry buffer up to a SEQ point, the point itself included. -/
def upTo (seq : Nat) (l : List Sent) : List Sent :=
  match l.findIdx? (fun x => x.sn % 4096 == seq) with
  | some i => l.drop (i + 1)
  | none => l

/-- Do something with a control flit that is right; any other is discarded and is a NAK cause (R361). -/
def State.control (s : State) (n : Nat) (ok : Bool) (k : State) : State :=
  s.inPort n [cwAuth, cwKeyed, cwUp] (if ok then k else s.sendNak n)

/-- CONTROL_FLIT_IDLE: it carries nothing. -/
def execControlFlitIdle (port : Fin 12) (flit : List Byte) (s : State) : Res :=
  .next (s.control port (ctrlOk flit && ctrlHdrOk kindIdle (flitHdr flit) && bitsOf (flitHdr flit) 8 22 == 0) s)

/-- An ACK frees the retry buffer up to its SEQ point; an entry freed is progress. -/
def State.rxAck (s : State) (n seq : Nat) : State :=
  let left := upTo seq (s.port n).retry
  let s1 := s.modPort n (fun p => { p with retry := left, nakRun := if left.length < p.retry.length then 0 else p.nakRun })
  State.pump n (s1.port n).mgmt.length s1

/-- CONTROL_FLIT_ACK (R363). -/
def execControlFlitAck (port : Fin 12) (flit : List Byte) (s : State) : Res :=
  .next (s.control port (ctrlOk flit && ctrlSeqOk kindAck (flitHdr flit)) (s.rxAck port (seqPoint (flitHdr flit))))

/-- A NAK: the flits from the named SEQ are sent again, byte for byte; 16 NAKs in a row for one SEQ without progress are a
retrain cause (R363, R367). -/
def State.rxNak (s : State) (n seq : Nat) : State :=
  let p := s.port n
  let run := if p.nakRun ≠ 0 ∧ p.nakSeq = seq then p.nakRun + 1 else 1
  let s1 := s.setPort n { p with nakRun := run, nakSeq := seq }
  if 16 ≤ run then (s1.modPort n (fun q => { q with nakRun := 0 })).retrain n else
  match p.retry.findIdx? (fun x => x.sn % 4096 == seq) with
  | none => s1
  | some i => (p.retry.drop i).foldl (fun t x => (t.emit (.flit n x.bytes)).count (portCnt n 2) 1) s1

/-- CONTROL_FLIT_NAK (R363, R367). -/
def execControlFlitNak (port : Fin 12) (flit : List Byte) (s : State) : Res :=
  .next (s.control port (ctrlOk flit && ctrlSeqOk kindNak (flitHdr flit)) (s.rxNak port (seqPoint (flitHdr flit))))

/-- Credits arrive for a virtual channel (R364). -/
def State.rxCredit (s : State) (n h : Nat) : State :=
  let s1 := s.modPort n (fun p => { p with credits := p.credits.mapIdx (fun i c => if i = bitsOf h 28 2 then c + bitsOf h 20 8 else c) })
  State.pump n (s1.port n).mgmt.length s1

/-- CONTROL_FLIT_CREDIT: bits [27:20] are the credits, [29:28] the virtual channel (R364). -/
def execControlFlitCredit (port : Fin 12) (flit : List Byte) (s : State) : Res :=
  let h := flitHdr flit
  .next (s.control port (ctrlOk flit && ctrlHdrOk kindCredit (h - bitsOf h 20 10 * 2 ^ 20) && bitsOf h 8 12 == 0)
    (s.rxCredit port h))

/-- FEC_BURST: a run of 8 or more consecutive uncorrectable codewords (R367); a shorter run is only counted (R464). -/
def execFecBurst (port : Fin 12) (codewords : Nat) (s : State) : Res :=
  .next (s.inPort port [cwTrain, cwAuth, cwKeyed, cwUp]
    (if 8 ≤ codewords then ((s.bump F.CW_CNT_LINK_UNCORR_BURSTS port 1).count (portCnt port 5) codewords).retrain port
     else s.count (portCnt port 5) codewords))

/-- KEEPALIVE_SEND: every 1 ms while UP, a keep-alive message on MGMT (R364). -/
def execKeepaliveSend (port : Fin 12) (s : State) : Res :=
  .next (s.inPort port [cwUp] (if (s.port port).keepSent + 1000000 ≤ s.ns then
    (s.modPort port (fun p => { p with keepSent := s.ns })).say port keepAliveMsg else s))

/-- KEEPALIVE_MISSING: none for 10 ms (R367). -/
def execKeepaliveMissing (port : Fin 12) (s : State) : Res :=
  .next (s.inPort port [cwUp] (if (s.port port).keepNs + 10000000 ≤ s.ns then s.retrain port else s))

/-- KEY_UPDATE: a direction takes a new key and salt, and SN goes on (R370). -/
def execKeyUpdate (port : Fin 12) (sending : Bool) (key salt : List Byte) (s : State) : Res :=
  .next (s.inPort port [cwKeyed, cwUp] (s.modPort port (fun p =>
    if sending then { p with txKey := key, txSalt := salt, keyFlits := 0 } else { p with rxKey := key, rxSalt := salt })))

/-! ## Slow partners (R387) -/

/-- How far LATE_RCVD has grown in the present second. -/
def State.lateGrowth (s : State) (n : Nat) : Nat :=
  (s.rd F.CW_CNT_SVC_LATE_RCVD n + 65536 - (s.port n).lateBase) % 65536

/-- The end of a second on `DEV_NS`, when it has ended (R6, R387): SLOW returns to 0 when LATE_RCVD grew by less than
SLOW_LIMIT in it, or when a full second without an answer has followed it. -/
def State.secondEnd (s : State) (n : Nat) : State :=
  let k := s.ns / 1000000000
  let p := s.port n
  if k ≤ p.lateSec then s else
  let slow := decide (k = p.lateSec + 1) && decide (s.rd F.CW_POLICY_SLOW_LIMIT n ≤ s.lateGrowth n)
  (if slow then s else s.wr F.CW_STATE_SLOW n 0).modPort n (fun p =>
    { p with lateSec := k, lateBase := s.rd F.CW_CNT_SVC_LATE_RCVD n })

/-- Count a late answer of a port (R386, R387). -/
def State.lateRcvd (s : State) (n : Nat) : State :=
  let s1 := (s.secondEnd n).bump F.CW_CNT_SVC_LATE_RCVD n 1
  if s1.rd F.CW_POLICY_SLOW_LIMIT n ≤ s1.lateGrowth n then s1.wr F.CW_STATE_SLOW n 1 else s1

/-- SLOW_UPDATE: the end of a second (R387). -/
def execSlowUpdate (port : Fin 12) (s : State) : Res := .next (s.secondEnd port)

/-! ## Commands of `CW_CMD` -/

/-- CW_RETRAIN, legal only in UP (R365). -/
def execCwRetrain (fn : Fn) (port : Fin 12) (s : State) : Res :=
  .next (s.pfDo fn (if s.cwSt port = cwUp then (s.cwMove port cwTrain).cwDiscard port else s.illegal .causeway port 0x048))
/-- CW_PORT_RESET (R365, R420). -/
def execCwPortReset (fn : Fn) (port : Fin 12) (s : State) : Res := .next (s.pfDo fn (s.cwDownPort port))

/-! ## Transit (R372, R374) -/

/-- The 32-byte header of a request after an ingress hop: LAT_NS and the residence time leave BUDGET_NS, and LAT_NS joins
PATH_NS (R374); none when the budget would fall below 0. -/
def hopHeader (lat stay : Nat) (b : List Byte) : Option (List Byte) :=
  let budget := numAt b 8 4
  if budget < lat + stay then none
  else some (slice b 0 8 ++ leBytes 4 (budget - (lat + stay)) ++ leBytes 4 (numAt b 12 4 + lat) ++ b.drop 16)

/-- Does a virtual channel carry requests? -/
def reqVc (vc : Nat) : Bool := vc == 0 || vc == 2

/-- The place of a flit among the messages in transit from its port. -/
def Flit.key (f : Flit) : Nat := 65536 * f.vc + 256 * f.src + f.dst

/-- Can the flit leave the queue now: it is being dropped, or its egress port takes it in this tick? -/
def State.movable (s : State) (x : Transit) : Bool :=
  SMap.get 0 (s.port x.port).mid x.flit.key == 2 || s.cwSt x.out != cwUp ||
  (decide (s.kindNow (0x140 + x.out) = .transit) && s.canSend x.out x.flit.vc)

/-- The waiting flit of a port that leaves next: the oldest one of a virtual channel, MGMT before the others, so that no
channel waits for another (R364). -/
def State.nextTransit (s : State) (n : Nat) : Option (Nat × Transit) :=
  ([3, 0, 1, 2] : List Nat).findSome? (fun vc =>
    match s.transit.findIdx? (fun x => x.port == n && x.flit.vc == vc) with
    | none => none
    | some i => (s.transit[i]?).bind (fun x => if s.movable x then some (i, x) else none))

/-- Forward a flit that waits from a port, in a TRANSIT tick of the egress port's lane (R374). -/
def State.forward (s : State) (n : Nat) : State :=
  match s.nextTransit n with
  | none => s
  | some (i, x) =>
    let f := x.flit
    let st := SMap.get 0 (s.port n).mid f.key
    let taken := State.freeBuf { s with transit := s.transit.eraseIdx i } n f.vc 1
    let note (t : State) (v : Nat) : State :=
      t.modPort n (fun p => { p with mid := SMap.put 0 p.mid f.key (if f.last then 0 else v) })
    if st = 2 then note taken 2
    else if s.cwSt x.out ≠ cwUp then (note taken 1).bump F.CW_CNT_SVC_NO_ROUTE n 1
    else
      match (if st = 0 ∧ reqVc f.vc = true then hopHeader (s.rd F.CW_STATE_LAT_NS n) (s.ns - x.ns) f.body else some f.body) with
      | none => (note taken 2).bump F.CW_CNT_SVC_NO_ROUTE n 1
      | some b => (((note taken 1).sendFlit x.out f.vc f.last f.dst f.src b).count (portCnt x.out 6) 1)

/-- FLIT_FORWARD (R372, R374). -/
def execFlitForward (port : Fin 12) (s : State) : Res := .next (s.forward port)

end Sys2Proof.Machine
end

