-- ==== Sys2Proof/Machine/Remote.lean ====
section
/-! DEFINITION. Remote requests, export grants and the service of peers (spec/16_causeway.md, R371, R375 to R386;
spec/19_background_integrity.md, R445). -/

namespace Sys2Proof.Machine
open Sys2Proof

/-! ## Time -/

/-- A tick lasts 16 CCLK cycles: 160 ns divided by this number at level L (spec/02, Table — Figures). -/
def tickDen : Nat → Nat
  | 0 => 16
  | 1 => 13
  | 2 => 10
  | _ => 6

/-- The divisor at the level in force. -/
def State.tickDen (s : State) : Nat := Machine.tickDen (s.rd F.JCT_CEIL_CUR_LEVEL 0)

/-- The kind that the frame in force gives to a tick of a lane. -/
def State.kindAtTick (s : State) (l t : Nat) : TickKind :=
  match s.frame with
  | none => .idle
  | some f => f.kind l ((t + f.length - s.rd F.RV_FRAME_START_TICK 0 % max 1 f.length) % max 1 f.length)

/-- The tick that ends `n` SERVICE ticks of a lane, counted from tick `t`. -/
def State.serveEnd (s : State) (l : Nat) : Nat → Nat → Nat → Option Nat
  | 0, _, _ => none
  | fuel + 1, t, n =>
    if n = 0 then some t
    else if s.kindAtTick l t = .service then (if n = 1 then some (t + 1) else s.serveEnd l fuel (t + 1) (n - 1))
    else s.serveEnd l fuel (t + 1) n

/-! ## The requester (R380 to R382, R385) -/

/-- The port of a remote step: the Causeway lane it books. -/
def Act.port (a : Act) : Nat := a.step.lane - 0x140

/-- The grant reference of a remote step. -/
def Act.grantRef (a : Act) : Option GrantRef := a.plan.grants[a.step.grant]?

/-- The deadline of every request of a step. -/
def Act.deadline (a : Act) : Nat := a.run.admittedAt + a.step.start + a.step.duration

/-- A TAG that no outstanding request has. Tags are unique over all owners. -/
def State.newTag (s : State) : Nat × State :=
  let t0 := SMap.get 0 s.nextTag 0
  let used (t : Nat) : Bool := s.requests.any (fun q => q.open_ && q.tag == t)
  let t := (((List.range (s.requests.length + 1)).map (fun i => (t0 + i) % 2 ^ 32)).find? (fun t => !used t)).getD t0
  (t, { s with nextTag := SMap.put 0 s.nextTag 0 ((t + 1) % 2 ^ 32) })

/-- The bounds of bag r of a remote GATHER, when the staged input holds them and its indices. -/
def remBag (a : Act) (d : RemDesc) (r : Nat) : Option (Nat × Nat) :=
  if !a.inInput d.offsIn (4 * (d.reqs + 1)) then none else
  let lo := u32At a.input d.offsIn r
  let hi := u32At a.input d.offsIn (r + 1)
  if lo ≤ hi ∧ a.inInput d.idxIn (8 * hi) = true then some (lo, hi) else none

/-- The header of a request (Table — Request header). -/
def reqHeader (op grant rows tag budget dstOff len : Nat) : List Byte :=
  leBytes 1 op ++ leBytes 1 grant ++ leBytes 2 rows ++ leBytes 4 tag ++ leBytes 4 budget ++ leBytes 4 0 ++
  leBytes 4 dstOff ++ leBytes 2 len ++ leBytes 10 0

/-- The address of request r's data in Mere. -/
def remVa (a : Act) (d : RemDesc) (r : Nat) : Nat := d.data + r * d.stride + a.off

/-- End a request before it is sent. -/
def State.notSent (s : State) (a : Act) (d : RemDesc) (e : Err) : State :=
  let q : Request := { port := a.port, tag := 0, owner := a.run.owner, run := a.run.id, step := a.idx, dst := 0, len := d.bytes,
                       push := d.push, open_ := false, err := some e }
  { s with requests := s.requests ++ [q] }

/-- The data after the header of request r: indices, or the bytes to push. -/
def State.reqData (s : State) (a : Act) (d : RemDesc) (r : Nat) : Got × State :=
  if d.push then s.get a (remVa a d r) d.bytes else
  match remBag a d r with
  | some (lo, hi) => (.bytes ((List.range (hi - lo)).flatMap (fun i => leBytes 8 (u64At a.input d.idxIn (lo + i)))), s)
  | none => (.fail .indexRange, s)

/-- The message of request r: the budget counts from the tick in which its last flit leaves, which is the tick that R381
plans for it, or the present one when it is later. `k` is the number of flits of the step before it. -/
def reqMsg (a : Act) (d : RemDesc) (g : GrantRef) (now den k r tag : Nat) (data : List Byte) : List Byte :=
  let rows := if d.push then 0 else data.length / 8
  let n := msgFlits (reqHeader 0 0 0 0 0 0 0 ++ data)
  let leave := max now (a.start + 2 + (k + n - 1) / 3)
  let budget := (a.deadline - leave) * 160 / den
  reqHeader (b2n d.push) g.grant rows tag (min budget (2 ^ 32 - 1)) (if d.push then d.dstOff + r * d.stride else 0)
    (if d.push then d.bytes else 0) ++ data

/-- Have all requests of a step been sent and answered? -/
def State.remoteDone (s : State) (a : Act) (d : RemDesc) : Bool :=
  (match s.run? a.run.id with | some r => (r.dataOf a.idx).next == d.reqs | none => false) &&
  !s.requests.any (fun q => q.run == a.run.id && q.step == a.idx)

/-- The step's work is done once every request has its answer. -/
def State.remoteCheck (s : State) (a : Act) (d : RemDesc) : State := if s.remoteDone a d then s.workDone a else s

/-- Note how far a step has sent: requests, flits of the present one and its tag, flits in all. -/
def State.remoteAt (s : State) (a : Act) (next flit tag all : Nat) : State :=
  s.setData a.run.id { step := a.idx, next := next, limit := flit, applied := all, stopped := [tag] }

/-- Send flits of a step's requests until none is left, a flit must wait for a credit or the retry buffer, or data cannot
be read (R380, R385). -/
def State.sendReqs (a : Act) (d : RemDesc) (g : GrantRef) : Nat → State → Nat → Nat → Nat → Nat → State
  | 0, s, _, _, _, _ => s
  | fuel + 1, s, r, j, tag, all =>
    if d.reqs ≤ r then (s.remoteAt a r 0 0 all).remoteCheck a d else
    let skip (t : State) : State := State.sendReqs a d g fuel t (r + 1) 0 0 all
    let q := a.port
    let key := 64 * a.run.owner + a.step.grant
    let tooMany : Bool := !d.push && (match remBag a d r with | some (lo, hi) => decide (a.lode.bagCap < hi - lo) | none => false)
    if 0 < j ∧ s.requests.any (fun x => x.open_ && x.tag == tag) = false then skip s
    else if j = 0 ∧ tooMany = true then skip (s.notSent a d .bagOverCap)
    else if j = 0 ∧ s.cwSt q = cwQuar then skip (s.notSent a d .portQuarantined)
    else if s.cwSt q ≠ cwUp then skip (if j = 0 then s.notSent a d .peerAbsent else s)
    else if j = 0 ∧ g.reqPerFrame ≤ SMap.get 0 s.sentFrame key then skip (s.notSent a d .remoteRefused)
    else
    match (if d.push then s.stallAt a (remVa a d r) d.bytes false else none) with
    | some (k, va) => (s.remoteAt a r j tag all).stall a k va false
    | none =>
    match s.reqData a d r with
    | (.fail .indexRange, s1) => skip (s1.notSent a d .indexRange)
    | (.fail e, s1) => s1.failRun a.run.id e
    | (.bytes data, s1) =>
      let vc := if d.push then 2 else 0
      if s1.canSend q vc = false then s1.remoteAt a r j tag all else
      let (tag', s2) := if j = 0 then s1.newTag else (tag, s1)
      let msg := reqMsg a d g s.tick s.tickDen (all - j) r tag' data
      let n := msgFlits msg
      let s3 := s2.sendFlit q vc (decide (n ≤ j + 1)) g.peer s2.devId (slice msg (228 * j) (min 228 (msg.length - 228 * j)))
      let x : Request := { port := q, tag := tag', owner := a.run.owner, run := a.run.id, step := a.idx
                           dst := remVa a d r, len := d.bytes, push := d.push, open_ := true, err := none }
      let s4 : State := if j = 0 then
          State.countP { s3 with
            requests := s3.requests ++ [x]
            sentFrame := SMap.put 0 s3.sentFrame key (SMap.get 0 s3.sentFrame key + 1) } a.run.owner 128 1
        else s3
      if n ≤ j + 1 then State.sendReqs a d g fuel s4 (r + 1) 0 0 (all + 1)
      else State.sendReqs a d g fuel s4 r (j + 1) tag' (all + 1)

/-- The requests of a remote step of the given operation. -/
def State.remoteStep (s : State) (a : Act) (push : Bool) : State :=
  match s.descOf a with
  | (.fail e, s1) => s1.failRun a.run.id e
  | (.bytes b, s1) =>
    let d := remDesc b
    if d.push ≠ push then s1 else
    match a.grantRef with
    | none => s1
    | some g =>
      let x := a.run.dataOf a.idx
      State.sendReqs a d g (d.reqs * 4096 + 1) s1 x.next x.limit (x.stopped.headD 0) x.applied

/-- REMOTE_GATHER (R380 to R382). -/
def execRemoteGather (run step : Nat) (s : State) : Res := .next (s.onStep run step .causeway (fun a => s.remoteStep a false))
/-- REMOTE_PUSH (R380 to R382). -/
def execRemotePush (run step : Nat) (s : State) : Res := .next (s.onStep run step .causeway (fun a => s.remoteStep a true))

/-- The end tick of a remote step whose requests are not all answered well (R385): the run fails with the lowest code.
Each request that has no answer counts as late on its port (R386). -/
def State.remoteDeadline (s : State) (a : Act) : State :=
  if s.tick < a.deadline then s else
  let mine := s.requests.filter (fun q => q.run == a.run.id && q.step == a.idx)
  let open_ := mine.filter (·.open_)
  let s1 := open_.foldl (fun t q => (t.lateRcvd q.port).countP q.owner 131 1) s
  let codes := mine.filterMap (·.err) ++ (if open_.isEmpty then [] else [.remoteLate]) ++
    ((a.run.late.filter (fun x => x.1 == a.idx)).map (·.2))
  s1.failRun a.run.id ((Err.lowest codes).getD .remoteLate)

/-- REMOTE_DEADLINE (R385): the step's own ticks are over by then. -/
def execRemoteDeadline (run step : Nat) (s : State) : Res :=
  .next (match s.act? run step with
    | some a => if a.step.eng = some .causeway then s.remoteDeadline a else s
    | none => s)

/-- Take the oldest message that waits from a port on one of the given virtual channels; its flits leave the receiver's
buffer (R364). -/
def State.takeMsg (s : State) (n : Nat) (q : Nat → Bool) : Option (Msg × State) :=
  match s.inbox.findIdx? (fun m => m.port == n && q m.vc) with
  | none => none
  | some i => (s.inbox[i]?).map (fun m => (m, State.freeBuf { s with inbox := s.inbox.eraseIdx i } n m.vc m.flits))

/-- Close a request with a code, or as answered. -/
def State.closeReq (s : State) (q : Request) (e : Option Err) : State :=
  match e with
  | none => { s with requests := s.requests.filter (fun x => !(x.open_ && x.tag == q.tag)) }
  | some e => { s with requests := s.requests.map (fun x =>
      if x.open_ && x.tag == q.tag then { x with open_ := false, err := some e } else x) }

/-- The step that a response is for cannot take its data yet: it waits for a fault, or meets a hole in a PAGEABLE object
now (R145); with the hole, the step, its kind and its address. -/
def State.respHole (s : State) (q : Request) : Bool × Option (Act × Nat × Nat) :=
  if q.push then (false, none) else
  match s.act? q.run q.step with
  | some a => (match s.stallAt a q.dst q.len true with
    | some (k, va) => (true, some (a, k, va))
    | none => (false, none))
  | none => (match (s.run? q.run).bind (fun r => r.steps[q.step]?) with
    | some (.stalled _ _ _) | some (.filled _ _ _) => (true, none)
    | _ => (false, none))

/-- A response (R382, R385, R386). A GATHER response shorter than its LEN says is taken as a wrong LEN
(notes/assumptions/44.md). -/
def State.response (s : State) (n : Nat) : State :=
  match s.takeMsg n (· == 1) with
  | none => s
  | some (m, s1) =>
    let s1 := s1.count (portCnt n 9) 1
    let tag := numAt m.body 0 4
    let status := bitsOf (numAt m.body 4 4) 0 4
    let len := numAt m.body 6 2
    match s1.requests.find? (fun q => q.open_ && q.tag == tag) with
    | none => s1.bump F.CW_CNT_SVC_LATE_RESP n 1
    | some q =>
      let (waits, hole) := if status = 0 ∧ len = q.len then s.respHole q else (false, none)
      if waits then (match hole with | some (a, k, va) => s.stall a k va true | none => s) else
      if status ≠ 0 then
        ((if status = 1 then s1.lateRcvd n else s1).countP q.owner 130 1).closeReq q (some .remoteRefused)
      else if len ≠ q.len ∨ (q.push = false ∧ m.body.length < 16 + len) then s1.closeReq q (some .remoteRefused)
      else
        match s1.run? q.run with
        | none => s1.closeReq q none
        | some r =>
          let (e, s2) := if q.push then (none, s1)
            else s1.writeVa r.ctx q.dst (slice m.body 16 len) false (.run r.id r.owner)
          match e with
          | some e => s2.failRun r.id e
          | none =>
            let s3 := (s2.closeReq q none).countP q.owner 129 1
            match s3.act? q.run q.step with
            | none => s3
            | some a => (match s3.descOf a with
              | (.bytes b, s4) => s4.remoteCheck a (remDesc b)
              | (.fail e, s4) => s4.failRun r.id e)

/-- RESPONSE_RECEIVED (R385, R386). -/
def execResponseReceived (port : Fin 12) (s : State) : Res := .next (s.response port)

/-! ## Export grants (R375 to R378) -/

def State.grant (s : State) (n : Nat) : Grant := (SMap.get none s.grants n).getD { words := [], st := 0, suspended := false }

/-- The states of a grant slot. -/
def gFree : Nat := 0
def gValid : Nat := 1
def gRevoking : Nat := 2
def gRevoked : Nat := 3

/-- The fields of a grant (Table — Grant words). -/
structure GrantW where
  push : Bool
  kind : Nat
  polder : Nat
  table : Nat
  maxRows : Nat
  ports : Nat
  lane : Nat
  rate : Nat
  share : Nat
  pool : Nat
  bf16 : Bool
  va : Nat
  ctx : Nat
  len : Nat
  peers : List Nat

def grantW (w : List Nat) : GrantW :=
  let w0 := w.getD 0 0
  let w1 := w.getD 1 0
  let w2 := w.getD 2 0
  { push := bitsOf w0 0 2 == 1, kind := bitsOf w0 0 2, polder := bitsOf w0 4 4, table := bitsOf w0 8 10
    maxRows := bitsOf w0 24 7, ports := bitsOf w0 32 12, lane := bitsOf w0 48 10, rate := bitsOf w1 0 16
    share := bitsOf w1 16 7, pool := bitsOf w1 24 2, bf16 := bitAt w1 26, va := bitsOf w2 0 48, ctx := bitsOf w2 48 8
    len := bitsOf (w.getD 3 0) 0 13, peers := (List.range 4).map (fun i => w.getD (4 + i) 0) }

/-- Bit d of PEERS. -/
def GrantW.peer (g : GrantW) (d : Nat) : Bool := bitAt (g.peers.getD (d / 64) 0) (d % 64)

/-- No field is illegal. -/
def GrantW.legal (g : GrantW) : Bool :=
  decide (g.kind ≤ 1) && decide (1 ≤ g.rate) && decide (1 ≤ g.share ∧ g.share ≤ 64) && decide (g.pool ≤ 1) &&
  (if g.push then decide (0x120 ≤ g.lane ∧ g.lane ≤ 0x12F) && decide (16 ≤ g.len ∧ g.len ≤ 4096)
   else decide (0x118 ≤ g.lane ∧ g.lane ≤ 0x119) && decide (1 ≤ g.maxRows ∧ g.maxRows ≤ 64))

/-- The table of a GATHER grant, when it is VALID. -/
def State.grantTable (s : State) (g : GrantW) : Option TableSlot :=
  match s.table g.polder g.table with
  | some t => if t.closing.isNone then some t else none
  | none => none

/-- The context of a polder in which the rows of a table translate: the lowest one (notes/assumptions/36.md). -/
def State.rowCtx (s : State) (p va : Nat) : Option Nat :=
  ((List.range 256).filter (fun c => s.ownerOf .context c == p)).find? (fun c =>
    match s.xlatePinned c va false with | .vault _ => true | _ => false)

/-- The vaults of a table's placement: those of its first 2^LOG2_N pages (notes/assumptions/45.md). -/
def State.placement (s : State) (p : Nat) (t : TableSlot) : List Nat :=
  (List.range (2 ^ t.log2N)).filterMap (fun q =>
    (s.rowCtx p (t.base + 4096 * q)).bind (fun c =>
      match s.xlatePinned c (t.base + 4096 * q) false with
      | .vault a => (s.locate a).map (·.1)
      | _ => none))

/-- Does the region of a PUSH grant pass check 8 in its context (R141)? -/
def State.regionOk (s : State) (g : GrantW) : Bool :=
  s.ownerOf .context g.ctx == g.polder &&
  (List.range ((g.va + g.len - 1) / 4096 - g.va / 4096 + 1)).all (fun i =>
    decide (s.c8page g.ctx (g.va / 4096 + i) ⟨g.va, g.len, true, .mere, false⟩ = .ok))

/-- The lanes that must be SERVICE in every tick in which SVC_LANE is. -/
def State.grantLanes (s : State) (g : GrantW) : List Nat :=
  (if g.push then [] else match s.grantTable g with | some t => s.placement g.polder t | none => []) ++
  (bitList 12 g.ports).map (0x140 + ·)

/-- NO_SERVICE does not hold in a frame (Table — Grant status). -/
def State.served? (s : State) (g : GrantW) (f : Frame) : Bool :=
  (List.range f.length).all (fun x => decide (f.kind g.lane x ≠ .service) ||
    (s.grantLanes g).all (fun l => decide (f.kind l x = .service)))

/-- The first failing status of a WRITE, 0 for none. -/
def State.grantCheck (s : State) (old : Grant) (g : GrantW) : Nat :=
  if old.st = gValid ∨ old.st = gRevoking then 1
  else if !g.legal then 2
  else if s.pst g.polder ≠ pActive then 3
  else if s.rd F.PLD_STATE_TDISP g.polder ≠ 0 then 4
  else if (if g.push then !s.regionOk g else (s.grantTable g).isNone) then 5
  else match s.frame with
    | some f => if s.served? g f then 0 else 6
    | none => 0

/-- The words of the grant registers. -/
def State.gntWords (s : State) : List Nat := (List.range 8).map (fun i => s.rdi F.CW_GNT_W_WORD 0 i)

/-- WRITE (R376). -/
def State.gntWrite (s : State) : State :=
  let n := s.rd F.CW_GNT_SEL_SLOT 0
  let w := s.gntWords
  let st := s.grantCheck (s.grant n) (grantW w)
  let s1 := s.wr F.CW_GNT_STATUS_STATUS 0 st
  if st = 0 then { s1 with grants := SMap.put none s1.grants n (some { words := w, st := gValid, suspended := false }) } else s1

/-- Does a request of the slot wait for its completion? -/
def State.reserved (s : State) (n : Nat) : Nat := (s.services.filter (fun v => v.slot == n && v.status == 0)).length

/-- A REVOKING slot whose last reserved request has been answered is REVOKED (R377). -/
def State.settleGrant (s : State) (n : Nat) : State :=
  let g := s.grant n
  if g.st = gRevoking ∧ s.reserved n = 0 then { s with grants := SMap.put none s.grants n (some { g with st := gRevoked }) } else s

/-- REVOKE (R377); illegal for a slot that is not VALID. -/
def State.gntRevoke (s : State) : State :=
  let n := s.rd F.CW_GNT_SEL_SLOT 0
  let g := s.grant n
  if g.st ≠ gValid then s.illegal .causeway 0 0x748 else
  State.settleGrant ({ s with grants := SMap.put none s.grants n (some { g with st := gRevoking }) }.wr
    F.CW_GNT_STATUS_STATUS 0 0) n

/-- READ: the slot to the words; a FREE slot reads 0. -/
def State.gntRead (s : State) : State :=
  let g := s.grant (s.rd F.CW_GNT_SEL_SLOT 0)
  ((List.range 8).foldl (fun t i => t.wri F.CW_GNT_W_WORD 0 i (g.words.getD i 0)) s).wr F.CW_GNT_STATUS_STATUS 0 0

/-- CW_GNT_WRITE (R376). -/
def execCwGntWrite (fn : Fn) (s : State) : Res := .next (s.pfDo fn s.gntWrite)
/-- CW_GNT_REVOKE (R377). -/
def execCwGntRevoke (fn : Fn) (s : State) : Res := .next (s.pfDo fn s.gntRevoke)
/-- CW_GNT_READ (Table — Causeway registers). -/
def execCwGntRead (fn : Fn) (s : State) : Res := .next (s.pfDo fn s.gntRead)

/-- At a frame switch every VALID grant is checked under NO_SERVICE, and one that fails is SUSPENDED (R378). -/
def State.suspendGrants (s : State) : State :=
  { s with grants := s.grants.map (fun e => (e.1, e.2.map (fun g =>
      if g.st = gValid ∧ (match s.frame with | some f => s.served? (grantW g.words) f | none => true) = false
      then { g with suspended := true } else g))) }

/-! ## The responder (R383, R384) -/

/-- Bytes of a GATHER response's data. -/
def respBytes (g : GrantW) (t : TableSlot) : Nat := t.dim * (if g.bf16 then 2 else 4)

/-- The service ticks of a request (R384). -/
def State.svcCost (s : State) (g : GrantW) : Option Nat :=
  if g.push then some (4 + ceilDiv g.len 16384 + 1) else
  (s.grantTable g).map (fun t =>
    let h := ceilDiv g.share 2
    6 + max (ceilDiv (g.maxRows * t.pitch) (10 * h)) (ceilDiv (128 * g.maxRows) (7 * h)) +
      ceilDiv (ceilDiv (16 + respBytes g t) 228) 3)

/-- Has the grant's service a benched engine (R445)? -/
def State.svcBenched (s : State) (g : GrantW) : Bool :=
  s.benched g.lane || (!g.push && (match s.grantTable g with
    | some t => (s.placement g.polder t).any (fun v => s.benched v)
    | none => false))

/-- A refusal waits for the next SERVICE tick of the ingress port's lane. -/
def State.refuse (s : State) (m : Msg) (tag slot status : Nat) : State :=
  let v : Service := { port := m.port, src := m.src, tag := tag, slot := slot, rows := [], off := 0, len := 0, data := []
                       done := s.tick + 1, refuse := false, status := status }
  let s1 : State := { s with services := s.services ++ [v] }
  (s1.count (portCnt m.port 8) 1).countP (grantW (s.grant slot).words).polder 133 1

/-- Checks 1 to 5 of a request (Table — Responder checks). A request whose body is shorter than its header says is refused
as data (notes/assumptions/44.md). -/
def State.ingressChecks (s : State) (m : Msg) (b : List Byte) : State :=
  let slot := numAt b 1 1
  let op := numAt b 0 1
  let gr := s.grant slot
  let g := grantW gr.words
  let tag := numAt b 4 4
  let rows := numAt b 2 2
  let off := numAt b 16 4
  let len := numAt b 20 2
  let key := 256 * slot + m.src
  if gr.st = gFree ∨ g.peer m.src = false ∨ bitAt g.ports m.port = false ∨ op ≠ g.kind then
    s.hostile m.port F.CW_CNT_HOSTILE_OUT_OF_GRANT
  else
  let seen := SMap.get 0 s.rates key
  let s0 : State := { s with rates := SMap.put 0 s.rates key (seen + 1) }
  if gr.st ≠ gValid then s0.refuse m tag slot 2
  else if gr.suspended then s0.refuse m tag slot 1
  else if g.rate ≤ seen then s0.hostile m.port F.CW_CNT_HOSTILE_OVER_RATE
  else if (if g.push then decide (g.len < off + len) || decide (b.length < 32 + len)
      else decide (g.maxRows < rows) || decide (b.length < 32 + 8 * rows)) then s0.refuse m tag slot 3
  else if s0.svcBenched g then s0.refuse m tag slot 3
  else
    match s0.svcCost g with
    | none => s0.refuse m tag slot 3
    | some cost =>
      let n := match s0.frame with | some f => (cost + 1) * f.length | none => 0
      let late := (s0.refuse m tag slot 1).bump F.CW_CNT_SVC_LATE_SENT m.port 1
      match s0.serveEnd g.lane n (max (s0.tick + 2) (SMap.get 0 s0.laneDone g.lane)) cost with
      | none => late
      | some c =>
        if numAt b 8 4 * s0.tickDen < (c - s0.tick) * 160 + numAt b 12 4 * s0.tickDen then late else
        let v : Service :=
          { port := m.port, src := m.src, tag := tag, slot := slot
            rows := if g.push then [] else (List.range rows).map (fun i => numAt b (32 + 8 * i) 8)
            off := off, len := len, data := if g.push then slice b 32 len else [], done := c, refuse := false, status := 0 }
        State.count { s0 with laneDone := SMap.put 0 s0.laneDone g.lane c, services := s0.services ++ [v] } (portCnt m.port 7) 1

/-- A request arrives: the ingress hop of R374, then the responder's checks (R383). -/
def State.ingress (s : State) (n : Nat) : State :=
  if s.asleep then s else
  match s.takeMsg n reqVc with
  | none => s
  | some (m, s1) =>
    match hopHeader (s1.rd F.CW_STATE_LAT_NS n) 0 m.body with
    | none => s1.bump F.CW_CNT_SVC_NO_ROUTE n 1
    | some b => s1.ingressChecks m b

/-- REQUEST_INGRESS (R374, R383, R384, R445). -/
def execRequestIngress (port : Fin 12) (s : State) : Res := .next (s.ingress port)

/-- The step that a service amounts to: one bag, on every vault, for the polder of the grant, outside any run. -/
def svcAct (s : State) (g : GrantW) (c : Nat) : Act :=
  let r : Run := { id := s.nextRun, owner := g.polder, ctx := c, queue := 0, lode := 0, block := [], fence := 0
                   phase := .admitted, accepted := 0, deferred := false, staging := .done, staged := [], stageN := 0
                   reserve := 0, inHeld := false, outHeld := false, admittedAt := 0, under := none, inst := 0
                   pin := s.rd F.EP_STATE_PUB g.polder, steps := [], data := [], stalledTicks := 0, stop := none
                   late := [], trunc := false }
  let l : Lode := { firstStep := 0, stepCount := 0, capTrunc := false, period := 1, phase := 0, instances := 1
                    tierMax := 3, levelMask := 15, bagCap := g.maxRows, duration := 0, maxWait := 0, faultAllow := 0
                    minIn := 0, maxIn := 0, outLen := 0, scratchStride := 0 }
  let x : PStep := { lane := 0, laneCount := 256, start := 0, duration := 0, pageable := false, output := false
                     remote := false, dep0 := 0, dep1 := 0, share := g.share, descOff := 0, descLen := 0, grant := 0 }
  { run := r, lode := l, idx := 0, step := x, start := s.tick
    plan := { crc := 0, frameLen := 0, lodes := [], steps := [], fits := [], grants := [], descs := [], descVa := 0, descCtx := 0 } }

/-- Serve a GATHER request as a local bag (R384): its pooled bytes, or none after a data failure. The epoch is the one
published when it is served (notes/assumptions/46.md). -/
def State.serveGather (s : State) (v : Service) (g : GrantW) (ev : GatherEv) : Option (List Byte) × State :=
  match s.grantTable g with
  | none => (none, s)
  | some t =>
    match s.rowCtx g.polder t.base with
    | none => (none, s)
    | some c =>
      let a := svcAct s g c
      let (s1, rows, _, codes) := State.punchBag a g.table t (fun _ => true) v.rows s [] [] []
      if !codes.isEmpty then (none, s1) else
      let out := rows.foldl (fun h r => gatherRow a ev.badLines 0 r.1 r.2 h)
        { st := s1, parts := [], gone := false, rows := 0, fail := none }
      if out.fail.isSome || out.gone then (none, out.st) else
      let code := (tableFmt t.fmt).isCode
      let ev' := residueHits a out.parts code ev
      if !ev'.residue.isEmpty || ev'.finisher then (none, out.st.residueFail a ev') else
      match out.st.scalesOf a t with
      | (.error _, s2) => (none, s2)
      | (.ok sc, s2) => (some (bagOut t sc rows.length (g.pool == 1) (b2n g.bf16) (mergeParts code 0 out.parts)), s2)

/-- The answer of a request: status and data. A PUSH response carries the LEN of its request and no data
(notes/assumptions/47.md). -/
def State.serve (s : State) (v : Service) (ev : GatherEv) : Nat × Nat × List Byte × State :=
  let g := grantW (s.grant v.slot).words
  if v.status ≠ 0 then (v.status, 0, [], s)
  else if v.refuse then (2, 0, [], s)
  else if g.push then
    let (e, s1) := s.writeVa g.ctx (g.va + v.off) v.data true (.run s.nextRun g.polder)
    (match e with | some _ => (3, 0, [], s1) | none => (0, v.len, [], s1))
  else match s.serveGather v g ev with
    | (some b, s1) => (0, b.length, b, s1)
    | (none, s1) => (3, 0, [], s1)

/-- Send a message, flit by flit. -/
def State.sendMsg (n vc dst : Nat) : Nat → State → List Byte → State
  | 0, s, _ => s
  | fuel + 1, s, b =>
    let s1 := s.sendFlit n vc (decide (b.length ≤ 228)) dst s.devId (b.take 228)
    if b.length ≤ 228 then s1 else State.sendMsg n vc dst fuel s1 (b.drop 228)

/-- The response's flits, at most (R384). -/
def State.respFlits (s : State) (v : Service) : Nat :=
  let g := grantW (s.grant v.slot).words
  match v.status, s.grantTable g with
  | 0, some t => if g.push then 1 else ceilDiv (16 + respBytes g t) 228
  | _, _ => 1

/-- A request completes and its answer leaves by the port on which it came, while the link is UP and holds the credits and
the retry room it needs; an answer to a port that has left UP is dropped. -/
def State.serviceEnd (s : State) (n tag : Nat) (ev : GatherEv) : State :=
  if s.asleep then s else
  match s.services.findIdx? (fun v => v.port == n && v.tag == tag &&
      decide (v.done ≤ s.tick) && (v.status == 0 || decide (s.kindNow (0x140 + n) = .service))) with
  | none => s
  | some i =>
    match s.services[i]? with
    | none => s
    | some v =>
      let k := s.respFlits v
      let p := s.port n
      if s.cwSt n = cwUp ∧ ((p.credits.getD 1 0) < k ∨ 256 < p.retry.length + k ∨ s.canSend n 1 = false) then s else
      let (st, len, data, s1) := ({ s with services := s.services.eraseIdx i } : State).serve v ev
      let pol := (grantW (s.grant v.slot).words).polder
      let s2 := if v.status ≠ 0 then s1
        else if st = 0 then s1.countP pol 132 1 else (s1.count (portCnt n 8) 1).countP pol 133 1
      let s3 := if s.cwSt n = cwUp then
          State.sendMsg n 1 v.src 64 s2 (leBytes 4 tag ++ leBytes 2 st ++ leBytes 2 len ++ leBytes 8 0 ++ data)
        else s2
      s3.settleGrant v.slot

/-- REQUEST_SERVICE_COMPLETE (R377, R384). -/
def execRequestServiceComplete (port : Fin 12) (tag : Nat) (ev : GatherEv) (s : State) : Res :=
  .next (s.serviceEnd port tag ev)

/-! ## The trust record (R371) -/

/-- The format of a trust record (Table — Trust record). -/
def trustOk (r : List Byte) : Bool :=
  let a := numAt r 4 2
  let n := numAt r 8 4
  numAt r 0 4 == 0x54535254 && decide (1 ≤ a ∧ a ≤ 4) && numAt r 6 2 == 0 && decide (1 ≤ n ∧ n ≤ 16384) && numAt r 12 4 == 0
    && decide (16 + 48 * a + n ≤ r.length)

/-- LOAD: illegal while BUSY. The record's bytes, how the read ended, and whether the chain's leaf certifies the fabric
public key are the command's operands. -/
def State.trustLoad (s : State) (r : List Byte) (cpl : Cpl) (leafOk : Bool) : State :=
  if s.opBusy .trust 0 then s.illegal .causeway 0 0x410 else
  let s1 := if s.bme 16 then
      s.hostRead 16 (s.imageAddr 16 (s.rd F.CW_TRUST_SRC_STAITHE 0) (s.rd F.CW_TRUST_SRC_OFFSET 0)) r.length else s
  s1.startOp .trust 0 16 none 1 (.trustLoad r (if s.bme 16 then cpl else .notIssued) leafOk)

/-- The end of a LOAD. A record that could not be read leaves STATUS open (notes/assumptions/26.md). -/
def State.trustStep (s : State) (op : LongOp) (r : List Byte) (cpl : Cpl) (leafOk : Bool) : State :=
  if cpl ≠ .ok then let (v, s1) := s.freeStatus; (s1.wr F.CW_TRUST_STATUS_STATUS 0 v).endOp op none
  else if !trustOk r then (s.wr F.CW_TRUST_STATUS_STATUS 0 2).endOp op none
  else if !leafOk then (s.wr F.CW_TRUST_STATUS_STATUS 0 3).endOp op none
  else State.endOp ({ s with trust := slice r 0 (16 + 48 * numAt r 4 2 + numAt r 8 4) }.wr F.CW_TRUST_STATUS_STATUS 0 1) op none

/-- CW_TRUST_LOAD (R371). -/
def execCwTrustLoad (fn : Fn) (image : List Byte) (cpl : Cpl) (leafOk : Bool) (s : State) : Res :=
  .next (s.pfDo fn (s.trustLoad image cpl leafOk))

end Sys2Proof.Machine
end

