-- ==== Sys2Proof/Machine/Counters.lean ====
section
/-! DEFINITION. Counter views, snapshots and dumps (spec/21_counters.md, R462 to R475). -/

namespace Sys2Proof.Machine
open Sys2Proof

/-- The word of a counter whose whole count is `n`: VALUE and the sticky WRAP (R462). -/
def cntWord (n : Nat) : Nat := n % 2 ^ 48 + (if 2 ^ 48 ≤ n then 2 ^ 48 else 0)

/-- A polder's view of a counter: the count since CREATE (R466). -/
def cntView (raw base : Nat) : Nat := if base ≤ raw then cntWord (raw - base) else (raw + 2 ^ 48 - base % 2 ^ 48) % 2 ^ 48

/-- Are a polder's counters hidden from the PF: FREE, or TDISP-locked (R83, R474)? -/
def State.hidden (s : State) (p : Nat) : Bool := s.pst p == pFree || s.rd F.PLD_STATE_TDISP p != 0

/-- The word of device counter `k` (0 to 1,279), or of polder counters from 1,280 on, in the PF view, from a bank. -/
def State.pfWord (s : State) (bank : SMap Nat) (k : Nat) : Nat :=
  if 1280 ≤ k ∧ s.hidden ((k - 1280) / 160) = true then 0 else cntWord (SMap.get 0 bank k)

/-- The word of counter `j` in polder p's own view, from a bank. -/
def State.polWord (s : State) (bank : SMap Nat) (p j : Nat) : Nat :=
  if 160 ≤ j then 0 else cntView (SMap.get 0 bank (1280 + 160 * p + j)) (SMap.get 0 s.bases (160 * p + j))

/-- What `CNT_WINj` reads on the COUNTERS page of an owner. -/
def State.cntWin (s : State) (o j : Nat) : Nat :=
  let bank := if s.rd F.CNT_WIN_VIEW o = 1 then s.snap else s.counts
  if o ≠ 16 then s.polWord bank o j
  else
    let b := s.rd F.CNT_WIN_BANK 16
    if b < 5 then s.pfWord bank (256 * b + j)
    else if 160 ≤ j then 0 else s.pfWord bank (1280 + 160 * (b - 5) + j)

/-- The dump ring of an owner's view. -/
def dumpRing : RingRegs :=
  { staithe := F.CNT_DUMP_BASE_STAITHE, offset := F.CNT_DUMP_BASE_OFFSET, en := F.CNT_DUMP_CFG_EN
    log2 := F.CNT_DUMP_CFG_LOG2_SIZE, vec := F.CNT_DUMP_CFG_VEC, head := F.CNT_DUMP_HEAD_HEAD
    tail := F.CNT_DUMP_TAIL_TAIL, lost := F.CNT_DUMP_TAIL_LOST }

/-- The number of an owner's dump ring among the rings. -/
def dumpId (o : Nat) : Nat := 512 + o

/-- EV_DUMP_OVERRUN of a dump sequence number, once for each (R473). -/
def State.dumpOverrun (s : State) (seq : Nat) : State :=
  if s.dumpOver = some seq then s else State.raise { s with dumpOver := some seq } 16 evDumpOverrun seq 0

/-- A dump boundary (R468 to R470, R473). The latch delays of the header are free values within 40 ns. -/
def State.dumpBoundary (s : State) : State :=
  let s1 := s.bump F.CNT_CTRL_FRAMES 16 1
  if s1.rd F.CNT_CTRL_FRAMES 16 % max 1 (s1.rd F.CNT_CTRL_K 16) ≠ 0 then s1 else
  let s2 := s1.bump F.CNT_SNAP_SEQ 16 1
  let seq := s2.rd F.CNT_SNAP_SEQ 16
  if !s2.dumpTodo.isEmpty then
    let missed : State := { s2 with dumpMissed := (List.range 17).foldl (fun m o => SMap.put 0 m o (SMap.get 0 m o + 1)) s2.dumpMissed }
    (missed.count (devCnt 26) 1).dumpOverrun seq
  else
    let (v, s3) := s2.fresh
    let lat (i : Nat) : Nat := if i = 1 then 0 else (leBytes 23 v).getD i 0 |>.toNat % 161
    let lats := (List.range 24).map (fun i => if i < 23 then lat i else 0)
    let word (i : Nat) : Nat := ofLe ((lats.drop (8 * i)).take 8 |>.map (BitVec.ofNat 8))
    let hdr := [seq + s3.rd F.CNT_CTRL_K 16 * 2 ^ 32, s3.tick, s3.devNs,
      (match s3.frame with | some f => f.id | none => 0) + s3.rd F.JCT_CEIL_CUR_LEVEL 0 * 2 ^ 32 +
        s3.rd F.PLD_COND_TIER 16 * 2 ^ 36, word 0, word 1, word 2]
    { s3.wr F.CNT_SNAP_LATCHED 16 seq with
      snap := s3.counts, snapHdr := hdr
      dumpTodo := 16 :: (List.range 16).filter (fun p => s3.pst p != pFree && s3.rd F.PLD_CFG_CNT_VIS p == 1) }

/-- Write one dump record to the ring of an owner: the counter words, header words 1 to 15, then word 0 (R471, R472,
R474). A record that finds its ring full is discarded and counted, and EV_DUMP_OVERRUN rises (R473). -/
def State.dumpTo (s : State) (o : Nat) : State :=
  let r := dumpRing
  if s.rd r.en o = 0 ∨ s.bme o = false then s else
  let n := 2 ^ s.rd r.log2 o
  let tail := s.rd r.tail o
  let ring := SMap.get { phase := true, lost := false } s.rings (dumpId o)
  let missed := SMap.get 0 s.dumpMissed o
  if (tail + 1) % n = s.rd r.head o % n then
    State.dumpOverrun { s.bump r.lost o 1 with
      rings := SMap.put { phase := true, lost := false } s.rings (dumpId o) { ring with lost := true }
      dumpMissed := SMap.put 0 s.dumpMissed o (missed + 1) } (s.snapHdr.getD 0 0 % 2 ^ 32)
  else
    let size := if o = 16 then 32768 else 2048
    let cnt := if o = 16 then 3840 else 160
    let addr := s.sthBase o (s.rd r.staithe o) + s.rd r.offset o * 4096 + size * tail
    let words := (List.range cnt).map (fun k => if o = 16 then s.pfWord s.snap k else s.polWord s.snap o k)
    let w0 := b2n ring.phase + 2 * b2n ring.lost + (if o = 16 then 0 else 4 + 16 * o) + cnt * 2 ^ 16 + min missed 65535 * 2 ^ 32
    let hdr := s.snapHdr ++ List.replicate (15 - s.snapHdr.length) 0
    let s1 := ((s.hostWrite o (addr + 128) (words.flatMap (leBytes 8))).hostWrite o (addr + 8) (hdr.flatMap (leBytes 8))).hostWrite
      o addr (leBytes 8 w0)
    let tail' := (tail + 1) % n
    let s2 := { s1.wr r.tail o tail' with
      rings := SMap.put { phase := true, lost := false } s1.rings (dumpId o)
        { phase := if tail' = 0 then !ring.phase else ring.phase, lost := false }
      dumpMissed := SMap.put 0 s1.dumpMissed o 0 }
    (s2.count (devCnt 25) 1).sendMsix o (s.rd r.vec o)

/-- DUMP_WRITE: the record of the next ring in turn (R471). -/
def execDumpWrite (s : State) : Res :=
  .next (match s.dumpTodo with
    | [] => s
    | o :: t => State.dumpTo { s with dumpTodo := t } o)

end Sys2Proof.Machine
end

