-- ==== Sys2Proof/Machine/Reeve.lean ====
section
/-! DEFINITION. The Reeve: boundaries, sample points, admission, the steps of runs and their ends
(spec/08_plans_lodes.md, R171 to R188; spec/04, R76 to R79; spec/02, R533, R536; spec/09, R204, R207, R208; spec/17, R392
to R396). -/

namespace Sys2Proof.Machine
open Sys2Proof

/-! ## Levels and tiers -/

/-- The effective level: the deeper of the MGC ceiling and the host request (R31). -/
def State.effLevel (s : State) : Nat := max (s.rd F.JCT_CEIL_MGC_CEIL 0) (s.rd F.PWR_REQ_LEVEL 0)

/-- The level in force, and the tier in force. -/
def State.level (s : State) : Nat := s.rd F.JCT_CEIL_CUR_LEVEL 0
def State.tier (s : State) : Nat := s.rd F.PLD_COND_TIER 16

/-- CCLK keeps one PLL locked at each level that the envelope cap permits while the part is ACTIVE, and switches among
them; the PLLs of levels shallower than the cap stay off (R392, R402). -/
def State.pllOn (s : State) (lv : Nat) : Bool :=
  s.ready && s.rd F.PWR_STATUS_STATE 0 == 0 && decide (s.rd F.HM_VALUES_ENVELOPE_CAP 0 ≤ lv) && decide (lv < 4)

/-- The VDD_CORE target of a level in millivolts (Table — Core rail). -/
def railMv : Nat → Nat
  | 0 => 850
  | 1 => 780
  | 2 => 720
  | _ => 650

/-- The MGC commands VDD_CORE to the target of a level through VOUT_COMMAND (R395). -/
def State.railTo (s : State) (lv : Nat) : State := State.emit { s with rail := lv } (.vout (railMv lv))

/-- The rail command of a change of level, while the MGC runs its firmware (R393, R394, R421): the rail rises as soon as a
shallower level becomes effective, and falls only once a deeper one is in force. -/
def State.railCommand (s : State) : State :=
  let lv := min s.effLevel s.level
  if s.mgcRuns = false ∨ s.rail = lv then s else s.railTo lv

/-- The device raw tier: the highest tier that a stack holds (R206). -/
def State.rawTier (s : State) : Nat := ((List.range 8).map (fun t => SMap.get 0 s.tierHeld t)).foldl max 0

/-- Put a level in force (R392): the MGC lowers the rail after it (R394). -/
def State.applyLevel (s : State) (lv : Nat) : State :=
  if lv = s.level then s else
  let up := decide (lv < s.level)
  let s1 := (s.wr F.JCT_CEIL_CUR_LEVEL 0 lv).count (devCnt 15) 1
  (if up then s1.wr F.PWR_STATUS_LEVEL_WAIT 0 0 else s1).railCommand

/-- Put a tier in force: S changes on every weir (R207), and the tier sensor reports it (R481); tier 3 taking effect
interrupts long operations (R428). -/
def State.applyTier (s : State) (k : Nat) : State :=
  if k = s.tier then s else
  let s1 := (s.wr F.PLD_COND_TIER 16 k).count (devCnt 16) 1
  let s2 := (List.range 8).foldl (fun t i => (t.wr F.WR_STATE_SLOTS i (tierSlots k)).wr F.WR_STATE_TIER i k) s1
  let s3 := s2.platformEvent 0x0021 (1 + s.tier) (1 + k)
  if k = 3 then s3.haltOps else s3

/-- The first tick that is a multiple of 64 and at least 64 ticks away. -/
def State.applyTick (s : State) : Nat := ceilDiv (s.tick + 64) 64 * 64

/-- A change of the effective level, or of RAIL_OK, meets the Reeve while no frame is in force (R396). A change that is
already pending keeps its apply tick. -/
def State.levelArrives (s : State) : State :=
  if s.frame.isSome then s else
  let lv := s.effLevel
  if lv = s.level then { s with pendLevel := none }
  else if lv < s.level ∧ s.rd F.PWR_STATUS_RAIL_OK 0 = 0 then { s with pendLevel := none }
  else match s.pendLevel with
    | some (v, _) => if v = lv then s else
        State.raiseAll { s with pendLevel := some (lv, s.applyTick) } evLevelChange lv s.applyTick
    | none => State.raiseAll { s with pendLevel := some (lv, s.applyTick) } evLevelChange lv s.applyTick

/-- A change of the raw tier meets the Reeve (R207, R208). -/
def State.tierArrives (s : State) : State :=
  let k := s.rawTier
  let s1 := (List.range 8).foldl (fun t i => t.wr F.WR_STATE_RAW_TIER i k) s
  if s1.frame.isSome then s1 else
  if k = s1.tier then { s1 with pendTier := none }
  else match s1.pendTier with
    | some (v, _) => if v = k then s1 else
        State.raiseAll { s1 with pendTier := some (k, s1.applyTick) } evFreeboardTier k s1.applyTick
    | none => State.raiseAll { s1 with pendTier := some (k, s1.applyTick) } evFreeboardTier k s1.applyTick

/-- LEVEL_APPLY_NO_FRAME (R396). -/
def execLevelApplyNoFrame (s : State) : Res :=
  .next (match s.frame, s.pendLevel with
    | none, some (lv, t) => if t ≤ s.tick then State.applyLevel { s with pendLevel := none } lv else s
    | _, _ => s)

/-- TIER_APPLY_NO_FRAME (R208). -/
def execTierApplyNoFrame (s : State) : Res :=
  .next (match s.frame, s.pendTier with
    | none, some (k, t) => if t ≤ s.tick then State.applyTier { s with pendTier := none } k else s
    | _, _ => s)

/-- Is the present tick `n` ticks before a boundary of the frame in force? -/
def State.beforeBoundary (s : State) (n : Nat) : Bool :=
  match s.frame with
  | none => false
  | some f =>
    let start := s.rd F.RV_FRAME_START_TICK 0
    decide (start < s.tick + n) && (s.tick + n - start) % max 1 f.length == 0

/-- The next level at a sample point (R393, R394): a shallower level only when the rail has settled. -/
def State.nextLevel (s : State) : Nat :=
  if s.effLevel < s.level ∧ s.rd F.PWR_STATUS_RAIL_OK 0 = 0 then s.level else s.effLevel

/-- The sample point of a boundary (R35, R77, R393): the next level and the next tier are taken, their events rise, and a
level that will change interrupts long operations (R428). -/
def State.samplePoint (s : State) : State :=
  if s.beforeBoundary 64 = false ∨ s.sampled.isSome = true then s else
  let lv := s.nextLevel
  let k := s.rawTier
  let b := s.tick + 64
  let held := decide (s.effLevel < s.level) && s.rd F.PWR_STATUS_RAIL_OK 0 == 0
  let s1 := { s with sampled := some (lv, k) }.wr F.PWR_STATUS_LEVEL_WAIT 0
    (if held then 1 else if s.effLevel < s.level then s.rd F.PWR_STATUS_LEVEL_WAIT 0 else 0)
  let s2 := if k ≠ s1.tier then s1.raiseAll evFreeboardTier k b else s1
  if lv ≠ s2.level then (s2.raiseAll evLevelChange lv b).haltOps else s2

/-- SAMPLE_POINT (R35). -/
def execSamplePoint (s : State) : Res := .next s.samplePoint

/-! ## Switches (R184 to R188) -/

/-- The tests 3 to 5 of R116 against a new lode, and the staging test of R186. -/
def State.retest (s : State) (r : Run) (l : Lode) : Option Err :=
  let inE : Option Err := if r.noInput then (if l.minIn = 0 then none else some .berthTooShort) else
    let cap := s.berthSize r.owner r.inRef.staithe - 16
    if cap < r.inRef.len ∨ r.inRef.len < l.minIn then some .berthTooShort else none
  let outE : Option Err := if r.noOutput then (if l.outLen = 0 then none else some .berthTooShort) else
    let cap := s.berthSize r.owner r.outRef.staithe - 16
    if cap < r.outRef.len ∨ (if r.outRef.len = 0 then cap else r.outRef.len) < l.outLen then some .berthTooShort else none
  let begun := !r.noInput && (r.staging == .reading || r.staging == .done)
  match inE, outE with
  | some e, _ => some e
  | none, some e => some e
  | none, none => if begun && decide (r.stageN < l.maxIn) && decide (r.stageN < r.inRef.len) then some .planReplaced else none

/-- Test the queued runs of an owner again after a switch of its plan (R186); `old` are the plans before it. -/
def State.retestRuns (s : State) (old : SMap (Option Plan)) (o : Nat) : State :=
  (s.runs.filter (fun r => r.owner == o && r.phase == .queued)).foldl (fun t r =>
    match t.planOf o with
    | none => gone t r .planReplaced
    | some p =>
      match p.lode r.lode with
      | none => gone t r .planReplaced
      | some l =>
        match t.retest r l with
        | some e => gone t r e
        | none => t.modRun r.id (fun x => { x with steps := (p.stepsOf l).map (fun _ => StepSt.waiting) })) s
where
  /-- The run fails with the code, or with E_ADMISSION_TIMEOUT where that is lower, in the tick in which its wait ends
  (R98, R173, Table — Planning collisions). `MAX_WAIT` is that of the lode under which the run waited. -/
  gone (t : State) (r : Run) (e : Err) : State :=
    t.failRun r.id (match (SMap.get none old o).bind (fun p => p.lode r.lode) with
      | some l => if r.accepted + l.maxWait ≤ t.tick then e.lower .admissionTimeout else e
      | none => e)

/-- The staged plan of an owner takes effect. -/
def State.switchPlan (s : State) (o : Nat) : State :=
  match SMap.get none s.stagedPlans o with
  | none => s
  | some p =>
    State.retestRuns { s with
      plans := SMap.put none s.plans o (if p.lodes.isEmpty then none else some p)
      stagedPlans := SMap.put none s.stagedPlans o none
      planArmed := SMap.put none s.planArmed o none } s.plans o

/-- A plan that does not fit the new frame is replaced by an empty one (R187). -/
def State.dropUnfit (s : State) (f : Frame) (o : Nat) : State :=
  match s.planOf o with
  | none => s
  | some p =>
    match s.planFit o p (some f) with
    | none => s
    | some _ => State.retestRuns ({ s with plans := SMap.put none s.plans o none }.wr F.PLN_STATUS_DROPPED o 1) s.plans o

/-- A frame takes effect with every staged plan (R186, R187), and grants are checked again (R378). -/
def State.switchFrame (s : State) (a : Armed) : State :=
  match s.stagedFrame with
  | none => { s with frameArmed := none }
  | some f =>
    let s1 := { s with frame := some f, stagedFrame := none, frameArmed := none }.wr F.RV_FRAME_START_TICK 0 s.tick
    let s2 := (List.range 17).foldl (fun t o => t.switchPlan o) s1
    let s3 := if a.dropUnfit then (List.range 17).foldl (fun t o => t.dropUnfit f o) s2 else s2
    s3.suspendGrants.signalOpt a.fence none

/-- Is the plan switch of an owner due? -/
def State.planDue (s : State) (o : Nat) : Bool :=
  match SMap.get none s.planArmed o with
  | some a => decide (a.boundary ≤ s.tick)
  | none => false

/-- Plan switches whose boundary is now; `RV_FRAME_START` becomes that boundary (R186). -/
def State.planSwitches (s : State) : State :=
  let due := (List.range 17).filter s.planDue
  if due.isEmpty then s else due.foldl (fun t o => t.switchPlan o) (s.wr F.RV_FRAME_START_TICK 0 s.tick)

/-- The switches that take effect now. -/
def State.switches (s : State) : State :=
  match s.frameArmed with
  | some a => if a.boundary ≤ s.tick then s.switchFrame a else s.planSwitches
  | none => s.planSwitches

/-! ## Boundaries (R79, R204, R533) -/

/-- Does a lode tolerate a tier and a level? -/
def Lode.toleratesTier (l : Lode) (k : Nat) : Bool := decide (k ≤ l.tierMax)
def Lode.toleratesLevel (l : Lode) (lv : Nat) : Bool := bitAt l.levelMask lv

/-- Admitted runs that do not tolerate a value that changed fail at the boundary (R79). -/
def State.boundaryFails (s : State) (tierCh levelCh : Bool) : State :=
  (s.runs.filter (fun r => r.phase == .admitted)).foldl (fun t r =>
    match t.runLode r with
    | none => t
    | some l =>
      let es := (if tierCh && !l.toleratesTier t.tier then [Err.thermalTier] else []) ++
        (if levelCh && !l.toleratesLevel t.level then [Err.levelChange] else [])
      match Err.lowest es with
      | some e => (t.failRun r.id e).countP r.owner 57 1
      | none => t) s

/-- The weirs reload the borrowing credit and take the new CREDIT and LEND (R204). -/
def State.reloadCredit (s : State) : State :=
  (List.range 8).foldl (fun t w => (List.range 16).foldl (fun u p =>
    State.wri { u with lend := SMap.put true u.lend (16 * w + p) (u.rdi F.WR_PLD_LEND w p == 1) } F.WR_PLD_LEFT w p
      (if u.isSealed p then 0 else u.rdi F.WR_PLD_CREDIT w p * tierSlots u.tier / 64)) t) s

/-- A pulse on every pin whose function is FRAME_SYNC_OUT (R525). -/
def State.framePulse (s : State) : State :=
  (List.range 8).foldl (fun t n =>
    if t.rdi F.PMX_SB_CUR_FUNC 0 n = 8 ∧ t.rdi F.PMX_SB_PARKED 0 n = 0 then t.emit (.pulse n 64) else t) s

/-- The changes that every boundary brings, after its switches and its level and tier: credits, admission of polders newly
ACTIVE, the frame's counts of requests, and the counters' dump (R204, R380, R383, R468). -/
def State.boundaryRest (s : State) : State :=
  let s1 : State := { s.reloadCredit with
    polders := (List.range 16).foldl (fun m p =>
      SMap.put polderAux0 m p { SMap.get polderAux0 m p with waitBoundary := false }) s.polders
    sentFrame := [], rates := [], sampled := none, boundaryDone := s.tick }
  ((s1.dumpBoundary).count (devCnt 14) 1).framePulse

/-- A frame boundary (R533): switches, then the level and the tier, then the failures that they cause. -/
def State.boundary (s : State) : State :=
  if s.beforeBoundary 0 = false ∨ s.boundaryDone = s.tick then s else
  let s1 := s.switches
  let (lv, k) := s.sampled.getD (s.level, s.tier)
  let s2 := (s1.applyLevel lv).applyTier k
  (s2.boundaryFails (k != s.tier) (lv != s.level)).boundaryRest

/-- FRAME_BOUNDARY (R533). -/
def execFrameBoundary (s : State) : Res := .next s.boundary

/-- The first frame takes effect (R188). A level or tier change whose apply tick has come applies with it; a later one
waits for the frame's first sample point (R536). -/
def State.firstFrame (s : State) : State :=
  match s.frame, s.frameArmed with
  | none, some a =>
    if s.tick < a.boundary then s else
    let s1 := match s.pendLevel with | some (lv, t) => if t ≤ s.tick then s.applyLevel lv else s | none => s
    let s2 := match s1.pendTier with | some (k, t) => if t ≤ s1.tick then s1.applyTier k else s1 | none => s1
    (State.switches { s2 with pendLevel := none, pendTier := none }).boundaryRest
  | _, _ => s

/-- FIRST_FRAME_START (R188, R536). -/
def execFirstFrameStart (s : State) : Res := .next s.firstFrame

/-! ## Admission (R171 to R173) -/

/-- Is a switch that affects the owner armed, and when? -/
def State.armedFor (s : State) (o : Nat) : Option Nat :=
  match s.frameArmed, SMap.get none s.planArmed o with
  | some a, some b => some (min a.boundary b.boundary)
  | some a, none => some a.boundary
  | none, some b => some b.boundary
  | none, none => none

/-- The instances of a lode that admitted runs hold. -/
def State.instUsed (s : State) (o lode : Nat) : List Nat :=
  (s.runs.filter (fun r => r.owner == o && r.lode == lode && r.phase != .queued)).map (·.inst)

/-- The lowest free instance of a lode (R160). -/
def State.freeInst (s : State) (o lode : Nat) (l : Lode) : Option Nat :=
  (List.range l.instances).find? (fun i => !(s.instUsed o lode).contains i)

/-- Would a PF run, once admitted, hold a translation into a polder whose TDISP lock waits (R82)? -/
def State.lockHolds (s : State) (r : Run) : Bool :=
  r.owner == 16 && (List.range 16).any (fun p => (s.aux p).lockWait.isSome && s.holdsInto { r with phase := .admitted } p)

/-- The waits of R171 hold, but for the free instance: the polder admits, staging has ended, check 8 is done, and no
switch comes before the planned end. A polder whose memory STOP_INTERFACE_REQUEST zeroes admits nothing meanwhile, and a PF
run that would enter a polder under a waiting lock waits too (R82, R85, notes/assumptions/107.md). -/
def State.mayAdmit (s : State) (r : Run) (l : Lode) : Bool :=
  let o := r.owner
  let open_ := o == 16 || (s.pst o == pActive && (s.rd F.PLD_STATE_TDISP o == 0 || s.rd F.PLD_STATE_TDISP o == 2)
    && !(s.aux o).waitBoundary && !s.opBusy .pld o)
  open_ && !s.lockHolds r && s.pwrActive && r.staging == .done && !r.deferred &&
    (match s.armedFor o with | some b => decide (s.tick + l.duration ≤ b) | none => true)

/-- Does an admitted run of the owner pin RET (R259)? -/
def State.retPinned (s : State) (o : Nat) : Bool :=
  s.rd F.EP_STATE_RET_VALID o == 1 &&
    s.runs.any (fun r => r.owner == o && r.phase != .queued && r.pin + 1 == s.rd F.EP_STATE_PUB o)

/-- The first two waits of an update run (R259) hold it back. -/
def State.updateBusy (s : State) (o : Nat) : Bool :=
  s.rd F.EP_STATE_STATE o != epReady || s.updating o

/-- The epoch that a run pins (R257). -/
def State.pinOf (s : State) (r : Run) : Option Nat :=
  let v := low32 (r.word 5)
  let pub := s.rd F.EP_STATE_PUB r.owner
  if v = 0 ∨ v = pub then some pub
  else if v + 1 = pub ∧ s.rd F.EP_STATE_RET_VALID r.owner = 1 ∧ s.rd F.EP_STATE_RET_OPEN r.owner = 1 then some v
  else none

/-- The journal range of an owner translates, in one valid PINNED object, to one contiguous run of Mere offsets (R268):
the offset of its first byte. -/
def State.jnlPlace (s : State) (o : Nat) : Option Nat :=
  let va := s.rd F.EP_JNL_VA o * 64
  let n := 8 * s.rd F.EP_JNL_SIZE_CAP o
  match s.fromLocal o .context (s.rd F.EP_JNL_CTX o) with
  | none => none
  | some c =>
    match s.mobAt c (va / 4096) with
    | none => none
    | some m =>
      let pages := if n = 0 then 1 else (va + n - 1) / 4096 - va / 4096 + 1
      if !m.pinned || decide (m.page + m.pages < va / 4096 + pages) then none else
      match s.xlateIn m va false with
      | .mere off =>
        if (List.range pages).all (fun i => i == 0 || (match s.xlateIn m ((va / 4096 + i) * 4096) false with
            | .mere x => x == off - va % 4096 + 4096 * i
            | _ => false)) then some off else none
      | _ => none

/-- The translation failure of a journal range (R143, R268): the address and the kind. A range that leaves its object meets no
object; one whose pages are not one run of Mere offsets meets a bad target (notes/assumptions/115.md). -/
def State.jnlFault (s : State) (o : Nat) : Nat × Nat :=
  let va := s.rd F.EP_JNL_VA o * 64
  let last := va + 8 * s.rd F.EP_JNL_SIZE_CAP o - 1
  match s.fromLocal o .context (s.rd F.EP_JNL_CTX o) with
  | none => (va, kNoObject)
  | some c =>
    match s.mobAt c (va / 4096) with
    | none => (va, kNoObject)
    | some m =>
      if !m.pinned then (va, kClass)
      else if m.page + m.pages ≤ last / 4096 then ((m.page + m.pages) * 4096, kNoObject)
      else
        let bad := ((List.range (last / 4096 - va / 4096 + 1)).map (fun i => max va ((va / 4096 + i) * 4096))).findSome? (fun a =>
          match s.xlateIn m a false with
          | .mere _ => none
          | .fail k => some (a, k)
          | _ => some (a, kBadTarget))
        bad.getD (va, kBadTarget)

/-- The codes of the admission failures (R172, R78, R257, R268, R381, R442). -/
def State.admitCodes (s : State) (r : Run) (p : Plan) (l : Lode) : List Err :=
  let steps := p.stepsOf l
  let badTier := !l.toleratesTier s.tier || (match s.sampled with | some (_, k) => !l.toleratesTier k | none => false)
  let badLevel := !l.toleratesLevel s.level || (match s.sampled with | some (lv, _) => !l.toleratesLevel lv | none => false)
  let bench := steps.any (fun x => (List.range x.laneCount).any (fun i => s.benched (x.lane + i)))
  let jnl := p.updateLode l && (SMap.get none s.jnlMap r.owner).isNone && (s.jnlPlace r.owner).isNone
  let ports := steps.filterMap (fun x =>
    if x.eng = some .causeway then
      let q := x.lane - 0x140
      (match p.grants[x.grant]? with
      | some g =>
        if s.route 3 g.peer ≠ q then some Err.peerAbsent
        else if s.cwSt q = cwQuar then some .portQuarantined
        else if s.cwSt q ≠ cwUp then some .peerAbsent else none
      | none => none)
    else none)
  (if badTier then [Err.thermalTier] else []) ++ (if badLevel then [.levelChange] else []) ++
  (if bench then [.engineBenched] else []) ++ (if (s.pinOf r).isNone then [.epochGone] else []) ++
  (if jnl then [.faultPinned] else []) ++ ports

/-- Admit a run. -/
def State.admitRun (s : State) (r : Run) (p : Plan) (l : Lode) (inst : Nat) : State :=
  let o := r.owner
  let upd := p.updateLode l
  let s1 := s.modRun r.id (fun x => { x with
    phase := .admitted, admittedAt := s.tick, under := some p, inst := inst, pin := (s.pinOf r).getD 0
    steps := (p.stepsOf l).map (fun _ => StepSt.waiting) })
  let s2 := ((s1.count (devCnt 3) 1).countP o 2 1).countP o 3 (s.tick - r.accepted)
  if !upd then s2 else
  { s2.wr F.EP_STATE_RET_VALID o 0 with
    jnlMap := if (SMap.get none s2.jnlMap o).isSome then s2.jnlMap else SMap.put none s2.jnlMap o (s2.jnlPlace o) }

/-- A window of a lode, for the run at the head of one queue. -/
def State.windowOf (s : State) (r : Run) (p : Plan) (l : Lode) : State :=
  let o := r.owner
  let upd := p.updateLode l
  match s.mayAdmit r l, s.freeInst o r.lode l with
  | true, some inst =>
    if upd && s.updateBusy o then s
    else if upd && s.retPinned o then s.wr F.EP_STATE_RET_OPEN o 0
    else match Err.lowest (s.admitCodes r p l) with
      | some e =>
        let f := s.jnlFault o
        (if (s.admitCodes r p l).contains .faultPinned then s.faultRecord r f.2 0 f.1 false false else s).failRun r.id e
      | none => s.admitRun r p l inst
  | _, _ => s

/-- Does a lode have a window in this tick that has not been taken (R159)? -/
def State.windowDue (s : State) (o lode : Nat) (l : Lode) : Bool :=
  (s.tick - s.rd F.RV_FRAME_START_TICK 0) % max 1 l.period == l.phase &&
    SMap.get 0 s.winAt (65536 * o + lode) != s.tick + 1

/-- The window of lode L of an owner (R159, R171): the head run of each queue, in ascending queue number
(notes/assumptions/48.md). -/
def State.window (s : State) (o lode : Nat) : State :=
  match s.frame, s.planOf o with
  | some _, some p =>
    match p.lode lode with
    | none => s
    | some l =>
      if s.windowDue o lode l = false then s else
      (List.range 1024).foldl (fun t q =>
        match t.runs.find? (fun r => r.queue == q && r.phase == .queued) with
        | some r => if r.owner = o ∧ r.lode = lode then t.windowOf r p l else t
        | none => t) { s with winAt := SMap.put 0 s.winAt (65536 * o + lode) (s.tick + 1) }
  | _, _ => s

/-- ADMISSION_WINDOW (R171). -/
def execAdmissionWindow (fn : Fn) (lode : Nat) (s : State) : Res := .next (s.window fn.idx lode)

/-- ADMISSION_TIMEOUT (R173). A window at the same tick comes first. -/
def State.admitTimeout (s : State) (id : Nat) : State :=
  match s.run? id with
  | none => s
  | some r =>
    match s.runLode r with
    | none => s
    | some l => if r.phase = .queued ∧ r.accepted + l.maxWait ≤ s.tick then s.failRun id .admissionTimeout else s

/-- ADMISSION_TIMEOUT (R173). -/
def execAdmissionTimeout (run : Nat) (s : State) : Res := .next (s.admitTimeout run)

/-! ## Steps (R174 to R177) -/

/-- May a step of an OPEN polder start before its planned tick (R176, R336)? -/
def State.mayEarly (s : State) (r : Run) (p : Plan) (x : PStep) (i : Nat) : Bool :=
  let dep (d : Nat) : Bool := d == 0x3F || stepOver r.steps[d]?
  dep x.dep0 && dep x.dep1 &&
  !(decide (x.eng = some .planisher) && decide (0 < plPopCount (p.desc x))) && s.mayWork r i x

/-- A Tarn step that names a slab, and whether it changes the slab. -/
def slabUse (p : Plan) (x : PStep) : Option Bool :=
  if x.eng = some .tarn then
    let op := (tarnDesc (p.desc x)).op
    if op = 2 then none else some (op == 1 || op == 3)
  else none

/-- The start tick of a Tarn step whose span takes in the present tick (R351): from START to START + DURATION in a SEALED
polder, though its run may have failed meanwhile; in an OPEN one from its start to its completion. -/
def State.slabSpan (s : State) (q : Run) (z : PStep) (st : StepSt) (live : Bool) : Option Nat :=
  let sealed := s.isSealed q.owner && decide (s.tick < q.admittedAt + z.start + z.duration)
  match st with
  | .running t | .worked t | .stalled t _ _ | .filled t _ _ => if live || sealed then some t else none
  | .complete => if sealed then some (q.admittedAt + z.start) else none
  | .waiting => none

/-- The Tarn steps under way that conflict with one that starts now (R351): run, step, lane and start tick. -/
def State.slabRivals (s : State) (r : Run) (p : Plan) (i : Nat) (x : PStep) : List (Nat × Nat × Nat × Nat) :=
  match slabUse p x with
  | none => []
  | some w =>
    ((s.runs.map (·, true) ++ s.ended.map (·, false)).filter (fun q =>
        q.1.owner == r.owner && q.1.phase != .queued && q.1.word 4 == r.word 4)).flatMap (fun q =>
      match s.runPlan q.1 with
      | none => []
      | some qp =>
        ((List.zip (s.stepsOf q.1) q.1.steps).zipIdx.filterMap (fun y =>
          if q.1.id = r.id ∧ y.2 = i then none else
          match slabUse qp y.1.1, s.slabSpan q.1 y.1.1 y.1.2 q.2 with
          | some w', some t => if w || w' then some (q.1.id, y.2, y.1.1.lane, t) else none
          | _, _ => none)))

/-- A Tarn conflict: the step that starts later fails at its planned end and counts; of two that start in one tick, the
one on Tarn 1 (R351). -/
def State.slabConflict (s : State) (r : Run) (p : Plan) (i : Nat) (x : PStep) : State :=
  let lose (t : State) (id j : Nat) : State := (t.bump F.TN_STATUS_CONFLICTS r.owner 1).late id j .indexRange
  (s.slabRivals r p i x).foldl (fun t y =>
    if y.2.2.2 = s.tick ∧ x.lane < y.2.2.1 then (if (s.run? y.1).isSome then lose t y.1 y.2.1 else t) else lose t r.id i) s

/-- A step of an admitted run starts: at its planned tick, or earlier in an OPEN polder (R174 to R176). A run that is to
stop at its next step boundary ends here. -/
def State.stepStart (s : State) (id i : Nat) : State :=
  match s.run? id with
  | none => s
  | some r =>
    match r.phase, s.runPlan r, s.stepOf r i, r.steps[i]? with
    | .admitted, some p, some x, some .waiting =>
      let at_ := r.admittedAt + x.start
      if s.tick = at_ ∨ (s.tick < at_ ∧ s.mayEarly r p x i = true) then
        match r.stop with
        | some e => s.failRun id (s.withDue id e)
        | none => ((s.modRun id (fun q => q.setStep i (.running s.tick))).slabStart r i x).slabConflict r p i x
      else s
    | _, _, _, _ => s

/-- STEP_START (R174). -/
def execStepStart (run step : Nat) (s : State) : Res := .next (s.stepStart run step)

/-- What a step leaves when it completes: busy ticks and step counts, the Planisher's flags, and the tiles that a consumer
did not take (R311, R334). -/
def State.stepCounts (s : State) (r : Run) (p : Plan) (x : PStep) (i start : Nat) : State :=
  let busy := s.tick - start
  match x.eng with
  | some .anvil =>
    let t := x.lane - 0x100
    ((s.dropScales t r.id i).count (512 + 32 * t + 6) busy).countP r.owner 96 busy
  | some .planisher =>
    let t := x.lane - 0x108
    let flagged := match SMap.get none s.pls t with
      | some q => q.run == r.id && q.step == i && q.flags.any (· != 0)
      | none => false
    let s1 := (s.bump F.PL_COUNT_STEPS t 1).countP r.owner 98 1
    let s2 := if flagged then (s1.bump F.PL_COUNT_FLAGGED t 1).countP r.owner 99 1 else s1
    let s3 : State := { s2 with pls := match SMap.get none s2.pls t with
      | some q => if q.run = r.id ∧ q.step = i then SMap.put none s2.pls t none else s2.pls
      | none => s2.pls }
    let feeds := match s.runLode r with | some l => !(p.feeders l i).isEmpty | none => false
    if !feeds then s3 else
    let q := SMap.get [] s3.tiles t
    let keep := q.filter (fun y => y.run != r.id)
    if keep.length = q.length then s3 else
      ({ s3 with tiles := SMap.put [] s3.tiles t keep }).bump F.AV_QUEUE_DISCARDED t (q.length - keep.length)
  | some .riddle => (spine s busy).bump F.RD_STATUS_SELECTS (x.lane - 0x11A) 1
  | _ => spine s busy
where
  /-- Busy ticks and completed steps of a spine engine. -/
  spine (s : State) (busy : Nat) : State :=
    (List.range x.laneCount).foldl (fun t j =>
      match spineCnt (x.lane + j) with
      | some k => (t.count k busy).count (k + 2) 1
      | none => t) s

/-- A step completes. With its last step a run of an OPEN polder ends at once, and any other is RELEASING (R175, R176,
R178). -/
def State.stepComplete (s : State) (id i : Nat) : State :=
  match s.run? id with
  | none => s
  | some r =>
    match s.runPlan r, s.runLode r, s.stepOf r i with
    | some p, some l, some x =>
      let start := match r.steps[i]? with | some (.running t) | some (.worked t) => some t | _ => none
      match start with
      | none => s
      | some t0 =>
        if r.phase ≠ .admitted ∨ workOver r p l i x = false ∨ r.late.any (fun y => y.1 == i) = true then s else
        let s1 := ((s.modRun id (fun q => q.setStep i .complete)).stepCounts r p x i t0).dropPaths r x
        match r.stop with
        | some e => s1.failRun id (s1.withDue id e)
        | none =>
          let all := match s1.run? id with | some q => q.steps.all (fun y => decide (y = .complete)) | none => false
          if !all then s1
          else if s.isSealed r.owner then s1.modRun id (fun q => { q with phase := .releasing })
          else (s1.countP r.owner 56 (s.plannedEnd r - s.tick)).completeRun id
    | _, _, _ => s

/-- STEP_COMPLETE (R176, R178). -/
def execStepComplete (run step : Nat) (s : State) : Res := .next (s.stepComplete run step)

/-- A step has reached its planned end and has not completed (R177, R98). -/
def State.stepDeadline (s : State) (id i : Nat) : State :=
  match s.run? id with
  | none => s
  | some r =>
    match s.runPlan r, s.runLode r, s.stepOf r i with
    | some p, some l, some x =>
      if r.phase ≠ .admitted ∨ s.tick < r.admittedAt + x.start + x.duration ∨ stepOver r.steps[i]? = true then s else
      match s.act? id i with
      | some a => if x.eng = some .causeway then s.remoteDeadline a else go s r p l
      | none => go s r p l
    | _, _, _ => s
where
  /-- Fail the run with the lowest code of its steps. -/
  go (s : State) (r : Run) (p : Plan) (l : Lode) : State :=
    let codes := s.endCodes r p l
    let s1 := codes.foldl (fun t y => match s.stepOf r y.1 with
      | some x => (List.range x.laneCount).foldl (fun u j =>
          match spineCnt (x.lane + j) with | some k => u.count (k + 3) 1 | none => u) t
      | none => t) s
    let s2 := if codes.any (fun y => decide (y.2 = .deadline)) then (s1.count (devCnt 12) 1).countP r.owner 52 1 else s1
    match Err.lowest (codes.map (·.2) ++ s.stallCodes r ++ r.stop.toList) with
    | some e => s2.failRun id e
    | none => s2

/-- STEP_DEADLINE (R177). -/
def execStepDeadline (run step : Nat) (s : State) : Res := .next (s.stepDeadline run step)

/-- A RELEASING run reaches its planned end (R12, R175). -/
def State.runRelease (s : State) (id : Nat) : State :=
  match s.run? id with
  | none => s
  | some r => if r.phase = .releasing ∧ s.plannedEnd r ≤ s.tick then s.completeRun id else s

/-- RUN_RELEASE (R175). -/
def execRunRelease (run : Nat) (s : State) : Res := .next (s.runRelease run)

end Sys2Proof.Machine
end

