-- ==== Sys2Proof/Machine/Hallmark.lean ====
section
/-! DEFINITION. The Hallmark bank: counted settings, strikes, the permanent log and its mirror registers
(spec/22_management_hallmark.md, R487 to R496; R34, R402). -/

namespace Sys2Proof.Machine
open Sys2Proof

/-! ## The log -/

/-- FIELD_REPAIR entries of the log. -/
def Bank.repairEntries (b : Bank) : Nat := (b.log.filter (fun e => e.setting == hmRepair)).length

/-- Is a log entry free for the setting (R493)? -/
def Bank.logFree (b : Bank) (setting : Nat) : Bool :=
  decide (b.log.length < 1024) && (setting != hmRepair || decide (b.repairEntries < 896))

/-! ## Log entries (Table — Log entry) -/

/-- One bit of CRC-8 with polynomial 0x07. -/
def crc8Bit (c : Nat) : Nat := if 128 ≤ c then Nat.xor (c * 2 % 256) 7 else c * 2

/-- CRC-8 over bytes, initial value 0, most significant bit first. -/
def crc8 (bs : List Byte) : Nat :=
  bs.foldl (fun c b => (List.range 8).foldl (fun c' _ => crc8Bit c') (Nat.xor c b.toNat)) 0

/-- The low 32 bits of word 0. -/
def LogEntry.word0 (e : LogEntry) : Nat :=
  e.setting % 16 + e.outcome % 8 * 2 ^ 4 + b2n e.claim * 2 ^ 7 + e.target % 256 * 2 ^ 8 + e.strike % 128 * 2 ^ 16

/-- The bytes that CHECK covers. -/
def LogEntry.covered (e : LogEntry) : List Byte := leBytes 4 e.word0 ++ leBytes 8 e.old ++ leBytes 8 e.new ++ leBytes 8 e.ns

/-- The entry with its CHECK. -/
def LogEntry.sealed (e : LogEntry) : LogEntry := { e with check := crc8 e.covered }

/-- Does CHECK hold (R496)? -/
def LogEntry.checks (e : LogEntry) : Bool := e.check == crc8 e.covered

/-- The 32 bytes of an entry. -/
def LogEntry.bytes (e : LogEntry) : List Byte :=
  leBytes 4 e.word0 ++ leBytes 1 e.check ++ leBytes 3 0 ++ leBytes 8 e.old ++ leBytes 8 e.new ++ leBytes 8 e.ns

/-! ## The mirror (Table — Hallmark and mailbox registers) -/

/-- Write a list of 64-bit words into an array of registers. -/
def State.wrWords (s : State) (f : Fld) (first : Nat) (bs : List Byte) : State :=
  (List.range (bs.length / 8)).foldl (fun t i => t.wri f 0 (first + i) (numAt bs (8 * i) 8)) s

/-- The HALLMARK page and `CW_ID` show the bank (R40). Byte n of a key stands at byte n of its registers. -/
def State.hmMirror (s : State) : State :=
  let b := s.bank
  let w (t : State) (x : Fld × Nat) : State := t.wr x.1 0 x.2
  let fab := b.value hmFabric
  let s1 := [(F.HM_VALUES_SECURITY_VERSION, b.value hmSecurity), (F.HM_VALUES_ENVELOPE_CAP, b.value hmCap),
    (F.HM_VALUES_SEALED_ONLY, b.value hmSealedOnly), (F.HM_VALUES_DEBUG_CLOSE, b.value hmDebugClose),
    (F.HM_VALUES_PORT_MAP, b.value hmPortMap), (F.HM_VALUES_DEV_ID, fab % 256), (F.HM_VALUES_DOMAIN, fab / 256),
    (F.HM_STRIKES_SECURITY_VERSION, b.strikes hmSecurity 0), (F.HM_STRIKES_OWNER_KEY, b.strikes hmOwnerKey 0),
    (F.HM_STRIKES_FABRIC_IDENTITY, b.strikes hmFabric 0), (F.HM_STRIKES_ENVELOPE_CAP, b.strikes hmCap 0),
    (F.HM_STRIKES_SEALED_ONLY, b.strikes hmSealedOnly 0), (F.HM_STRIKES_DEBUG_CLOSE, b.strikes hmDebugClose 0),
    (F.HM_STRIKES_PORT_MAP, b.strikes hmPortMap 0), (F.HM_STRIKES_ASSAY_SIGNER, b.strikes hmSigner 0),
    (F.HM_LOG_ENTRIES, b.log.length), (F.HM_LOG_REPAIR_ENTRIES, b.repairEntries),
    (F.CW_ID_DEV_ID, fab % 256), (F.CW_ID_DOMAIN, fab / 256), (F.CW_ID_PORT_MAP, b.value hmPortMap)].foldl w s
  let s2 := (s1.wri F.HM_UID_UID 0 0 b.uid0).wri F.HM_UID_UID 0 1 b.uid1
  let s3 := s2.wrWords F.HM_OWNER_KEY_KEY 0 (b.ownerKey.getD (List.replicate 96 0))
  (List.range 8).foldl (fun t k => t.wrWords F.HM_SIGNER_HASH (6 * k) (b.signer (k + 1))) s3

/-! ## Strikes -/

/-- A master of the power junction changes (R31, R33, R393, R395): RAIL_OK falls when the target of the effective level
changes, LEVEL_WAIT when no shallower level waits any longer, the MGC commands the rail of a shallower level, and the change
meets the Reeve. R33 gives its way to the Reeve at most 3 ticks; the model takes none, so a change reaches the Reeve with
the command that makes it (notes/assumptions/121.md). -/
def State.setLevelMaster (s : State) (f : Fld) (v : Nat) : State :=
  let s1 := s.wr f 0 v
  if s1.effLevel = s.effLevel then s1 else
  let s2 := s1.wr F.PWR_STATUS_RAIL_OK 0 0
  let s3 := (if s2.effLevel < s2.level then s2 else s2.wr F.PWR_STATUS_LEVEL_WAIT 0 0).railCommand
  if s3.ready then s3.levelArrives else s3

/-- What a committed strike brings beside the mirror (Table — Strike effects). -/
def State.strikeEffect (s : State) (setting : Nat) : State :=
  if setting = hmFabric then
    let s1 := (List.range 12).foldl (fun t i => let (v, t1) := t.fresh; t1.wri F.CW_PUBKEY_KEY 0 i v) s
    (List.range 12).foldl (fun t n => if t.cwSt n = cwQuar then t else t.cwDownPort n) s1
  else if setting = hmCap then
    s.setLevelMaster F.JCT_CEIL_MGC_CEIL (max (s.rd F.JCT_CEIL_MGC_CEIL 0) (s.bank.value hmCap))
  else if setting = hmPortMap then
    (List.range 12).foldl (fun t n => if t.portUsable n then t else
      if t.cwSt n = cwQuar then t else t.cwDownPort n) s
  else s

/-- The outcomes of a strike request that has passed its authorisation (R492 to R494). -/
inductive Strike where
  | struck (index : Nat)
  | logFull
  | limit (index : Nat)
  | value (index : Nat)
  deriving DecidableEq, Repr

/-- A refusal that is not logged counts in REJECTS. -/
def State.reject (s : State) : State := s.bump F.HM_LOG_REJECTS 0 1

/-- Append an entry to the log. -/
def State.logAppend (s : State) (e : LogEntry) : State :=
  State.hmMirror { s with bank := { s.bank with log := s.bank.log ++ [e] } }

/-- A strike request, after its authorisation: log space, limit, value rule, then the commit (R492 to R495). `row` is the
key or hash that the commit writes to the setting's next key row before its entry. -/
def State.strike (s : State) (setting target : Nat) (claim : Bool) (old new : Nat) (valueOk : Bool)
    (row : Option (List Byte)) : Strike × State :=
  let n := s.bank.strikes setting target
  let i := s.bank.log.length
  let e (oc : Nat) : LogEntry :=
    LogEntry.sealed { setting := setting, outcome := oc, claim := claim, target := target, strike := n + 1, old := old
                      new := new, ns := s.devNs, check := 0 }
  if s.bank.logFree setting = false then (.logFull, s.reject)
  else if strikeLimit setting ≤ n then (.limit i, s.logAppend (e ocLimit))
  else if valueOk = false then (.value i, s.logAppend (e ocValue))
  else
    let b := s.bank
    let b1 := match row with
      | none => b
      | some k => if setting = hmOwnerKey then { b with ownerRows := b.ownerRows ++ [k] }
                  else { b with signerRows := b.signerRows ++ [(target, k)] }
    (.struck i, (State.logAppend { s with bank := b1 } (e ocStruck)).strikeEffect setting)

/-- SPARE_LEFT of a vault: 48 less its FIELD_REPAIR strikes; below 6 it is a replace cause, tested at each strike
(Table — Replace causes). -/
def State.spareLeft (s : State) (v : Nat) : State :=
  let n := 48 - s.bank.strikes hmRepair v
  let s1 := s.wri F.TWR_VSTAT_SPARE_LEFT (v / 32) (v % 32) n
  if n < 6 then s1.setCause .spare else s1

end Sys2Proof.Machine
end

