-- ==== Sys2Proof/Machine/Towers.lean ====
section
/-! DEFINITION. Freeboard temperatures, thermal trips, retirement by command, field repair and patrol scrub
(spec/09_towers_memory.md, R205 to R225, R540). -/

namespace Sys2Proof.Machine
open Sys2Proof

/-! ## Freeboard (R205 to R209) -/

/-- A temperature in units of 0.5 °C, rounded down; readings are in thousandths of a degree (R205). -/
def tempCode (x : Nat) : Nat := min (x / 500) 0xFE

/-- The threshold T_k of a tier, in thousandths of a degree (R206). -/
def tierThresh : Nat → Nat
  | 1 => 90000
  | 2 => 93000
  | _ => 95000

/-- The advisory threshold (R209), and the temperature of a stack with no valid sensor (R205). -/
def advisoryTemp : Nat := 85000
def blindTemp : Nat := 95000

/-- The byte field of `TWR_VTEMPk` for local vault 8k + j. -/
def vtempFld (j : Nat) : Fld := { F.TWR_VTEMP_BYTE0 with lo := 8 * j }

/-- The series below T_k − 2 °C of one stack and tier, after a sample (R206): its first sample, or none. -/
def State.coolStep (s : State) (t x k : Nat) : State :=
  let key := 4 * t + k
  let old := SMap.get 0 s.coolSince key
  let c := if x < tierThresh k - 2000 then (if old = 0 then s.ns + 1 else old) else 0
  { s with coolSince := SMap.put 0 s.coolSince key c }

/-- Has the series below T_k − 2 °C lasted one full second? -/
def State.cooled (s : State) (t k : Nat) : Bool :=
  let c := SMap.get 0 s.coolSince (4 * t + k)
  c != 0 && decide (c - 1 + 1000000000 ≤ s.ns)

/-- The highest tier that a stack holds after a sample at temperature x (R206): tiers are taken together and released one
by one. -/
def State.heldTier (s : State) (t x held : Nat) : Nat :=
  ((List.range 4).filter (fun k => k != 0 &&
    (decide (tierThresh k ≤ x) || (decide (k ≤ held) && !s.cooled t k)))).foldl max 0

/-- One stack's sample (Table — `TWR_TEMP`, R205, R206, R209). -/
def State.stackSample (s : State) (t : Nat) (rs : List (Option Nat)) : State :=
  let r := (List.range 32).map (fun v => (rs[v]?).getD none)
  let valid := r.filterMap id
  let x := if valid.isEmpty then blindTemp else valid.foldl max 0
  let (hot, s0) := match (List.range 32).find? (fun v => (r[v]?).getD none == some x) with
    | some v => (v, s)
    | none => s.fresh
  let s1 := (List.range 32).foldl (fun u v =>
    u.wri (vtempFld (v % 8)) t (v / 8) (match (r[v]?).getD none with | some y => tempCode y | none => 0xFF)) s0
  let s2 := [1, 2, 3].foldl (fun u k => u.coolStep t x k) s1
  let held := s2.heldTier t x (SMap.get 0 s.tierHeld t)
  let s3 := [(F.TWR_TEMP_MAX, tempCode x), (F.TWR_TEMP_HOT_VAULT, hot), (F.TWR_TEMP_TIER_HELD, held),
    (F.TWR_TEMP_ADVISORY, if advisoryTemp ≤ x then 1 else 0), (F.TWR_TEMP_BAD_SENSORS, 32 - valid.length)].foldl
      (fun (u : State) (p : Fld × Nat) => u.wr p.1 t p.2) s2
  { s3 with temps := SMap.put 0 s3.temps t x, tierHeld := SMap.put 0 s3.tierHeld t held }

/-- The towers at or above 85 °C. -/
def State.advisory (s : State) : Nat := ((List.range 8).map (fun t => s.rd F.TWR_TEMP_ADVISORY t * 2 ^ t)).sum

/-- Raise EV_ADVISORY with the present set. -/
def State.raiseAdvisory (s : State) : State :=
  State.raiseAll { s with advNs := some s.ns, advSet := s.advisory } evAdvisory s.advisory 0

/-- Is the second after the last EV_ADVISORY over (R209)? -/
def State.advFree (s : State) : Bool :=
  match s.advNs with
  | none => true
  | some n => decide (n + 1000000000 ≤ s.ns)

/-- The 1 ms sample of all stacks and of the base die (R205 to R209). -/
def State.tempSample (s : State) (rs : List (List (Option Nat))) (base : Nat) : State :=
  let s1 := (List.range 8).foldl (fun t i => t.stackSample i ((rs[i]?).getD [])) s
  let s2 := (s1.wr F.PWR_TEMP_BASE_MAX 0 (tempCode base)).wr F.PLD_COND_ADVISORY 16 (if s1.advisory = 0 then 0 else 1)
  let s3 := if s2.advisory ≠ s2.advSet ∧ s2.advFree = true then s2.raiseAdvisory else s2
  if s3.ready ∧ s3.rawTier ≠ s.rawTier then s3.tierArrives else s3

/-- TEMP_SAMPLE (R205). -/
def execTempSample (readings : List (List (Option Nat))) (base : Nat) (s : State) : Res :=
  .next (s.tempSample readings base)

/-- ADVISORY_HOLDOFF_END (R209): the deferred record rises if the set then differs from the set last reported. -/
def execAdvisoryHoldoffEnd (s : State) : Res :=
  .next (if s.advNs.isSome ∧ s.advFree = true ∧ s.advisory ≠ s.advSet then s.raiseAdvisory else s)

/-! ## Thermal trip (R210, R406, R407) -/

/-- A trip comparator fires; sources 0 to 7 are the stacks, 8 and on the base die. THERMTRIP_N falls, the MGC records
the trip, and the next start is COLD. -/
def State.thermalTrip (s : State) (source : Nat) : State :=
  { s with
    board := { s.board with trip := true, coldNext := true }
    patina := { s.patina with trips := s.patina.trips ++ [(source, s.ns)] } }

/-- THERMAL_TRIP (R210). -/
def execThermalTrip (source : Nat) (s : State) : Res := .next (s.thermalTrip source)

/-! ## Device-physical addresses of a vault's granules (R193, R194) -/

/-- The device-physical address that a vault-local address answers to, when a valid section maps it. -/
def State.physOf (s : State) (v l : Nat) : Option Nat :=
  (List.range 384).findSome? (fun x =>
    let (f, n) := s.sectVaults x
    let base := s.rdi F.TWR_SECT_LOCAL_BASE (x / 48) (x % 48) * 2 ^ 22
    if s.sectValid x ∧ f ≤ v ∧ v < f + n ∧ base ≤ l ∧ l < base + 2 ^ 30 / n then
      some (x * 2 ^ 30 + ((l - base) / 4096 * n + (v - f)) * 4096 + l % 4096)
    else none)

/-- A background read of the granule at vault-local address `l` (Table — Granule reads). The poison-log address of a
granule that no section maps is a free value (notes/assumptions/52.md). -/
def State.readGranule (s : State) (v l : Nat) : State :=
  let g := vaultKey v l / 32
  match SMap.get Ecc.clean s.vaultEcc g with
  | .clean => s
  | .correctable => (s.countCe v l .background).queueWb v g
  | e =>
    let (a, s1) := match s.physOf v l with
      | some a => (a, s)
      | none => let (n, t) := s.fresh; (32 * n, t)
    if e = .uncorrectable then
      (State.plog (State.cancelWb { s1 with vaultEcc := SMap.put .clean s1.vaultEcc g .poison } v g) v a 2 .background).countUe v
    else s1.plog v a 2 .background

/-! ## `TWR_CMD` (R219, R220, R222) -/

/-- The statuses of `TWR_CMD_STATUS`. -/
def twOk : Nat := 0
def twNoCand : Nat := 2
def twNoAuth : Nat := 3
def twExhausted : Nat := 4
def twRetired : Nat := 5
def twAborted : Nat := 6

def State.twStatus (s : State) (t v : Nat) : State := s.wr F.TWR_CMD_STATUS_STATUS t v

/-- A TOWER page's RETIRE or REPAIR while a repair runs is illegal. -/
def State.twCmd (s : State) (t : Nat) (f : State) : State := if s.opBusy .twr t then s.illegal .tower t 0x078 else f

/-- RETIRE (R222). -/
def State.twRetire (s : State) (t v : Nat) (fe : Option Nat) : State :=
  if s.retired (32 * t + v) then (s.twStatus t twRetired).doneFence 16 fe ⟨.twr, t⟩ (some .aborted)
  else ((s.twStatus t twOk).retireVault (32 * t + v)).doneFence 16 fe ⟨.twr, t⟩ none

/-- TWR_RETIRE (R222). -/
def execTwrRetire (fn : Fn) (t : Fin 8) (vault : Fin 32) (fence : Option Nat) (s : State) : Res :=
  .next (s.pfDo fn (s.twCmd t.val (s.twRetire t.val vault.val fence)))

/-- REPAIR of a candidate (R219): a long operation over the 32 granules of its row. -/
def State.twRepair (s : State) (t c : Nat) (fe : Option Nat) : State :=
  if s.rdi F.TWR_WEAK_VALID t c = 0 then (s.twStatus t twNoCand).doneFence 16 fe ⟨.twr, t⟩ (some .aborted)
  else ((s.twStatus t twOk).wr F.TWR_CMD_STATUS_COPIED t 0).startOp .twr t 16 fe 33
    (.repair c (32 * t + s.rdi F.TWR_WEAK_VAULT t c))

/-- TWR_REPAIR (R219). -/
def execTwrRepair (fn : Fn) (t : Fin 8) (cand : Fin 8) (fence : Option Nat) (s : State) : Res :=
  .next (s.pfDo fn (s.twCmd t.val (s.twRepair t.val cand.val fence)))

/-- TWR_RESUME (R430). -/
def execTwrResume (fn : Fn) (t : Fin 8) (fence : Option Nat) (s : State) : Res :=
  .next (s.pfDo fn (s.resumeOp .twr t.val 16 fence .tower t.val 0x078))

/-- TWR_ABORT (R220): nothing is struck. -/
def execTwrAbort (fn : Fn) (t : Fin 8) (fence : Option Nat) (s : State) : Res :=
  .next (s.pfDo fn (s.abortOp .twr t.val 16 fence .tower t.val 0x078 (fun u _ => u.twStatus t.val twAborted)))

/-- The vault-local address of a granule of a row (R192). -/
def rowGranule (b r i : Nat) : Nat := r * 2 ^ 14 + b * 2 ^ 10 + 32 * i

/-- A repair ends without a strike: what the spare row holds is of no account (R220). -/
def State.repairEnd (s : State) (op : LongOp) (status : Nat) : State :=
  (s.twStatus op.sel.inst status).endOp op (some .aborted)

/-- Every access to a row moves to its spare row (R219): the row's granules read as the copy left them, with every write
made since. -/
def State.moveRow (s : State) (v b r : Nat) : State :=
  let ks := (List.range 32).map (fun i => vaultKey v (rowGranule b r i))
  { s with
    vault := ks.foldl (fun m k => writeMem m k (readMem s.spare k 32)) s.vault
    vaultEcc := ks.foldl (fun m k => SMap.put .clean m (k / 32) (SMap.get Ecc.clean s.spareEcc (k / 32))) s.vaultEcc
    writeBacks := SMap.put [] s.writeBacks v
      ((SMap.get [] s.writeBacks v).filter (fun g => !ks.any (fun k => k / 32 == g))) }

/-- Copy one granule of a row, corrected, into the spare row; one that cannot be read is copied as poison. The copy cancels
the granule's queued write-back (R214, R219). -/
def State.copyGranule (s : State) (v l : Nat) : State :=
  let k := vaultKey v l
  let s1 := (s.readGranule v l).cancelWb v (k / 32)
  match SMap.get Ecc.clean s.vaultEcc (k / 32) with
  | .clean | .correctable =>
    { s1 with spare := writeMem s1.spare k (readMem s.vault k 32), spareEcc := SMap.put .clean s1.spareEcc (k / 32) .clean }
  | _ => { s1 with spareEcc := SMap.put .clean s1.spareEcc (k / 32) .poison }

/-- The final step of a repair (R219, R220, R491 to R494): the MGC strikes FIELD_REPAIR with the next held
authorisation, and every access to the row moves to the spare row. -/
def State.repairStrike (s : State) (op : LongOp) (c v : Nat) : State :=
  let t := op.sel.inst
  let b := s.rdi F.TWR_WEAK_BANK t c
  let r := s.rdi F.TWR_WEAK_ROW t c
  match SMap.get (0, 0) s.mgc.held v with
  | (_, 0) => s.repairEnd op twNoAuth
  | (n, k + 1) =>
    if !s.mgc.up then s.repairEnd op twNoAuth else
    let spare := s.bank.strikes hmRepair v
    match s.strike hmRepair v false spare (b + r * 16) true none with
    | (.logFull, s1) => s1.repairEnd op twNoAuth
    | (.limit _, s1) | (.value _, s1) => s1.repairEnd op twExhausted
    | (.struck _, s1) =>
      let rows : State := { s1 with
        mgc := { s1.mgc with held := SMap.put (0, 0) s1.mgc.held v (if k = 0 then (0, 0) else (n + 1, k)) }
        repairs := s1.repairs ++ [(v, b, r, spare)] }
      ((((rows.moveRow v b r).wri F.TWR_WEAK_VALID t c 0).spareLeft v).twStatus t twOk).endOp op none

/-- Advance a repair by one step: the copy of up to `n` granules, or the strike (R219). A candidate whose vault has been
retired is gone, and its repair ends NO_CAND. -/
def State.repairStep (s : State) (op : LongOp) (c v n : Nat) : State :=
  let t := op.sel.inst
  if s.rdi F.TWR_WEAK_VALID t c = 0 then s.repairEnd op twNoCand
  else if 32 ≤ op.done then s.repairStrike op c v
  else
    let m := min n (32 - op.done)
    let b := s.rdi F.TWR_WEAK_BANK t c
    let r := s.rdi F.TWR_WEAK_ROW t c
    (List.range m).foldl (fun u i =>
      let s1 := u.copyGranule v (rowGranule b r (op.done + i))
      match s1.op? .twr t with
      | none => s1
      | some o => (s1.setOp { o with done := op.done + i + 1 }).wr F.TWR_CMD_STATUS_COPIED t (op.done + i + 1)) s

/-! ## Patrol scrub (R217) -/

/-- Granules of a vault. -/
def vaultGranules : Nat := vaultBytes / 32

/-- A vault's scrub pass ends: it counts, its correction counts start again, and a late pass counts in LATE. -/
def State.scrubPassEnd (s : State) (v : Nat) : State :=
  let t := v / 32
  let late := decide (SMap.get 0 s.scrubNs v + 86400000000000 < s.ns)
  let s1 : State := { s with
    scrubAt := SMap.put 0 s.scrubAt v 0
    scrubPass := SMap.put 0 s.scrubPass v (SMap.get 0 s.scrubPass v + 1)
    rowCorr := SMap.clear (fun k => k / (16 * 98304) == v) s.rowCorr
    rowCand := SMap.clear (fun k => k / (16 * 98304) == v) s.rowCand }
  let s2 := if late then s1.bump F.TWR_SCRUB_LATE t 1 else s1
  let alive := (List.range 32).filter (fun i => !s2.retired (32 * t + i))
  let passes := alive.map (fun i => SMap.get 0 s2.scrubPass (32 * t + i))
  match passes with
  | [] => s2
  | p :: ps => s2.wr F.TWR_SCRUB_PASSES t (ps.foldl min p)

/-- Patrol scrub of a vault reads its next `n` granules in ascending vault-local order. -/
def State.scrub (s : State) (v n : Nat) : State :=
  if s.retired v ∨ s.rd F.TWR_CFG_SCRUB_EN (v / 32) = 0 then s else
  let g := SMap.get 0 s.scrubAt v
  let s0 := if g = 0 then { s with scrubNs := SMap.put 0 s.scrubNs v s.ns } else s
  let e := min (g + n) vaultGranules
  let base := vaultKey v 0 / 32
  let hits := (s0.vaultEcc.filter (fun x => decide (base + g ≤ x.1) && decide (x.1 < base + e))).map (·.1)
  let s1 := hits.foldl (fun u k => if u.retired v then u else u.readGranule v (32 * (k - base))) s0
  if vaultGranules ≤ e then s1.scrubPassEnd v else { s1 with scrubAt := SMap.put 0 s1.scrubAt v e }

end Sys2Proof.Machine
end

