-- ==== Sys2Proof/Machine/Assay.lean ====
section
/-! DEFINITION. Assay packs and runs (spec/19_background_integrity.md, R446 to R451). The output of a test is an
operand of the BACKGROUND tick that ends it: what a faulty engine puts out, the spec cannot say (notes/assumptions/42.md). -/

namespace Sys2Proof.Machine
open Sys2Proof

/-! ## The pack (R446, R447) -/

/-- The block types that an Assay test or an ENGINE reset may name. -/
def engineBlock (b : Nat) : Bool := b == 0x0A || (decide (0x0C ≤ b) && decide (b ≤ 0x12))

/-- Are all bytes of a range zero? -/
def zeroAt (bs : List Byte) (off n : Nat) : Bool := (slice bs off n).all (fun b => b == 0)

/-- The worst case of a test's descriptor (Table — Test record), as far as the descriptor alone gives it: the whole share of
the vaults, and no term for rows read (notes/assumptions/120.md). A Dredge has no descriptor of its own. -/
def packWorst (block : Nat) (d : List Byte) : Nat :=
  if block = 0x0C then let b := bagSet d; 4 + ceilDiv (b.maxIdx + b.oneMax) 256
  else if block = 0x0D then let u := updDesc d; 4 + ceilDiv (u.towerCap * u.maxDim) 128
  else if block = 0x0E then let a := anvilDesc d; 5 + max a.cTerm a.vTerm
  else if block = 0x0F then (if plLegal d then plWorst d else 0)
  else if block = 0x10 then State.worst.tarnWorst (tarnDesc d) 64
  else if block = 0x11 then ridWorst (ridDesc d)
  else if block = 0x12 then State.worst.ladleWorst (ladleDesc d) 64
  else 0

/-- A test record in a pack is well formed (Table — Test record). -/
def packTestOk (img : List Byte) (i : Nat) : Bool :=
  let o := numAt img 0x14 4 + 96 * i
  let dn := numAt img 0x1C 4
  let desc := slice img (numAt img 0x18 4 + numAt img (o + 8) 4) (numAt img (o + 12) 4)
  engineBlock (numAt img o 2) && zeroAt img (o + 2) 2 && decide (1 ≤ numAt img (o + 4) 4) && decide (numAt img (o + 4) 4 ≤ 4096) &&
  decide (packWorst (numAt img o 2) desc ≤ numAt img (o + 4) 4) &&
  decide (numAt img (o + 8) 4 + numAt img (o + 12) 4 ≤ dn) && decide (numAt img (o + 0x10) 4 + numAt img (o + 0x14) 4 ≤ dn) &&
  decide (numAt img (o + 0x14) 4 ≤ 524288) && decide (1 ≤ numAt img (o + 0x18) 4) && decide (numAt img (o + 0x18) 4 ≤ 262144) &&
  zeroAt img (o + 0x1C) 4 && zeroAt img (o + 0x50) 16

/-- The format of a pack (Table — Pack header): its parts stand in the order header, tests, data, signature. -/
def packFormatOk (img : List Byte) : Bool :=
  let n := numAt img 0x12 2
  let t := numAt img 0x14 4
  let d := numAt img 0x18 4
  let g := numAt img 0x20 4
  decide (288 ≤ img.length) && numAt img 0 4 == 0x59415341 && numAt img 4 2 == 1 && zeroAt img 6 2 &&
  numAt img 8 4 == img.length && decide (numAt img 0x10 1 ≤ 8) && zeroAt img 0x11 1 &&
  decide (1 ≤ n) && decide (n ≤ 1024) && t % 64 == 0 && d % 64 == 0 && decide (192 ≤ t) && decide (t + 96 * n ≤ d) &&
  decide (d + numAt img 0x1C 4 ≤ g) && g + 96 == img.length && zeroAt img 0x30 16 && zeroAt img 0xA0 32 &&
  (List.range n).all (packTestOk img)

/-- The key hash that a pack's signer must have (R447): the fused one of Mendotric, or that of its enrolment slot, unless the
slot is empty. -/
def Bank.signerHash (b : Bank) (k : Nat) : Option (List Byte) :=
  if k = 0 then some Config.mendotricKeyHash
  else if (b.signer k).all (fun x => x == 0) then none else some (b.signer k)

/-- The first four checks of LOAD (R447), which depend on the pack and the enrolments alone; 0 when they pass. -/
def State.packVerify (s : State) (img : List Byte) : Nat :=
  let g := numAt img 0x20 4
  let key := slice img 0x40 96
  if !packFormatOk img then 1
  else if numAt img 0x24 4 ≠ crc32c (slice img 0 0x24 ++ List.replicate 4 0 ++ slice img 0x28 (g - 0x28)) then 2
  else if s.bank.signerHash (numAt img 0x10 1) ≠ some (sha384 key) then 3
  else if ecdsaOk key (slice img 0 g) (slice img g 96) = false then 4
  else 0

/-- The checks of LOAD in the order of `ASY_STATUS` 1 to 6 (R447); 0 when the pack passes. -/
def State.packCheck (s : State) (img : List Byte) : Nat :=
  let st := s.packVerify img
  if st ≠ 0 then st
  else if s.rd F.ASY_PACK_VALID 0 = 1 ∧ numAt img 0x0C 4 ≤ s.rd F.ASY_PACK_SEQ 0 then 5
  else if 4 * 2 ^ 20 < numAt img 8 4 then 6
  else 0

/-- The tests of a pack that run on a block type: index and ticks. -/
def packTests (img : List Byte) (block : Nat) : List (Nat × Nat) :=
  (List.range (numAt img 0x12 2)).filterMap (fun i =>
    let o := numAt img 0x14 4 + 96 * i
    if numAt img o 2 = block then some (i, numAt img (o + 4) 4) else none)

/-! ## `ASY_CMD` (R447 to R450) -/

def asyBusy : Nat := 7
def asyNoPack : Nat := 8
def asyBenched : Nat := 9

/-- The store that LOAD fills: the one not in force. -/
def Assay.spare (a : Assay) : Nat := match a.force with | some i => 1 - i | none => 0

/-- While a LOAD runs, every other command is illegal. -/
def State.asyCmd (s : State) (f : State) : State := if s.opBusy .asy 0 then s.illegal .assayCentral 0 0x048 else f

/-- LOAD (R447, R448): refused with BUSY while a run holds the other store. -/
def State.asyLoad (s : State) (fe : Option Nat) (img : List Byte) (cpl : Cpl) : State :=
  if s.assay.runs.any (fun r => r.store == s.assay.spare && s.assay.force != some r.store) then
    (s.wr F.ASY_STATUS_STATUS 0 asyBusy).freeFence 16 fe ⟨.asy, 0⟩
  else
    let s1 := if s.bme 16 then
        s.hostRead 16 (s.imageAddr 16 (s.rd F.ASY_SRC_STAITHE 0) (s.rd F.ASY_SRC_OFFSET 0)) img.length else s
    s1.startOp .asy 0 16 fe (numAt img 8 4) (.packLoad img (if s.bme 16 then cpl else .notIssued))

/-- ASY_LOAD (R447). -/
def execAsyLoad (fn : Fn) (fence : Option Nat) (image : List Byte) (cpl : Cpl) (s : State) : Res :=
  .next (s.pfDo fn (s.asyCmd (s.asyLoad fence image cpl)))

/-- The final step of LOAD: the pack becomes the pack in force, or the status says why not (R448). -/
def State.packEnd (s : State) (op : LongOp) (img : List Byte) (cpl : Cpl) : State :=
  if cpl ≠ .ok then let (v, s1) := s.freeStatus; (s1.wr F.ASY_STATUS_STATUS 0 v).endFree op else
  let st := s.packCheck img
  let s1 := s.wr F.ASY_STATUS_STATUS 0 st
  if st ≠ 0 then s1.endFree op else
  let i := s.assay.spare
  let s2 := [(F.ASY_PACK_SEQ, numAt img 0x0C 4), (F.ASY_PACK_TESTS, numAt img 0x12 2),
    (F.ASY_PACK_SIGNER, numAt img 0x10 1), (F.ASY_PACK_VALID, 1), (F.ASY_PACK_ID_ID, numAt img 0x28 8)].foldl
      (fun (t : State) (p : Fld × Nat) => t.wr p.1 0 p.2) s1
  State.endOp { s2 with assay := { s2.assay with stores := s2.assay.stores.set i img, force := some i, reverify := false } }
    op none

/-- One step of LOAD: `n` bytes of the pack are processed. -/
def State.packStep (s : State) (op : LongOp) (img : List Byte) (cpl : Cpl) (n : Nat) : State :=
  if op.total ≤ op.done + n ∨ cpl ≠ .ok then s.packEnd op img cpl
  else s.setOp { op with done := op.done + n }

/-- The lanes of all engines. -/
def engineLanes : List Nat := (List.range 0x11E) ++ (List.range 16).map (0x120 + ·)

/-- QUEUED of an engine: a follow-up shows before a scheduled run. -/
def State.showQueued (s : State) (l : Nat) : State :=
  if s.asy F.ASY_ENG_QUEUED F.ASY_DRG_QUEUED l = 1 then s
  else s.setQueued l (if s.assay.sched.contains l || s.assay.runs.any (fun r => r.lane == l && !r.follow) then 2 else 0)

/-- Has the engine a queued run, waiting or started? -/
def State.asyQueued (s : State) (l : Nat) : Bool := s.asy F.ASY_ENG_QUEUED F.ASY_DRG_QUEUED l != 0

/-- Queue one scheduled run, unless the engine is benched or has a queued run (R450). -/
def State.schedule (s : State) (l : Nat) : State :=
  if s.benched l || s.asyQueued l then s
  else State.showQueued { s with assay := { s.assay with sched := s.assay.sched ++ [l] } } l

/-- A sweep queues a run for every engine that is not benched; its fence waits for all of them. -/
def State.asySweep (s : State) (fe : Option Nat) : State :=
  let ls := engineLanes.filter (fun l => !s.benched l)
  let s1 := ls.foldl (fun t l => t.schedule l) s
  let (f, s2) := s1.takeFence 16 fe ⟨.asy, 0⟩
  match f with
  | none => s2
  | some n => if ls.isEmpty then s2.signal n none
      else { s2 with assay := { s2.assay with sweeps := s2.assay.sweeps ++ [(n, ls)] } }

/-- ASY_SWEEP (R450). -/
def execAsySweep (fn : Fn) (fence : Option Nat) (s : State) : Res :=
  .next (s.pfDo fn (s.asyCmd (if s.assay.force.isNone then (s.wr F.ASY_STATUS_STATUS 0 asyNoPack).freeFence 16 fence ⟨.asy, 0⟩
    else (s.wr F.ASY_STATUS_STATUS 0 0).asySweep fence)))

/-- TEST of one instance (R450). -/
def State.asyTest (s : State) (block inst : Nat) (fe : Option Nat) : State :=
  match engineLane block inst with
  | none => s.illegal .assayCentral 0 0x048
  | some l =>
    if s.assay.force.isNone then (s.wr F.ASY_STATUS_STATUS 0 asyNoPack).freeFence 16 fe ⟨.asy, 0⟩
    else if s.benched l then (s.wr F.ASY_STATUS_STATUS 0 asyBenched).freeFence 16 fe ⟨.asy, 0⟩
    else
      let s1 := (s.wr F.ASY_STATUS_STATUS 0 0).schedule l
      let (f, s2) := s1.takeFence 16 fe ⟨.asy, 0⟩
      match f with
      | none => s2
      | some n => { s2 with assay := { s2.assay with tests := s2.assay.tests ++ [(n, l)] } }

/-- ASY_TEST (R450). -/
def execAsyTest (fn : Fn) (block inst : Nat) (fence : Option Nat) (s : State) : Res :=
  .next (s.pfDo fn (s.asyCmd (s.asyTest block inst fence)))

/-- An interval of INTERVAL seconds on `DEV_NS` has passed since the last one began (R6, R450). An INTERVAL of 0 starts
none. -/
def State.sweepDue (s : State) : Bool :=
  s.ready && s.rd F.ASY_CFG_INTERVAL 0 != 0 && decide (s.assay.sweepNs + s.rd F.ASY_CFG_INTERVAL 0 * 1000000000 ≤ s.ns)

/-- ASSAY_SWEEP_INTERVAL (R450): with no pack in force there is nothing to run. The next interval begins. -/
def execAssaySweepInterval (s : State) : Res :=
  .next (if s.sweepDue then
    let n := s.rd F.ASY_CFG_INTERVAL 0 * 1000000000
    let s1 : State := { s with assay := { s.assay with sweepNs := s.assay.sweepNs + (s.ns - s.assay.sweepNs) / n * n } }
    if s1.assay.force.isSome then s1.asySweep none else s1
  else s)

/-! ## Runs (R449, R451) -/

/-- A follow-up waits: the engine is SUSPECT and its follow-up is queued. -/
def State.followWaits (s : State) (l : Nat) : Bool := s.asy F.ASY_ENG_QUEUED F.ASY_DRG_QUEUED l == 1

/-- Is follow-up work, or scheduled work, pending on a lane? A run that has started finishes first. -/
def State.followPending (s : State) (l : Nat) : Bool :=
  !s.benched l && s.assay.force.isSome && !s.selfHalted &&
    (match s.assay.runs.find? (fun r => r.lane == l) with | some r => r.follow | none => s.followWaits l)
def State.schedPending (s : State) (l : Nat) : Bool :=
  !s.benched l && s.assay.force.isSome && !s.selfHalted &&
    (match s.assay.runs.find? (fun r => r.lane == l) with | some r => !r.follow | none => s.assay.sched.contains l)

/-- A verdict (R440, R449): PASS counts and makes a SUSPECT engine HEALTHY when it ends a follow-up; FAIL benches the
engine with a CPER record. -/
def State.verdict (s : State) (r : AsyRun) (pass : Bool) (test digest : Nat) : State :=
  let l := r.lane
  let s0 : State := { s with assay := { s.assay with runs := s.assay.runs.filter (fun x => x.lane != l) } }
  let s1 := (s0.setAsy F.ASY_ENG_VERDICT F.ASY_DRG_VERDICT l (if pass then 1 else 2)).setLastTick l
  if pass then
    let s2 := s1.setAsy F.ASY_ENG_PASSES F.ASY_DRG_PASSES l (s1.asy F.ASY_ENG_PASSES F.ASY_DRG_PASSES l + 1)
    let s3 := if r.follow then (if s2.health l = 1 then s2.setHealth l 0 else s2).setQueued l 0 else s2
    (s3.showQueued l).asyEnded l none
  else
    let s2 := s1.setHealth l 2
    (s2.cper 1 (s2.engineBody l { cause := 2, test := test, digest := digest })).bench l

/-- The OUT_LEN bytes of a test's output, and their EXPECT (Table — Test record). -/
def packOutLen (img : List Byte) (i : Nat) : Nat := numAt img (numAt img 0x14 4 + 96 * i + 0x18) 4
def packExpect (img : List Byte) (i : Nat) : List Byte := slice img (numAt img 0x14 4 + 96 * i + 0x20) 48

/-- One BACKGROUND tick of Assay work on a lane (R449). `output` is what stands in the unit's buffer from 0x8_0000 on when
the tick ends; its digest is compared with EXPECT at a test's last tick. A pack that WARM reset has kept verifies again
before its first use (R448). -/
def State.assayStep (s : State) (l : Nat) (output : List Byte) : State :=
  match s.assay.force with
  | none => s
  | some i =>
    if s.assay.reverify ∧ s.packVerify (s.assay.stores.getD i []) ≠ 0 then s else
    let (r, a) := match s.assay.runs.find? (fun x => x.lane == l) with
      | some r => (r, s.assay)
      | none =>
        let r : AsyRun := { lane := l, follow := s.followWaits l, store := i, test := 0, ticks := 0 }
        (r, { s.assay with
          runs := s.assay.runs ++ [r]
          sched := if s.followWaits l then s.assay.sched else s.assay.sched.filter (· != l) })
    let s1 : State := { s with assay := { a with reverify := false } }
    let img := s1.assay.stores.getD r.store []
    match (packTests img (laneBlock l))[r.test]? with
    | none => s1.verdict r true 0xFFFF 0
    | some (idx, n) =>
      let upd (x : AsyRun) : State :=
        { s1 with assay := { s1.assay with runs := s1.assay.runs.map (fun y => if y.lane = l then x else y) } }
      if r.ticks + 1 < n then upd { r with ticks := r.ticks + 1 }
      else
      let digest := sha384 (output.take (packOutLen img idx))
      if digest ≠ packExpect img idx then s1.verdict r false idx (numAt digest 0 16)
      else
        let r1 : AsyRun := { r with test := r.test + 1, ticks := 0 }
        if ((packTests img (laneBlock l))[r1.test]?).isSome then upd r1
        else (upd r1).verdict r1 true 0xFFFF 0

/-- An ENGINE reset restarts the test in progress (R451). -/
def State.restartTest (s : State) (l : Nat) : State :=
  { s with assay := { s.assay with runs := s.assay.runs.map (fun r => if r.lane = l then { r with ticks := 0 } else r) } }

end Sys2Proof.Machine
end

