-- ==== Sys2Proof/Machine/Background.lean ====
section
/-! DEFINITION. BACKGROUND ticks: turns, ranks and the work they serve, and ENGINE resets
(spec/19_background_integrity.md, R433 to R438, R541; R419). How much one tick moves is in notes/assumptions/53.md. -/

namespace Sys2Proof.Machine
open Sys2Proof

/-! ## ENGINE reset (R419) -/

/-- The internal state of an engine is cleared: an Anvil's finished tiles and scale registers, a Planisher's registers. -/
def State.clearEngine (s : State) (l : Nat) : State :=
  if 0x100 ≤ l ∧ l < 0x108 then
    { s with tiles := SMap.drop (l - 0x100) s.tiles, avScale := SMap.drop (l - 0x100) s.avScale }
  else if 0x108 ≤ l ∧ l < 0x110 then { s with pls := SMap.drop (l - 0x108) s.pls }
  else s

/-- The spine engine number of a lane (Table — Device counters). -/
def spineOf (l : Nat) : Option Nat :=
  if 0x118 ≤ l ∧ l < 0x11E then some (l - 0x118) else if 0x120 ≤ l ∧ l < 0x130 then some (l - 0x120 + 6) else none

/-- `RST_ENGINE`: illegal while a reset runs, or for an engine that does not exist. -/
def State.rstEngine (s : State) (block inst : Nat) (fe : Option Nat) : State :=
  match s.engReset, engineLane block inst with
  | none, some l =>
    let (f, s1) := s.takeFence 16 fe ⟨.twr, 8⟩
    { (s1.wr F.RST_ENGINE_STATUS_BUSY 0 1).wr F.RST_ENGINE_STATUS_BG_TICKS 0 0 with engReset := some (l, 0, f) }
  | _, _ => s.illegal .reset 0 0x058

/-- RST_ENGINE (R419). -/
def execRstEngine (fn : Fn) (block inst : Nat) (fence : Option Nat) (s : State) : Res :=
  .next (s.pfDo fn (s.rstEngine block inst fence))

/-- One BACKGROUND tick of the ENGINE reset; the fourth ends it. -/
def State.engineResetStep (s : State) (l n : Nat) (f : Option Nat) : State :=
  let s1 := s.wr F.RST_ENGINE_STATUS_BG_TICKS 0 (n + 1)
  if n + 1 < 4 then { s1 with engReset := some (l, n + 1, f) } else
  let s2 := (((State.clearEngine { s1 with engReset := none } l).restartTest l).wr F.RST_ENGINE_STATUS_BUSY 0 0).bump
    F.RST_ENGINE_STATUS_RESETS 0 1
  let s3 := match spineOf l with | some e => s2.count (768 + 8 * e + 5) 1 | none => s2
  s3.signalOpt f none

/-- The ENGINE reset that waits or runs on a lane. -/
def State.engReset? (s : State) (l : Nat) : Option (Nat × Option Nat) :=
  match s.engReset with
  | some (k, n, f) => if k = l then some (n, f) else none
  | none => none

/-! ## Items of a vault lane -/

/-- Write back up to `n` corrected granules of a vault (R214): they are clean afterwards. -/
def State.writeBack (s : State) (v n : Nat) : State :=
  let q := SMap.get [] s.writeBacks v
  { s with
    writeBacks := SMap.put [] s.writeBacks v (q.drop n)
    vaultEcc := (q.take n).foldl (fun m g =>
      if SMap.get Ecc.clean m g = .correctable then SMap.put .clean m g .clean else m) s.vaultEcc }

/-- The running repair of a vault. -/
def State.repairOn (s : State) (v : Nat) : Option (LongOp × Nat) :=
  match s.op? .twr (v / 32) with
  | some o => (match o.task with
    | .repair c w => if w = v ∧ s.opRuns o = true then some (o, c) else none
    | _ => none)
  | none => none

/-- The running PIN whose next row stands in a vault. -/
def State.pinOn (s : State) (v : Nat) : Option LongOp :=
  s.ops.find? (fun o => match o.task with
    | .hmk op table first _ => op == hmkPin && s.opRuns o &&
        (match s.table o.owner table with
        | some t => (match s.hmkRow o.owner t (first + o.done) with
          | some a => (match s.locate a with | some (w, _) => w == v | none => false)
          | none => false)
        | none => false)
    | _ => false)

/-- The polder whose oldest candidate in the vault's slice stands in the vault. -/
def State.candOn (s : State) (v : Nat) : Option (Nat × Nat) :=
  (List.range 16).findSome? (fun p => match s.cand p (v / 32) with
    | [] => none
    | line :: _ => (match s.locate (line * 128) with
      | some (w, _) => if w = v then some (p, line) else none
      | none => none))

/-- Handle one candidate (R249). Only a line of an extent that the polder still holds is installed (R245). -/
def State.promote (s : State) (p t line : Nat) : State :=
  let s0 : State := { s with cands := SMap.put [] s.cands (p * 8 + t) ((s.cand p t).drop 1) }
  if s0.ownerOf .extent (line * 128 / 2 ^ 21) ≠ p ∨ (s0.hFind p t line).isSome = true then s0 else
  match s0.victim p t line with
  | none => s0
  | some w =>
    let better := match s0.hLine (hKey t line w) with
      | none => true
      | some h => decide (s0.estimate p t h.line < s0.estimate p t line)
    let (ok, s1) := s0.lineReads line
    if ok && better then ((s1.install p t line w false).count (512 + 32 * t + 2) 1).countP p 68 1 else s1

/-! ## Items of a Ladle and of a Solder lane -/

/-- Is the present tick of a lane one of background work: BACKGROUND, or any tick while no frame is in force (R434, R541)?
The ticks of a retired vault stay idle (R223). -/
def State.bgNow (s : State) (l : Nat) : Bool :=
  (s.frame.isNone || s.kindNow l == .background) && !(decide (l < 0x100) && s.retired l)

/-- The first pending zeroing that makes progress, in the order in which the zeroings became pending (R542). -/
def State.zeroNext (s : State) : Option ZeroJob := s.zeroJobs.find? s.zeroRuns

/-- The background writes of the next 4 KiB of a zeroing can issue in this tick: they use slots of the vault's own BACKGROUND
ticks (R434). A Mere unit, and a way, whose bytes the model does not hold (notes/assumptions/20.md), need no vault. -/
def State.zeroReady (s : State) (j : ZeroJob) : Bool :=
  match j.item with
  | .extent e => (match s.locate (e * 0x200000 + j.written) with | some (v, _) => s.bgNow v | none => true)
  | _ => true

/-- One Ladle tick of a zeroing: 4 KiB, or a whole way. -/
def State.zeroTick (s : State) (j : ZeroJob) : State :=
  s.zeroStep j (match j.item with | .way _ => j.item.size | _ => 4096)

/-- The running ABANDON that a tower's Solder serves next: the granule of its next journal entry stands in the tower, or
cannot be read (R275). -/
def State.abandonOn (s : State) (t : Nat) : Option LongOp :=
  s.ops.find? (fun o => decide (o.task = .abandon) && s.opRuns o && !s.updating o.owner &&
    (match SMap.get none s.jnlMap o.owner with
    | none => true
    | some m => (match s.locate (bitsOf (s.jnlEntry m (s.rd F.EP_PROGRESS_DONE o.owner)) 0 34 * 32) with
      | some (v, _) => v / 32 == t && (s.bgNow v || s.retired v)
      | none => t == 0)))

/-! ## Turns and ranks (R435) -/

/-- The work of the ranks 3 to 8 on a lane, when any is pending; `slots` are the S slots of the tick. -/
def State.midRank (s : State) (l slots : Nat) : Option State :=
  if l < 0x100 then
    if !(SMap.get [] s.writeBacks l).isEmpty then some (s.writeBack l (max 1 (7 * slots / 128)))
    else match s.repairOn l with
    | some (o, c) => some (s.repairStep o c l (max 1 (10 * slots / 64)))
    | none =>
      match s.pinOn l with
      | some o => (match o.task with
        | .hmk op table first count => some (s.hmkStep o op table first count 1)
        | _ => none)
      | none =>
        if s.selfHalted then none else
        match s.candOn l with
        | some (p, line) => some (s.promote p (l / 32) line)
        | none => none
  else if 0x110 ≤ l ∧ l < 0x118 ∧ s.benched l = false then
    (s.abandonOn (l - 0x110)).map (fun o => s.abandonStep o 1)
  else if 0x120 ≤ l ∧ l < 0x130 ∧ s.benched l = false then
    match s.zeroNext with
    | some j => if s.zeroReady j then some (s.zeroTick j) else none
    | none => none
  else none

/-- Is a scrub pass pending on a lane? -/
def State.scrubPending (s : State) (l : Nat) : Bool :=
  decide (l < 0x100) && !s.retired l && s.rd F.TWR_CFG_SCRUB_EN (l / 32) == 1

/-- One scrub tick reads the granules that S slots carry. -/
def State.scrubTick (s : State) (l slots : Nat) : State :=
  let n := max 1 (20 * slots / 64)
  (s.scrub l n).count (512 + 32 * (l / 32) + 5) n

/-- Serve one BACKGROUND tick of a lane (R435). -/
def State.serveTurn (s : State) (l turn : Nat) (output : List Byte) : State :=
  let slots := tierSlots s.tier
  let asy := s.assayStep l output
  let held := match s.engReset? l with | some (n, _) => n != 0 | none => false
  let any := (s.followPending l || s.schedPending l) && !held
  if turn = 0 ∧ any = true then asy
  else if turn = 4 ∧ s.scrubPending l = true then s.scrubTick l slots
  else match s.engReset? l with
  | some (n, f) => s.engineResetStep l n f
  | none =>
    if s.followPending l then asy
    else match s.midRank l slots with
    | some t => t
    | none => if s.schedPending l then asy else if s.scrubPending l then s.scrubTick l slots else s

/-- Does a step that has run past its planned end hold the lane (R438)? -/
def State.overrun (s : State) (l : Nat) : Option Run :=
  s.runs.find? (fun r => r.phase == .admitted && (List.zip (s.stepsOf r) r.steps).any (fun x =>
    x.1.books l && decide (r.admittedAt + x.1.start + x.1.duration ≤ s.tick) &&
      (match x.2 with | .running _ | .stalled _ _ _ | .filled _ _ _ => true | _ => false)))

/-- Count a BACKGROUND tick used. -/
def State.countBg (s : State) (l : Nat) : State :=
  match spineOf l with
  | some e => s.count (768 + 8 * e + 4) 1
  | none => if l < 0x100 then s.count (512 + 32 * (l / 32) + 16) 1
    else if l < 0x118 then s.count (512 + 32 * (l % 8) + 16) 1 else s

/-- A BACKGROUND tick of a lane; the ticks of a retired vault stay idle (R223), and an IDLE tick of a vault lane serves an
extra scrub pass only (R217, R433). While no frame is in force every tick counts as BACKGROUND (R541). -/
def State.bgTick (s : State) (l : Nat) (output : List Byte) : State :=
  if s.ready = false ∨ isEngineLane l = false ∨ s.rd F.PWR_STATUS_STATE 0 = 2 ∨ (l < 0x100 ∧ s.retired l = true) then s else
  let kind := s.kindNow l
  if s.frame.isNone ∨ kind = .background then
    let n := SMap.get 0 s.bgTicks l
    let s1 : State := { s with bgTicks := SMap.put 0 s.bgTicks l (n + 1) }
    match s1.overrun l with
    | some r => ((s1.bump F.ASY_COUNT_BG_CONFLICTS 0 1).count (devCnt 13) 1).countP r.owner 52 1
    | none => (s1.serveTurn l (n % 8) output).countBg l
  else if kind = .idle ∧ s.scrubPending l = true then s.scrubTick l (tierSlots s.tier)
  else s

/-- BACKGROUND_TICK (R435). -/
def execBackgroundTick (lane : Nat) (output : List Byte) (s : State) : Res := .next (s.bgTick lane output)

end Sys2Proof.Machine
end

