-- ==== Sys2Proof/Machine/LongOpStep.lean ====
section
/-! DEFINITION. One step of a long operation (spec/18_resets_hasps_longops.md, R427 and Table — Long operations): what
each operation commits in a step, and what its final step commits. How much a step does within its 200 ticks arrives
with the command. What an operation does in BACKGROUND ticks only (the copies of a repair, the walk of an ABANDON, the rows
of a PIN, zeroing: R219, R250, R275, R434, R542) is done by those ticks, and a step here commits no more than what needs
none of them: its final step. -/

namespace Sys2Proof.Machine
open Sys2Proof

/-- One step of a BLOCK_RESET (R107): `n` fences; the final step signals the fence of the command. -/
def State.fenceStep (s : State) (op : LongOp) (block next n : Nat) : State :=
  let s1 := State.fenceSweep block n s next
  if 512 ≤ next + n then s1.endOp op none
  else s1.setOp { op with task := .fenceReset block (next + n), done := op.done + n }

/-- Does the next row of a PIN stand in vault memory, so that the vault's BACKGROUND ticks take it (R250)? -/
def State.pinNeedsVault (s : State) (op : LongOp) (code table first : Nat) : Bool :=
  code == hmkPin && (match s.table op.owner table with
    | some t => decide (first + op.done < t.rows) && (s.hmkRow op.owner t (first + op.done)).isSome
    | none => false)

/-- One step of an operation. -/
def State.opStep (s : State) (op : LongOp) (n : Nat) (pt : HostTable) : State :=
  match op.task with
  | .planLoad img cpl va ctx => s.planLoadStep op img cpl va ctx n
  | .planUnload => s.planUnloadStep op
  | .frameLoad img cpl => s.frameLoadStep op img cpl n
  | .mobWrite m next => s.mobWriteStep op m next n pt
  | .mobClear slot c page pages ph todo => s.mobClearStep op slot c page pages ph todo n pt
  | .inval ph page pages todo => s.invStep op ph page pages todo n pt
  | .fenceReset block next => s.fenceStep op block next n
  | .tblWrite slot r cpl => s.tblWriteStep op slot r cpl
  | .tblClear slot => s.tblClearStep op slot
  | .hmk code table first count =>
    if code ≠ hmkPin then s.hmkStep op code table first count n
    else if s.pinNeedsVault op code table first then s else s.hmkStep op code table first count 1
  | .publish => s.publishStep op
  | .abandon => s.abandonStep op 0
  | .repair c v => s.repairStep op c v 0
  | .zeroPolder _ => s
  | .packLoad img cpl => s.packStep op img cpl n
  | .trustLoad r cpl leafOk => s.trustStep op r cpl leafOk

/-- LONG_OP_STEP (R427): an operation that is running commits a step of at least one item of its work. -/
def execLongOpStep (op : OpSel) (amount : Nat) (pt : HostTable) (s : State) : Res :=
  .next (match s.ops.find? (fun o => decide (o.sel = op)) with
    | none => s
    | some o => if s.opRuns o then s.opStep o (max 1 amount) pt else s)

end Sys2Proof.Machine
end

