-- ==== Sys2Proof/Machine/Patina.lean ====
section
/-! DEFINITION. Patina: monitors, scores, the index and the life prediction (spec/20_health_patina.md, R454 to R457). -/

namespace Sys2Proof.Machine
open Sys2Proof

/-! ## Binary64 arithmetic (R456) -/

/-- Round to binary64; the values of the life fit lie far from its exponent range. -/
def rnd64 (x : Ex) : Ex :=
  let (m, e) := roundTo 53 x.i.natAbs 1 x.e
  ⟨if x.i < 0 then -(m : Int) else m, e⟩

def dNat (n : Nat) : Ex := ⟨n, 0⟩
def dAdd (a b : Ex) : Ex := rnd64 (Ex.add a b)
def dNeg (a : Ex) : Ex := ⟨-a.i, a.e⟩
def dSub (a b : Ex) : Ex := dAdd a (dNeg b)
def dMul (a b : Ex) : Ex := rnd64 (Ex.mul a b)
def dDiv (a b : Ex) : Ex :=
  let (m, e) := roundTo 53 a.i.natAbs b.i.natAbs (a.e - b.e)
  ⟨if (a.i < 0) ≠ (b.i < 0) then -(m : Int) else m, e⟩
def dSqrt (a : Ex) : Ex :=
  let m := a.i.natAbs
  let (m, e) := if a.e % 2 = 0 then (m, a.e) else (2 * m, a.e - 1)
  let m := m * 2 ^ 128
  let r := isqrt m
  rnd64 ⟨if r * r = m then (2 * r : Nat) else (2 * r + 1 : Nat), e / 2 - 64 - 1⟩
def dPos (a : Ex) : Bool := decide (0 < a.i)
/-- The largest integer not above a value that is not negative. -/
def dFloor (a : Ex) : Nat := if 0 ≤ a.e then a.i.toNat * 2 ^ a.e.toNat else a.i.toNat / 2 ^ (-a.e).toNat
def dSum (xs : List Ex) : Ex := xs.foldl dAdd (dNat 0)

/-- The constant 1.282. -/
def d1282 : Ex := dDiv (dNat 1282) (dNat 1000)

/-- DAYS and LOW of a history of at least 14 points, oldest first, and the present index (R456). -/
def lifeFit (pts : List (Nat × Nat)) (now : Nat) : Nat × Nat :=
  let n := pts.length
  let xs := pts.map (fun p => dNat p.1)
  let ys := pts.map (fun p => dNat p.2)
  let mx := dDiv (dSum xs) (dNat n)
  let my := dDiv (dSum ys) (dNat n)
  let sq (d : Ex) : Ex := dMul d d
  let sxx := dSum (xs.map (fun x => sq (dSub x mx)))
  let sxy := dSum ((List.zip xs ys).map (fun p => dMul (dSub p.1 mx) (dSub p.2 my)))
  let b := dDiv sxy sxx
  let s2 := dDiv (dSum ((List.zip xs ys).map (fun p => sq (dSub (dSub p.2 my) (dMul b (dSub p.1 mx)))))) (dNat (n - 2))
  let b90 := dAdd b (dMul d1282 (dSqrt (dDiv s2 sxx)))
  let rem := dNat (1000 - now)
  let days (r : Ex) : Nat := if dPos r then min (dFloor (dDiv rem r)) 65535 else 65535
  (days b, days b90)

/-- Recompute `PAT_LIFE` from the history (R456). -/
def State.patLifeUpdate (s : State) : State :=
  let pts := (s.patina.points.take 90).reverse
  let n := pts.length
  let (d, l) := if n < 14 then (65535, 65535) else lifeFit pts (s.rd F.PAT_INDEX_INDEX 0)
  [(F.PAT_LIFE_DAYS, d), (F.PAT_LIFE_LOW, l), (F.PAT_LIFE_POINTS, n), (F.PAT_LIFE_VALID, if 14 ≤ n then 1 else 0)].foldl
    (fun (t : State) (p : Fld × Nat) => t.wr p.1 0 p.2) s

/-- The LIFE cause (Table — Replace causes). -/
def State.testLife (s : State) : State :=
  if s.rd F.PAT_LIFE_VALID 0 = 1 ∧ s.rd F.PAT_LIFE_LOW 0 < s.rd F.PAT_CFG_REPLACE_DAYS 0 then s.setCause .life else s

/-- The SPARE cause, as the MGC tests it when it boots: some vault has fewer than 6 spare rows left (Table — Replace
causes). -/
def State.testSpare (s : State) : State :=
  if (List.range 256).any (fun v => decide (48 - s.bank.strikes hmRepair v < 6)) then s.setCause .spare else s

/-! ## Monitors (R454) -/

/-- floor(1000 × num / den), clamped to 1,000. -/
def score (num den : Nat) : Nat := if den = 0 then 0 else min 1000 (1000 * num / den)

/-- The end points of the rails, in kA·h. -/
def railEnd : Nat → Nat
  | 0 => 30000
  | 1 => 6000
  | 2 => 8000
  | 3 => 2500
  | _ => 1500

/-- The score of a reading against its baseline: a slowdown in 0.01 %, a rise in 0.1 %, a loss in % (Table — Patina
monitors). -/
def monScore (kind base x : Nat) : Nat :=
  match kind with
  | 0 => score (10000 * (base - x)) (base * 800)
  | 2 => score (1000 * (x - base)) (base * 200)
  | _ => score (100 * (base - x)) (base * 40)

/-- Keep a valid score; an invalid reading leaves the last one and flags its kind. -/
def Patina.setScore (p : Patina) (kind i v : Nat) : Patina :=
  { p with scores := SMap.put 0 p.scores (256 * kind + i) v }

/-- Sample the instances of a monitor that reads against a baseline; the first valid reading records the baseline. -/
def Patina.baseMon (p : Patina) (kind : Nat) (rs : List (Option Nat)) (n : Nat) : Patina :=
  (List.range n).foldl (fun q i => match (rs[i]?).getD none with
    | none => q
    | some x =>
      let k := 256 * kind + i
      let b := SMap.get 0 q.bases k
      if b = 0 then { q with bases := SMap.put 0 q.bases k (x + 1) }.setScore kind i 0
      else q.setScore kind i (monScore kind (b - 1) x)) p

/-- Sample the current-hours: each rail's charge since the last sample, in A·s. -/
def Patina.chargeMon (p : Patina) (rs : List (Option Nat)) : Patina :=
  (List.range 5).foldl (fun q i => match (rs[i]?).getD none with
    | none => q
    | some x =>
      let c := SMap.get 0 q.charge i + x
      { q with charge := SMap.put 0 q.charge i c }.setScore 4 i (score c (3600000 * railEnd i))) p

/-- Did any instance of a kind read as invalid? -/
def badMon (rs : List (Option Nat)) (n : Nat) : Bool := (List.range n).any (fun i => ((rs[i]?).getD none).isNone)

/-- The thermal-cycle monitor of one tower follows its stack's temperature (R454): a fall of 20 °C from the last peak,
then a rise of 20 °C from the trough. -/
def State.cycleMon (s : State) (t : Nat) : State :=
  let x := SMap.get 0 s.temps t
  let (peak, trough) := SMap.get (0, none) s.swing t
  let set (v : Nat × Option Nat) : State := { s with swing := SMap.put (0, none) s.swing t v }
  match trough with
  | none => if peak ≤ x then set (x, none) else if x + 20000 ≤ peak then set (peak, some x) else s
  | some y =>
    if x < y then set (peak, some x)
    else if y + 20000 ≤ x then
      let s1 := set (x, none)
      { s1 with patina := { s1.patina with cycles := SMap.put 0 s1.patina.cycles t (SMap.get 0 s1.patina.cycles t + 1) } }
    else s

/-- Instances of a monitor kind. -/
def monCount : Nat → Nat
  | 1 => 256
  | 3 => 13
  | 4 => 5
  | _ => 8

/-- The highest score of a kind and the lowest instance that has it. -/
def Patina.kindScore (p : Patina) (kind : Nat) : Nat × Nat :=
  (List.range (monCount kind)).foldl (fun b i =>
    let v := SMap.get 0 p.scores (256 * kind + i)
    if b.1 < v then (v, i) else b) (0, 0)

/-- The score field of a kind in `PAT_SCORE`. -/
def scoreFld : Nat → Fld
  | 0 => F.PAT_SCORE_RO
  | 1 => F.PAT_SCORE_SPARE
  | 2 => F.PAT_SCORE_BOND
  | 3 => F.PAT_SCORE_EYE
  | 4 => F.PAT_SCORE_CHARGE
  | _ => F.PAT_SCORE_CYCLES

/-- Show the scores and the index (R455): the highest score, the lower kind and then the lower instance on a tie. -/
def State.showScores (s : State) : State :=
  let ks := (List.range 6).map (fun k => (k, s.patina.kindScore k))
  let s1 := ks.foldl (fun (t : State) k => t.wr (scoreFld k.1) 0 k.2.1) s
  let best := ks.foldl (fun b k => if b.2.1 < k.2.1 then k else b) ((ks[0]?).getD (0, 0, 0))
  ((s1.wr F.PAT_INDEX_INDEX 0 best.2.1).wr F.PAT_INDEX_WORST_MON 0 best.1).wr F.PAT_INDEX_WORST_INST 0 best.2.2

/-- The 1 s sample (R454, R455, R457). -/
def State.patinaSample (s : State) (ro bond eye amps : List (Option Nat)) : State :=
  if !s.mgcRuns then s else
  let s1 := (List.range 8).foldl (fun t i => t.cycleMon i) s
  let p1 := (((s1.patina.baseMon 0 ro 8).baseMon 2 bond 8).baseMon 3 eye 13).chargeMon amps
  let p2 := (List.range 256).foldl (fun q v =>
    q.setScore 1 v (score (48 - s1.rdi F.TWR_VSTAT_SPARE_LEFT (v / 32) (v % 32)) 48)) p1
  let p3 := (List.range 8).foldl (fun q t => q.setScore 5 t (score (SMap.get 0 q.cycles t) 50000)) p2
  let bad := b2n (badMon ro 8) + 4 * b2n (badMon bond 8) + 8 * b2n (badMon eye 13) + 16 * b2n (badMon amps 5)
  let s2 := (State.showScores { s1 with patina := p3 }).wr F.PAT_STATUS_BAD_MON 0 bad
  (s2.bump F.PAT_STATUS_SAMPLES 0 1).testLife

/-- PATINA_SAMPLE (R454). -/
def execPatinaSample (ro bond eye amps : List (Option Nat)) (s : State) : Res := .next (s.patinaSample ro bond eye amps)

/-- A daily point: the present index, numbered in powered days, and the life prediction (R456). -/
def State.dailyPoint (s : State) : State :=
  if !s.mgcRuns then s else
  let d := s.patina.days + 1
  State.patLifeUpdate { s with patina := { s.patina with days := d, points := (d, s.rd F.PAT_INDEX_INDEX 0) :: s.patina.points } }

/-- DAILY_POINT (R456). -/
def execDailyPoint (s : State) : Res := .next s.dailyPoint

end Sys2Proof.Machine
end

