-- ==== Sys2Proof/Machine/Power.lean ====
section
/-! DEFINITION. Power states and levels: `PWR_REQ`, STANDBY, RETAIN and OFF, the core rail, board power
(spec/17_power_thermal.md, R390 to R403). -/

namespace Sys2Proof.Machine
open Sys2Proof

/-! ## States (R390, R397) -/

/-- The codes of `PWR_STATUS.STATE`; RETAIN and OFF are held by the MGC and the board. -/
def pwActive : Nat := 0
def pwStandbyPending : Nat := 1
def pwStandby : Nat := 2
def pwWaking : Nat := 3
def pwRetainPending : Nat := 4
def pwOffPending : Nat := 5
def pwOffReady : Nat := 6

/-- `PWR_STATUS.STATE`. -/
def State.pwr (s : State) : Nat := s.rd F.PWR_STATUS_STATE 0

/-- The reading of the power state sensor 0x0022 (Table — Sensors). -/
def State.pwrSensor (s : State) : Nat :=
  if s.board.retain then 3
  else if s.pwr = pwActive then 1 else if s.pwr = pwStandby then 2 else if s.pwr = pwOffReady then 4 else 5

/-- The state of a state sensor (Table — Sensors). -/
def State.stateSensor (s : State) (id : Nat) : Option Nat :=
  if id = 0x20 then some (1 + s.jctHealth / 4 % 2)
  else if id = 0x21 then some (1 + s.rd F.WR_STATE_TIER 0)
  else if id = 0x22 then some s.pwrSensor
  else if id = 0x23 then some s.faultSensor
  else none

/-- The events of the state sensors that a change of the whole part, such as a reset, leaves in another state than `old`
(R481). -/
def State.sensorEvents (s old : State) : State :=
  [0x20, 0x21, 0x22, 0x23].foldl (fun t id => match old.stateSensor id, s.stateSensor id with
    | some a, some b => t.sensorEvent id a b
    | _, _ => t) s

/-- The host link leaves L1 with the state STANDBY; L1 is entered in STANDBY only (Table — Power states, R400). -/
def State.leaveL1 (s : State) (st : Nat) : State :=
  if st ≠ pwStandby ∧ s.link = .l1 then { s with link := .l0 } else s

/-- Whether the link stands in L0 or in L1 while the part is in STANDBY is a free value: either side may ask for L1, and
any access of the host wakes the link (R400, notes/assumptions/110.md). In no other state is L1 entered. -/
def State.l1Entry (s : State) : State :=
  if s.pwr ≠ pwStandby ∨ s.link = .down then s else
  let (v, s1) := s.fresh
  { s1 with link := if v % 2 = 1 then .l1 else .l0 }

/-- Move to a power state; the sensor's change is reported (R481). -/
def State.pwrMove (s : State) (st : Nat) : State :=
  let s1 := (s.leaveL1 st).wr F.PWR_STATUS_STATE 0 st
  s1.sensorEvent 0x0022 s.pwrSensor s1.pwrSensor

/-! ## `PWR_REQ` (R397, R430) -/

/-- The state that a write of `PWR_REQ.STATE` leads to, when Table — Power state transitions lists it. -/
def pwrNext (present req : Nat) : Option Nat :=
  match req with
  | 0 => if present = pwStandbyPending then some pwActive else if present = pwStandby then some pwWaking else none
  | 1 => if present = pwActive then some pwStandbyPending else none
  | 2 => if present = pwActive ∨ present = pwStandby then some pwRetainPending else none
  | _ => if present = pwActive ∨ present = pwStandby then some pwOffPending else none

/-- A write of `PWR_REQ`: STATE and LEVEL together. A change of STATE that the table does not list is illegal (R397); a
state other than ACTIVE halts long operations (R428). From STANDBY the boundary of the tick that is held serves an entry
of RETAIN or OFF_READY at once, so the tick's events are looked at again. -/
def State.pwrReq (s : State) (req level : Nat) : State :=
  if s.rd F.PWR_REQ_STATE 0 = req then s.setLevelMaster F.PWR_REQ_LEVEL level else
  match pwrNext s.pwr req with
  | none => s.illegal .power 0 0x040
  | some st =>
    let s0 := if s.pwr = pwStandby then { s with turn := 0 } else s
    let s1 := ((s0.wr F.PWR_REQ_STATE 0 req).pwrMove st).setLevelMaster F.PWR_REQ_LEVEL level
    if st = pwActive ∨ st = pwWaking then s1 else s1.haltOps

/-- PWR_REQ_LEVEL (R393): the write keeps STATE at the value it holds. -/
def execPwrReqLevel (fn : Fn) (level : Fin 4) (s : State) : Res :=
  .next (s.pfDo fn (s.pwrReq (s.rd F.PWR_REQ_STATE 0) level.val))
/-- PWR_REQ_STANDBY (R397). -/
def execPwrReqStandby (fn : Fn) (level : Fin 4) (s : State) : Res := .next (s.pfDo fn (s.pwrReq 1 level.val))
/-- PWR_REQ_RETAIN (R397). -/
def execPwrReqRetain (fn : Fn) (level : Fin 4) (s : State) : Res := .next (s.pfDo fn (s.pwrReq 2 level.val))
/-- PWR_REQ_OFF (R397). -/
def execPwrReqOff (fn : Fn) (level : Fin 4) (s : State) : Res := .next (s.pfDo fn (s.pwrReq 3 level.val))
/-- PWR_REQ_ACTIVE (R397). -/
def execPwrReqActive (fn : Fn) (level : Fin 4) (s : State) : Res := .next (s.pfDo fn (s.pwrReq 0 level.val))

/-! ## Entries -/

/-- No run is admitted and no request of a peer is reserved. -/
def State.quiet (s : State) : Bool :=
  s.runs.all (fun r => r.phase == .queued) && s.services.all (fun v => v.status != 0)

/-- The present tick is a frame boundary, or the core clock is gated: its tick holds at the boundary at which STANDBY was
entered. With no frame in force there is no boundary to wait for, and every tick serves (notes/assumptions/125.md). -/
def State.atBoundary (s : State) : Bool := s.frame.isNone || s.boundaryDone == s.tick

/-- STANDBY_ENTRY (R397). -/
def execStandbyEntry (s : State) : Res :=
  .next (if s.pwr = pwStandbyPending ∧ s.quiet = true ∧ s.atBoundary = true then s.pwrMove pwStandby else s)

/-- WAKE_COMPLETE (R397): `DEV_TICK` resumes in ACTIVE. -/
def execWakeComplete (s : State) : Res := .next (if s.pwr = pwWaking then s.pwrMove pwActive else s)

/-- Enter RETAIN: CORE_PWR_EN falls, the links are down, and the pages of the planes no longer answer (R390, R397). -/
def State.enterRetain (s : State) : State :=
  let s1 := (List.range 12).foldl (fun t n => if t.cwSt n = cwQuar then t else t.cwDownPort n) s
  let s2 : State := { s1 with board := { s1.board with retain := true, coreEn := false, planes := false }, link := .down }
  (s2.sensorEvent 0x0022 s.pwrSensor s2.pwrSensor).wr F.RST_BOOT_PHASE 0 0

/-- RETAIN_ENTRY (R397). -/
def execRetainEntry (s : State) : Res :=
  .next (if s.pwr = pwRetainPending ∧ s.board.retain = false ∧ s.quiet = true ∧ s.atBoundary = true then s.enterRetain else s)

/-- OFF_READY_ENTRY (R397). -/
def execOffReadyEntry (s : State) : Res :=
  .next (if s.pwr = pwOffPending ∧ s.quiet = true ∧ s.atBoundary = true then
    (s.pwrMove pwOffReady).wr F.PWR_STATUS_READY_FOR_OFF 0 1 else s)

/-! ## Removal of power -/

/-- Every plane has lost its power, the always-on island included: what remains is the Hallmark bank, the flash of the
MGC and Patina history (R391, R412). -/
def State.powerOff (s : State) : State :=
  { State.reset with
    out := s.out, free := s.free, pending := s.pending, bank := s.bank, patina := s.patina
    mgc := { mgc0 with slots := s.mgc.slots, preferred := s.mgc.preferred, pack := s.mgc.pack }
    benchedHist := s.benchedHist, retiredHist := s.retiredHist, repairs := s.repairs }

/-- RAIL_REMOVAL (R397): the board removes all rails from OFF_READY. -/
def execRailRemoval (s : State) : Res := .next (if s.pwr = pwOffReady then s.powerOff else s)

/-- POWER_REMOVAL (R391). -/
def execPowerRemoval (s : State) : Res := .next s.powerOff

/-! ## Rail and board power (R395, R403) -/

/-- RAIL_OK_RISE (R395): the regulator shows the target that the MGC commanded, and it is that of the effective level. -/
def execRailOkRise (s : State) : Res :=
  .next (if s.mgcRuns = false ∨ s.rail ≠ s.effLevel ∨ s.rd F.PWR_STATUS_RAIL_OK 0 = 1 then s else
    let s1 := s.wr F.PWR_STATUS_RAIL_OK 0 1
    if s1.ready then s1.levelArrives else s1)

/-- The 1 ms report (R403): READ_POUT of every board rail regulator in milliwatts, none where a reading is lacking. A sum
that lacks a reading keeps the last POWER, and the energy of its interval is a free value (notes/assumptions/54.md). -/
def State.powerReport (s : State) (rs : List (Option Nat)) : State :=
  if !s.mgcRuns then s else
  let good := rs.all Option.isSome
  let mw := (rs.filterMap id).sum
  let power := if good then min 65535 (mw / 125) else s.rd F.PWR_BOARD_POWER 0
  let (uj, s0) := if good then (mw, s) else s.fresh
  let s1 := ((s0.wr F.PWR_BOARD_POWER 0 power).bump F.PWR_BOARD_SEQ 0 1).wr F.PWR_BOARD_STALE 0 (if good then 0 else 1)
  let e := s1.energyUj + uj
  let s2 : State := { s1.bump F.PWR_ENERGY_MJ 0 (e / 1000) with
    energyUj := e % 1000, peak := max s1.peak power, reports := s1.reports + 1 }
  if s2.reports < 1000 then s2
  else { s2.wr F.PWR_BOARD_PEAK_1S 0 s2.peak with peak := 0, reports := 0 }

/-- BOARD_POWER_REPORT (R403). -/
def execBoardPowerReport (readings : List (Option Nat)) (s : State) : Res := .next (s.powerReport readings)

end Sys2Proof.Machine
end

