-- ==== Sys2Proof/Machine/Resets.lean ====
section
/-! DEFINITION. COLD, WARM and MGC resets, and the start of the planes (spec/18_resets_hasps_longops.md, R409 to R421;
spec/02, R38; spec/03, R535; spec/09, R539, R540; spec/17, R544; spec/21, R475). A reset signals no fence and sends
nothing (R413). -/

namespace Sys2Proof.Machine
open Sys2Proof

/-! ## What outlives a WARM reset, field by field -/

/-- The parts of a field's key: block number, instance, offset, low bit. -/
def keyBlock (k : Nat) : Nat := k / 2 ^ 28
def keyInst (k : Nat) : Nat := k / 2 ^ 18 % 1024
def keyOff (k : Nat) : Nat := k / 64 % 4096
def keyLo (k : Nat) : Nat := k % 64

/-- Offsets in [a, b). -/
def inOff (k a b : Nat) : Bool := decide (a ≤ keyOff k) && decide (keyOff k < b)

/-- Does a polder demand scrub (R414)? -/
def State.demands (s : State) (p : Nat) : Bool :=
  s.pst p != pFree && (s.rd F.PLD_SCRUB_ON_WARM p == 1 || s.rd F.PLD_STATE_TDISP p != 0)

/-- Would a WARM reset keep the tables (R414)? -/
def State.willKeep (s : State) : Bool :=
  s.rd F.RST_KEEP_TABLES_KEEP 0 == 1 && (List.range 16).all (fun p => !s.demands p)

/-- Does a field keep its value across a WARM reset (Table — State under reset)? `kept` says that the tables are. -/
def State.warmField (s : State) (kept : Bool) (k : Nat) : Bool :=
  let b := keyBlock k
  let i := keyInst k
  if b = Block.junction.code ∨ b = Block.pinmux.code ∨ b = Block.hallmark.code ∨ b = Block.patina.code then true
  else if keyOff k < 0x040 then false
  else if b = Block.hasp.code then true
  else if b = Block.reset.code then inOff k 0x048 0x050 || (inOff k 0x068 0x070 && keyLo k == 16)
  else if b = Block.power.code then (inOff k 0x040 0x048 && keyLo k == 0) || inOff k 0x058 0x060
  else if b = Block.counters.code then i == 16 && ((inOff k 0x040 0x048 || inOff k 0x048 0x050) && keyLo k == 0)
  else if b = Block.assayCentral.code then inOff k 0x058 0x068 || (inOff k 0x100 0x270 && decide (keyLo k < 4))
  else if b = Block.assay.code then inOff k 0x100 0x200 && decide (keyLo k < 4)
  else if b = Block.polder.code then
    (inOff k 0x048 0x050 && keyLo k == 16) || (kept && s.pst i != pFree && inOff k 0x050 0x090)
  else if b = Block.owner.code then kept && (i == 16 || s.pst i != pFree) && inOff k 0x480 0x4B8
  else if b = Block.tower.code then
    inOff k 0x300 0x480 || inOff k 0x088 0x090 || (kept && inOff k 0x100 0x280)
  else if b = Block.causeway.code then
    (i == 0 && inOff k 0x400 0x480) && !inOff k 0x408 0x420 || (inOff k 0x040 0x048 && s.cwSt i == cwQuar)
  else false

/-! ## The start of the planes (R505 to R510, R415) -/

/-- The phases of `RST_BOOT.PHASE`. -/
def phRails : Nat := 0
def phMgcBoot : Nat := 1
def phTrain : Nat := 2
def phZero : Nat := 3
def phRestore : Nat := 4
def phReady : Nat := 5
def phFailed : Nat := 6

def State.phase (s : State) : Nat := s.rd F.RST_BOOT_PHASE 0
def State.setPhase (s : State) (n : Nat) : State := s.wr F.RST_BOOT_PHASE 0 n

/-- The start fails with a code (Table — `RST_BOOT`). -/
def State.startFails (s : State) (fail : Nat) : State := (s.wr F.RST_BOOT_FAIL 0 fail).setPhase phFailed

/-- The planes start (R505): training, or RESTORE when a WARM reset has kept the tables. -/
def State.planesGo (s : State) : State :=
  let s1 := ((s.wr F.RST_BOOT_FAIL 0 0).wr F.RST_BOOT_TRAIN_FAIL 0 0).wr F.RST_BOOT_TRAIN_RETRY 0 0
  { s1.setPhase (if s1.board.cold = false ∧ s1.rd F.RST_STATUS_KEPT 0 = 1 then phRestore else phTrain) with
    board := { s1.board with planes := true, train := [0, 0, 0, 0, 0, 0, 0, 0], trainNs := List.replicate 8 s1.ns } }

/-- May the planes start: the MGC is ready, PERST_N is released, the rails regulate, no COLD reset is due (R501), and the
last start has not failed (R498, R505, R509)? -/
def State.mayStart (s : State) : Bool :=
  s.board.perst && s.mgcRuns && s.board.pwrGood && !s.board.planes && !s.board.coldNext && s.phase != phFailed

/-- RESTORE and READY (R221, R224, R507, R510, R544): retirements apply again, the tick starts, and a level or tier that
differs from the one in force meets the Reeve. -/
def State.goReady (s : State) : State :=
  let s1 := s.setPhase phReady
  let s2 := s1.retiredHist.foldl (fun t v => (t.wri F.TWR_VSTAT_RETIRED (v / 32) (v % 32) 1).setCause .retired) s1
  let ms := (s2.ns - s2.board.perstNs) / 1000000
  let s3 := ((({ s2 with tick := 0 }).wr F.RST_BOOT_READY_MS 0 (min 65535 ms)).wr F.PWR_STATUS_RAIL_OK 0 1)
  s3.levelArrives.tierArrives

/-! ## COLD reset (R409, R412, R442, R457, R510, R540) -/

/-- The engines that history records as benched start SUSPECT with one mark dated at the reset (R442). -/
def State.suspects (s : State) : State :=
  s.benchedHist.foldl (fun t l =>
    State.setQueued ((State.setMarks { t with marks := SMap.put [] t.marks l [t.ns] } l 1).setHealth l 1) l 1) s

/-- The values of fuses and of the Hallmark bank after a COLD reset: the ceiling and the level at the cap, the mirror, and
the spare rows left (R31, R510). -/
def State.coldValues (s : State) : State :=
  let cap := s.bank.value hmCap
  let s1 := (s.hmMirror.wr F.JCT_CEIL_MGC_CEIL 0 cap).wr F.JCT_CEIL_CUR_LEVEL 0 cap
  ((List.range 256).foldl (fun t v =>
    t.wri F.TWR_VSTAT_SPARE_LEFT (v / 32) (v % 32) (48 - t.bank.strikes hmRepair v)) s1).suspects

/-- A COLD reset without loss of the always-on rail: both reset generations advance, and every plane returns to its reset
state. -/
def State.coldReset (s : State) : State :=
  let b := s.board
  let s1 : State := { s.powerOff with
    rail := s.rail
    board := { b with cold := true, coldNext := false, planes := false, retain := false, perstNs := 0
                      trainNs := [0, 0, 0, 0, 0, 0, 0, 0]
                      train := [0, 0, 0, 0, 0, 0, 0, 0] } }
  let s2 := [(F.JCT_RESET_GEN_CTRL, s.rd F.JCT_RESET_GEN_CTRL 0 + 1), (F.JCT_RESET_GEN_MGMT, s.rd F.JCT_RESET_GEN_MGMT 0 + 1),
    (F.RST_BOOT_STRAPS, s.rd F.RST_BOOT_STRAPS 0), (F.RST_STATUS_CAUSE, 1)].foldl
      (fun (t : State) (p : Fld × Nat) => t.wr p.1 0 p.2) s1
  s2.coldValues.setPhase (if b.pwrGood then phMgcBoot else phRails)

/-! ## WARM reset (R414 to R418) -/

/-- A WARM reset with its cause code. The sensors that it leaves in another state report it (R481). -/
def State.warmReset (s : State) (cause : Nat) : State :=
  let kept := s.willKeep
  let live (p : Nat) : Bool := p == noOwner || s.pst p != pFree
  let isExt (e : Nat) : Bool := decide (objKey .extent 0 ≤ e)
  let quar (k : Nat) : Bool := s.cwSt k == cwQuar
  let base : State := { State.reset with
    flds := s.flds.filter (fun e => s.warmField kept e.1)
    out := s.out, ns := s.ns, nsPart := s.nsPart, free := s.free, pending := s.pending, nextRun := s.nextRun
    own := if kept then s.own.filter (fun e => isExt e.1 && live e.2.1) else []
    dirty := if kept then s.dirty.filter (fun e => decide (e.1 < 2 ^ 20)) else []
    zeroJobs := if kept then
      s.zeroJobs.filter (fun j => j.polder == 16 && (match j.item with | .extent _ => true | _ => false)) else []
    jnlMap := if kept then s.jnlMap.filter (fun e => e.1 == 16 || live e.1) else []
    vault := if kept then s.vault else s.vault.filter (fun e => s.retired (e.1 / vaultBytes))
    vaultEcc := if kept then s.vaultEcc else s.vaultEcc.filter (fun e => s.retired (32 * e.1 / vaultBytes))
    bmeOff := s.bmeOff, marks := s.marks, benchedHist := s.benchedHist, retiredHist := s.retiredHist
    cperCount := s.cperCount, eventReceiver := s.eventReceiver, bank := s.bank, mgc := s.mgc, patina := s.patina
    repairs := s.repairs, counts := s.counts, bases := s.bases, faultQuar := s.faultQuar, coolSince := s.coolSince
    advNs := s.advNs, advSet := s.advSet, temps := s.temps, swing := s.swing, peak := s.peak, reports := s.reports
    energyUj := s.energyUj, rail := s.rail, parkPull := s.parkPull, tierHeld := s.tierHeld
    link := s.link
    ports := s.ports.filter (fun e => quar e.1)
    assay := { assay0 with stores := s.assay.stores, force := s.assay.force, reverify := s.assay.force.isSome, sweepNs := s.ns }
    board := { s.board with cold := false, planes := false, retain := false } }
  let s1 := [(F.JCT_RESET_GEN_CTRL, s.rd F.JCT_RESET_GEN_CTRL 0 + 1), (F.JCT_RESET_HOST_SCOPE, 0), (F.JCT_RESET_MGC_SCOPE, 0),
    (F.RST_STATUS_CAUSE, cause), (F.RST_STATUS_KEPT, b2n kept), (F.RST_BOOT_PHASE, phMgcBoot)].foldl
      (fun (t : State) (p : Fld × Nat) => t.wr p.1 0 p.2) base
  let busy := s.rd F.JCT_ZERO_BUSY 0
  let s2 := (if kept then s1 else s1.wr F.JCT_ZERO_DONE 0 (bitsOr 16 (s.rd F.JCT_ZERO_DONE 0) busy)).wr F.JCT_ZERO_BUSY 0 0
  let s3 := (List.range 16).foldl (fun t p => if kept && live p then
      (t.wr F.PLD_STATE_STATE p pConfiguring).bump F.PLD_STATE_GEN p 1 else t) s2
  let s4 := (List.range 17).foldl (fun t o => if kept && (o == 16 || live o) then
      t.wr F.EP_STATE_JNL_LOST o 1 else t) s3
  let s5 := engineLanes.foldl (fun t l => if s.health l = 1 then t.setQueued l 1 else t) s4
  (s5.breakHasps (fun id => isPfHolder id || id % 4 == 1)).sensorEvents s

/-- Begin a reset (R38): the wider of the cause's own scope and the pending requests is executed once. -/
def State.beginReset (s : State) (cause : Nat) : State :=
  let eff := max (s.rd F.JCT_RESET_HOST_SCOPE 0) (s.rd F.JCT_RESET_MGC_SCOPE 0)
  if eff = 2 then s.coldReset else s.warmReset cause

/-- A reset that leaves the link up starts the planes again as soon as they may start. -/
def State.restart (s : State) : State := if s.mayStart then s.planesGo else s

/-- A reset is in progress: the planes have started again and have reached neither READY nor FAILED. -/
def State.resetting (s : State) : Bool := s.board.planes && decide (s.phase < phReady)

/-- The reset logic begins a reset for the pending requests of the reset junction; one that reaches it during a reset waits
for that reset's end (R38). -/
def State.junctionReset (s : State) : State :=
  let eff := max (s.rd F.JCT_RESET_HOST_SCOPE 0) (s.rd F.JCT_RESET_MGC_SCOPE 0)
  if s.board.aon = false ∨ eff = 0 ∨ s.resetting = true then s else (s.beginReset 5).restart

/-- COLD_RESET (R409): the reset logic takes the requests of the reset junction. -/
def execColdReset (s : State) : Res := .next s.junctionReset

/-- WARM_RESET (R415): the reset logic takes the requests of the reset junction. -/
def execWarmReset (s : State) : Res := .next s.junctionReset

/-- PERST_N_ASSERT (R409): a WARM reset. In RETAIN it leaves RETAIN (R399): CORE_PWR_EN rises. -/
def execPerstNAssert (s : State) : Res :=
  .next (if s.board.aon = false ∨ s.board.perst = false then s else
    let s1 : State := { s with board := { s.board with perst := false }, link := .down }
    if s1.board.retain then { s1 with board := { s1.board with coreEn := true } } else s1.beginReset 2)

/-- HOT_RESET (R409): a PCI Express hot reset, or link down. -/
def execHotReset (s : State) : Res :=
  .next (if s.board.planes then (s.beginReset 3).restart else s)

/-- PF_FLR (R410). -/
def execPfFlr (s : State) : Res :=
  .next (if s.board.planes then (s.beginReset 4).restart else s)

/-- VF_FLR (R409): a FUNCTION reset of the polder. The VF's MSI-X table and PBA return to their reset values, in a FREE
polder too (Table — Host objects, Table — Polder states). -/
def execVfFlr (p : Fin 16) (s : State) : Res :=
  .next (if s.ready = false then s else
    State.functionReset { s with
      msix := SMap.clear (fun k => k / 4096 == p.val) s.msix
      pba := SMap.clear (fun k => k / 4096 == p.val) s.pba } p false)

/-- RETAIN_EXIT (R399): the rails are back after CORE_PWR_EN, and the planes come up as after a WARM reset. -/
def execRetainExit (s : State) : Res :=
  .next (if s.board.retain ∧ s.board.coreEn = true ∧ s.board.pwrGood = true then
    let s0 : State := { s with link := if s.board.perst then .l0 else .down }
    let s1 := s0.beginReset 6
    s1.restart
  else s)

/-- WARM_READY (R415): retraining and zeroing after a WARM reset are done. -/
def execWarmReady (s : State) : Res :=
  .next (if s.board.cold = false ∧ (s.phase = phRestore ∨ s.phase = phZero) then s.goReady else s)

/-! ## `RST_CMD` and the MGC (R38, R421, R478) -/

/-- A write to the RESET page, which answers before READY too (R509). -/
def State.rstDo (s : State) (fn : Fn) (t : State) : State := if s.board.planes && decide (fn = .pf) then t else s

/-- SCOPE is written to HOST_SCOPE, the host's last order (R31): 0 takes a pending request back; code 3 leaves the field
unchanged (Table — `RST_CMD`). -/
def State.hostScope (s : State) (scope : Nat) : State :=
  if scope = 3 then s else s.wr F.JCT_RESET_HOST_SCOPE 0 scope

/-- An MGC reset (R421, R424, R491): what the MGC held only in its memory is lost; every junction field stays. -/
def State.mgcReset (s : State) : State :=
  let m := s.mgc
  let s1 := ((s.bump F.JCT_RESET_GEN_MGMT 0 1).wr F.PWR_BOARD_STALE 0 1).breakHasps isMgcHolder
  { s1 with
    mgc := { m with up := false, recovery := false, held := [], eidSmb := 0, eidPcie := 0, tid := 0, upd := update0
                    spdm := { phase := 0, sessions := [] }, doe := { phase := 0, sessions := [] } }
    eventReceiver := none }

/-- RST_CMD_SCOPE (R38): the request waits in HOST_SCOPE until the reset logic begins a reset. -/
def execRstCmdScope (fn : Fn) (scope : Fin 4) (s : State) : Res := .next (s.rstDo fn (s.hostScope scope.val))

/-- RST_CMD_MGC (R421): a write with MGC = 1; SCOPE 2 in the same write absorbs it (R411). -/
def execRstCmdMgc (fn : Fn) (scope : Fin 4) (s : State) : Res :=
  .next (s.rstDo fn (if scope.val = 2 then s.hostScope 2 else (s.hostScope scope.val).mgcReset))

/-- MGC_WATCHDOG_EXPIRY (R478). -/
def execMgcWatchdogExpiry (s : State) : Res := .next (if s.mgc.up then s.mgcReset else s)

end Sys2Proof.Machine
end

