-- ==== Sys2Proof/Machine/Mgc.lean ====
section
/-! DEFINITION. The MGC: its start, the host mailbox and the effecters (spec/22_management_hallmark.md, R476 to R478,
R482, R485, R486, R489 to R496; spec/23_start_up.md, R500, R503, R504). Whether a firmware image verifies is an operand:
the spec gives no format of an image (notes/assumptions/42.md). -/

namespace Sys2Proof.Machine
open Sys2Proof

/-! ## Start (R476, R477, R486, R496) -/

/-- The SMBus target address that the straps give (Table — Straps). -/
def State.smbusAddress (s : State) : Nat := 0x58 + s.rd F.RST_BOOT_STRAPS 0 % 8

/-- The image in a firmware slot. -/
def Mgc.slot (m : Mgc) (i : Nat) : FwSlot := (m.slots[i]?).getD { svn := 0, version := 0, image := none }

/-- The key rows that no sound entry names yet, with the setting and the row's number (R496). -/
def Bank.unlogged (b : Bank) : List (Nat × Nat) :=
  let rows := (List.range b.ownerRows.length).map (fun i => (hmOwnerKey, i + 1)) ++
    (List.range b.signerRows.length).map (fun i => (hmSigner, i + 1))
  rows.filter (fun r => !b.log.any (fun e => e.checks && e.setting == r.1 && e.strike == r.2 &&
    (e.outcome == ocStruck || e.outcome == ocVoid)))

/-- Append a VOID entry for an unlogged key row; its OLD and NEW are free values. -/
def State.voidRow (s : State) (r : Nat × Nat) : State :=
  if s.bank.logFree r.1 = false then s else
  let (a, s1) := s.fresh
  let (b, s2) := s1.fresh
  let target := if r.1 = hmSigner then ((s.bank.signerRows[r.2 - 1]?).getD (0, [])).1 else 0
  s2.logAppend (LogEntry.sealed { setting := r.1, outcome := ocVoid, claim := false, target := target, strike := r.2
                                  old := a, new := b, ns := s.devNs, check := 0 })

/-- The first start after a COLD reset takes the pins into their reset functions, through the park (R524). -/
def State.pinsStart (s : State) : State :=
  (List.range 8).foldl (fun t n => t.wri F.PMX_SB_CUR_FUNC 0 n (t.rdi F.PMX_SB_FUNC 0 n)) s

/-- A mailbox request that the reset interrupted ends as ABANDONED (R486). -/
def State.mbxAbandon (s : State) : State :=
  if s.rd F.MBX_STATUS_BUSY 0 = 0 then s else
  ((s.wr F.MBX_STATUS_BUSY 0 0).wr F.MBX_STATUS_DONE 0 1).wr F.MBX_STATUS_RESULT 0 8

/-- The firmware takes over from the ROM with the image of slot `i`. Before the planes start it commands the rail of the
effective level and waits until the regulator shows it (R500); over running planes it commands a rail that waits for it
(R421). -/
def State.firmwareRuns (s : State) (i : Nat) : State :=
  let m := s.mgc
  let im := m.slot i
  let s1 := [(F.MGC_BOOT_SLOT, i), (F.MGC_BOOT_FELL_BACK, b2n (i != m.preferred)), (F.MGC_BOOT_RUN_SVN, im.svn),
    (F.MGC_BOOT_FW_VERSION, im.version), (F.HM_LOG_REJECTS, 0), (F.PAT_STATUS_SAMPLES, 0)].foldl
      (fun (t : State) (p : Fld × Nat) => t.wr p.1 0 p.2) { s with mgc := { m with up := true, recovery := false } }
  let s2 := s1.bank.unlogged.foldl State.voidRow s1
  let s3 := if s2.board.planes then s2.railCommand else (s2.railTo s2.effLevel).wr F.PWR_STATUS_RAIL_OK 0 1
  (s3.hmMirror.patLifeUpdate.testLife.testSpare).mbxAbandon

/-- ROM recovery, with the start failure that the host sees when the planes do not run (R477, R509). -/
def State.romRecovery (s : State) (fail : Nat) : State :=
  let s1 := State.setFault { s with mgc := { s.mgc with up := true, recovery := true } } F.JCT_HEALTH_FAULT_MGC 1
  let s2 := s1.mbxAbandon
  if s2.board.planes then s2 else s2.startFails fail

/-- The slot whose image the ROM runs, if any (R476): the preferred one first. -/
def State.bootSlot (s : State) (sig0 sig1 : Bool) : Option Nat :=
  let ok (i : Nat) : Bool := (if i = 0 then sig0 else sig1) && decide (s.bank.value hmSecurity ≤ (s.mgc.slot i).svn)
  let p := s.mgc.preferred
  if ok p then some p else if ok (1 - p) then some (1 - p) else none

/-- An MGC start (R476, R477, R504): the first one after power-up waits for PWR_GOOD. -/
def State.mgcBoot (s : State) (sig0 sig1 : Bool) : State :=
  if s.board.aon = false ∨ s.board.strapped = false ∨ s.mgc.up = true then s else
  let s1 := if s.board.planes then s else s.pinsStart
  if bitAt (s1.rd F.RST_BOOT_STRAPS 0) 3 then s1.romRecovery 2 else
  match s1.bootSlot sig0 sig1 with
  | some i => s1.firmwareRuns i
  | none => s1.romRecovery 1

/-- MGC_BOOT (R476): `sig0` and `sig1` say whether the images of the slots verify. -/
def execMgcBoot (sig0 sig1 : Bool) (s : State) : Res := .next (s.mgcBoot sig0 sig1)

/-! ## The host mailbox (R485, R486, R489 to R492) -/

/-- The request bytes. -/
def State.mbxReq (s : State) (len : Nat) : List Byte :=
  ((List.range 64).flatMap (fun i => leBytes 8 (s.rdi F.MBX_REQ_DATA 0 i))).take len

/-- The MGC answers: response bytes, RESULT, RSP_LEN, DONE. -/
def State.mbxAnswer (s : State) (result : Nat) (rsp : List Byte) : State :=
  let s1 := s.wrWords F.MBX_RSP_DATA 0 rsp
  [(F.MBX_STATUS_BUSY, 0), (F.MBX_STATUS_DONE, 1), (F.MBX_STATUS_RESULT, result),
    (F.MBX_STATUS_RSP_LEN, rsp.length)].foldl (fun (t : State) (p : Fld × Nat) => t.wr p.1 0 p.2) s1

/-- A write of `MBX_CMD`: while BUSY = 1, or with LEN above 512, it is illegal. The MGC takes the request when it runs
its firmware; `cut` says how far it gets before its next reset, and a request that it does not answer stays BUSY until the
MGC's next start. `need` is the operation's request length, `early` what an interrupted request leaves, `act` the whole
operation. -/
def State.mbx (s : State) (op len need : Nat) (cut : MbxCut) (early act : State → State) : State :=
  if s.rd F.MBX_STATUS_BUSY 0 = 1 ∨ 512 < len then s.illegal .junction 0 0x100 else
  let s1 := [(F.MBX_STATUS_BUSY, 1), (F.MBX_STATUS_DONE, 0), (F.MBX_STATUS_OP, op),
    (F.MBX_STATUS_GEN, s.rd F.JCT_RESET_GEN_MGMT 0)].foldl (fun (t : State) (p : Fld × Nat) => t.wr p.1 0 p.2) s
  if s1.mgcRuns = false then s1
  else if len ≠ need then (if cut = .done then s1.mbxAnswer 1 [] else s1)
  else if cut = .done then act s1 else early s1

/-- MBX_GET_INFO (R485). -/
def State.mbxGetInfo (s : State) : State :=
  let w2 := s.rd F.MGC_BOOT_SLOT 0 + 2 * s.rd F.MGC_BOOT_FELL_BACK 0 + 2 ^ 8 * s.rd F.MGC_BOOT_RUN_SVN 0
    + 2 ^ 32 * s.rd F.MGC_BOOT_FW_VERSION 0
  s.mbxAnswer 0 (leBytes 8 s.bank.uid0 ++ leBytes 8 s.bank.uid1 ++ leBytes 8 w2 ++
    leBytes 4 (s.mgc.slot 0).version ++ leBytes 4 (s.mgc.slot 1).version)

def execMbxGetInfo (fn : Fn) (len : Nat) (cut : MbxCut) (s : State) : Res :=
  .next (s.pfDo fn (s.mbx 1 len 0 cut id State.mbxGetInfo))

/-- Does an authorisation record pass R490: its signature verifies against the present OWNER_KEY, or against VALUE when
AUTH is 1? A field outside Table — Authorisation record fails it too. -/
def State.authOk (s : State) (r : List Byte) (hold : Bool) : Bool :=
  let setting := numAt r 4 1
  let auth := numAt r 5 1
  let target := numAt r 6 2
  let count := numAt r 0xA 2
  numAt r 0 4 == 0x4B525453 && numAt r 0x10 8 == s.bank.uid0 && numAt r 0x18 8 == s.bank.uid1 && numAt r 0xE 2 == 0 &&
  (if hold then setting == hmRepair && decide (target ≤ 255) && decide (1 ≤ count) && decide (count ≤ 48) && numAt r 0xC 2 == 0
   else setting != hmRepair && decide (setting ≤ 8) && count == 1 &&
    (if setting = hmSigner then decide (1 ≤ target) && decide (target ≤ 8) else target == 0)) &&
  (if auth = 0 then s.bank.ownerSigned (slice r 0 128) (slice r 128 96)
   else auth == 1 && setting == hmOwnerKey && s.bank.strikes hmOwnerKey 0 == 0 &&
    ecdsaOk (slice r 0x20 96) (slice r 0 128) (slice r 128 96))

/-- The value that a record asks for, as a number (Table — Authorisation record). -/
def recValue (r : List Byte) : Nat := ofLe ((slice r 0x20 96).take (numAt r 0xC 2))

/-- The value rule of a setting (Table — Counted settings). -/
def State.valueOk (s : State) (r : List Byte) : Bool :=
  let v := recValue r
  let len := numAt r 0xC 2
  let now := s.bank.value (numAt r 4 1)
  match numAt r 4 1 with
  | 0 => decide (now < v) && decide (v ≤ s.rd F.MGC_BOOT_RUN_SVN 0) && decide (v ≤ 255)
  | 1 => keyOk (slice r 0x20 96) && len == 96 && decide (s.bank.ownerKey ≠ some (slice r 0x20 96))
  | 2 => v != now && decide (v < 2 ^ 24)
  | 3 => decide (now < v) && decide (v ≤ 3)
  | 4 => v == 1 && (List.range 16).all (fun p => s.pst p == pFree || s.rd F.PLD_CFG_MODE p == 0)
  | 5 => v == 1
  | 6 => v != now && decide (v < 2 ^ 12)
  | 8 => len == 48 && decide (s.bank.signer (numAt r 6 2) ≠ slice r 0x20 48)
  | _ => false

/-- The first 8 bytes of the SHA-384 of a key. -/
def keyDigest (k : List Byte) : Nat := numAt (sha384 k) 0 8

/-- OLD, NEW and the key row of a record (Table — Log entry). OLD of an unclaimed OWNER_KEY is a free value. -/
def State.strikeWords (s : State) (r : List Byte) : (Nat × Nat × Option (List Byte)) × State :=
  let setting := numAt r 4 1
  if setting = hmOwnerKey then
    let k := slice r 0x20 96
    match s.bank.ownerKey with
    | some o => ((keyDigest o, keyDigest k, some k), s)
    | none => let (v, s1) := s.fresh; ((v, keyDigest k, some k), s1)
  else if setting = hmSigner then
    let k := slice r 0x20 48
    ((numAt (s.bank.signer (numAt r 6 2)) 0 8, numAt k 0 8, some k), s)
  else ((s.bank.value setting, recValue r, none), s)

/-- STRIKE, up to its answer: RESULT and the index written (R490 to R495). -/
def State.strikeCmd (s : State) : (Nat × Nat) × State :=
  let r := s.mbxReq 224
  let setting := numAt r 4 1
  let target := numAt r 6 2
  if s.authOk r false = false then ((2, 0xFFFF), s.reject)
  else if numAt r 8 2 ≠ s.bank.strikes setting target + 1 then ((3, 0xFFFF), s.reject)
  else
    let ((old, new, row), s1) := s.strikeWords r
    match s1.strike setting target (numAt r 5 1 == 1) old new (s.valueOk r) row with
    | (.logFull, t) => ((6, 0xFFFF), t)
    | (.limit i, t) => ((4, i), t)
    | (.value i, t) => ((5, i), t)
    | (.struck i, t) => ((0, i), t)

/-- The key row of an interrupted strike that would have committed (R495, R496). -/
def State.strikeRow (s : State) : State :=
  match s.strikeCmd with
  | ((0, _), t) => { s with bank := { s.bank with ownerRows := t.bank.ownerRows, signerRows := t.bank.signerRows } }
  | _ => s

/-- The log slot of an entry whose write was interrupted: it reads as VOID, and the rest of it is a free value (R496). -/
def State.tornEntry (s : State) : State :=
  let (a, s1) := s.fresh
  let (b, s2) := s1.fresh
  let (c, s3) := s2.fresh
  let (d, s4) := s3.fresh
  let e : LogEntry := { setting := a % 16, outcome := ocVoid, claim := bitAt a 4, target := a / 32 % 256
                        strike := a / 2 ^ 13 % 128, old := b % 2 ^ 64, new := c % 2 ^ 64, ns := d % 2 ^ 64, check := 0 }
  s4.logAppend { e with check := (crc8 e.covered + 1 + a / 2 ^ 20 % 255) % 256 }

/-- What an interrupted STRIKE leaves (R486, R495). A strike that writes no entry leaves nothing. -/
def State.strikeEarly (s : State) (cut : MbxCut) : State :=
  let ((_, i), t) := s.strikeCmd
  match cut with
  | .accepted => s
  | .keyRow => s.strikeRow
  | .torn => if i = 0xFFFF then s else s.strikeRow.tornEntry
  | _ => if i = 0xFFFF then s else t

/-- MBX_STRIKE (R492): the record stands in `MBX_REQ`. -/
def execMbxStrike (fn : Fn) (len : Nat) (cut : MbxCut) (s : State) : Res :=
  .next (s.pfDo fn (s.mbx 2 len 224 cut (fun t => t.strikeEarly cut) (fun t =>
    let (a, u) := t.strikeCmd
    u.mbxAnswer a.1 (leBytes 8 a.2))))

/-- AUTH_HOLD (R491). -/
def State.authHold (s : State) : State :=
  let r := s.mbxReq 224
  let v := numAt r 6 2
  if s.authOk r true = false then s.reject.mbxAnswer 2 []
  else if numAt r 8 2 ≠ s.bank.strikes hmRepair v + 1 then s.reject.mbxAnswer 3 []
  else
    let n := numAt r 0xA 2
    State.mbxAnswer { s with mgc := { s.mgc with held := SMap.put (0, 0) s.mgc.held v (numAt r 8 2, n) } } 0 (leBytes 8 n)

/-- MBX_AUTH_HOLD (R491). -/
def execMbxAuthHold (fn : Fn) (len : Nat) (cut : MbxCut) (s : State) : Res :=
  .next (s.pfDo fn (s.mbx 3 len 224 cut id State.authHold))

/-- Word 0 of the request. -/
def State.mbxWord0 (s : State) : Nat := s.rdi F.MBX_REQ_DATA 0 0

/-- LOG_READ: up to 15 entries from word 1, with their count in word 0. -/
def State.logRead (s : State) : State :=
  let es := (s.bank.log.drop s.mbxWord0).take 15
  if es.isEmpty then s.mbxAnswer 7 [] else s.mbxAnswer 0 (leBytes 8 es.length ++ es.flatMap LogEntry.bytes)

/-- MBX_LOG_READ (R485). -/
def execMbxLogRead (fn : Fn) (len : Nat) (cut : MbxCut) (s : State) : Res :=
  .next (s.pfDo fn (s.mbx 4 len 8 cut id State.logRead))

/-- Words of a response that no table gives a meaning. -/
def State.freeWords (s : State) (n : Nat) : List Byte × State :=
  (List.range n).foldl (fun x _ => let (v, t) := x.2.fresh; (x.1 ++ leBytes 8 v, t)) ([], s)

/-- PACK_READ: up to 480 bytes from word 4, the number of bytes in word 0 and the pack's size in word 1. -/
def State.packRead (s : State) : State :=
  let bs := (s.mgc.pack.drop s.mbxWord0).take 480
  if bs.isEmpty then s.mbxAnswer 7 [] else
  let (w, s1) := s.freeWords 2
  let pad := List.replicate ((8 - bs.length % 8) % 8) 0
  (s1.mbxAnswer 0 (leBytes 8 bs.length ++ leBytes 8 s.mgc.pack.length ++ w ++ bs ++ pad)).wr F.MBX_STATUS_RSP_LEN 0
    (32 + bs.length)

/-- MBX_PACK_READ (R485). -/
def execMbxPackRead (fn : Fn) (len : Nat) (cut : MbxCut) (s : State) : Res :=
  .next (s.pfDo fn (s.mbx 5 len 8 cut id State.packRead))

/-- PATINA_READ: up to 60 daily points from word 4, oldest first, with their count in word 0. -/
def State.patinaRead (s : State) : State :=
  let ps := (s.patina.points.reverse.drop s.mbxWord0).take 60
  if ps.isEmpty then s.mbxAnswer 7 [] else
  let (w, s1) := s.freeWords 3
  s1.mbxAnswer 0 (leBytes 8 ps.length ++ w ++ ps.flatMap (fun p => leBytes 4 p.1 ++ leBytes 4 p.2))

/-- MBX_PATINA_READ (R485). -/
def execMbxPatinaRead (fn : Fn) (len : Nat) (cut : MbxCut) (s : State) : Res :=
  .next (s.pfDo fn (s.mbx 6 len 8 cut id State.patinaRead))

/-! ## Effecters (R482, Table — Effecters). The MGC answers only while it runs its firmware. -/

/-- The completion codes of PLDM that the effecters use (notes/assumptions/55.md). -/
def ccOk : Nat := 0
def ccError : Nat := 1
def ccInvalidData : Nat := 2

/-- Answer a PLDM message of a type: completion code, then data. -/
def State.pldm (s : State) (type cmd : Nat) (data : List Nat) : State := s.emit (.reply type cmd data)

/-- An effecter command: the MGC answers, and writes only when the value is not rejected. -/
def State.effect (s : State) (cmd : Nat) (accept : Bool) (t : State) : State :=
  if s.mgcRuns = false then s else if accept then t.pldm 2 cmd [ccOk] else s.pldm 2 cmd [ccInvalidData]

/-- The commands SetNumericEffecterValue and SetStateEffecterStates. -/
def cmdNumeric : Nat := 0x31
def cmdStates : Nat := 0x39

/-- EFFECTER_MGC_CEILING (R401, R482). -/
def execEffecterMgcCeiling (value : Nat) (s : State) : Res :=
  .next (s.effect cmdNumeric (decide (value ≤ 3) && decide (s.bank.value hmCap ≤ value))
    (s.setLevelMaster F.JCT_CEIL_MGC_CEIL value))

/-- EFFECTER_LEAVE_RETAIN (R399): CORE_PWR_EN rises, and RETAIN_EXIT follows when the rails are back. -/
def execEffecterLeaveRetain (state : Nat) (s : State) : Res :=
  .next (s.effect cmdStates (state == 1 || (state == 2 && s.board.retain))
    (if state = 2 then { s with board := { s.board with coreEn := true } } else s))

/-- EFFECTER_RESET_SCOPE (R482): state 1 writes no request. -/
def execEffecterResetScope (state : Nat) (s : State) : Res :=
  .next (s.effect cmdStates (decide (1 ≤ state) && decide (state ≤ 3)) (s.wr F.JCT_RESET_MGC_SCOPE 0 (state - 1)))

/-- The MGC enables and disables ports (R31); a port that loses its enable goes to DOWN (R365). -/
def State.mgcPorts (s : State) (states : List (Option Nat)) : State :=
  let en := (List.range 12).foldl (fun v n => match (states[n]?).getD none with
    | some 1 => setBit v n
    | some _ => clrBit v n
    | none => v) (s.rd F.JCT_PORT_EN_MGC_EN 0)
  let s1 := s.wr F.JCT_PORT_EN_MGC_EN 0 en
  (List.range 12).foldl (fun t n => if s.portEff n && !s1.portEff n then t.cwDownPort n else t) s1

/-- Does a composite effecter command name states 1 and 2 only, for as many parts as the effecter has? -/
def statesOk (states : List (Option Nat)) (n : Nat) : Bool :=
  states.length == n && states.all (fun x => x == none || x == some 1 || x == some 2)

/-- EFFECTER_PORT_ENABLE (R482): a part without a request keeps its bit. -/
def execEffecterPortEnable (states : List (Option Nat)) (s : State) : Res :=
  .next (s.effect cmdStates (statesOk states 12) (s.mgcPorts states))

/-- EFFECTER_ZERO_ORDER (R39, R482): the orders in ascending polder number. -/
def execEffecterZeroOrder (states : List (Option Nat)) (s : State) : Res :=
  .next (s.effect cmdStates (statesOk states 16 &&
      (List.range 16).all (fun p => (states[p]?).getD none != some 2 || s.pst p != pFree))
    ((List.range 16).foldl (fun t p => match (states[p]?).getD none with
      | some 2 => t.zeroOrder p
      | some _ => t.wr F.JCT_ZERO_MGC_REQ 0 (clrBit (t.rd F.JCT_ZERO_MGC_REQ 0) p)
      | none => t) s))

/-- EFFECTER_FAULT (R482): the ROM holds the fault only in recovery, where no effecter answers. -/
def execEffecterFault (state : Nat) (s : State) : Res :=
  .next (s.effect cmdStates (state == 1 || state == 2) (s.setFault F.JCT_HEALTH_FAULT_MGC (state - 1)))

end Sys2Proof.Machine
end

