-- ==== Sys2Proof/Machine/Manage.lean ====
section
/-! DEFINITION. The management protocols: MCTP control, PLDM Types 0, 2 and 5, and SPDM (spec/22_management_hallmark.md,
R479 to R484; spec/23_start_up.md, R512). Codes, bit positions and message fields that the manual leaves to the
standards it cites are theirs (notes/assumptions/55.md). -/

namespace Sys2Proof.Machine
open Sys2Proof

/-! ## MCTP control -/

/-- The number under which MCTP control, SPDM over MCTP and SPDM over DOE answer; PLDM answers under its type. -/
def protoMctp : Nat := 16
def protoSpdm : Nat := 17
def protoDoe : Nat := 18

/-- The MGC answers while it is up: in ROM recovery only MCTP control and PLDM Types 0 and 5 (R477, R482). -/
def State.answer (s : State) (t : State) : State := if s.mgc.up then t else s

/-- As `answer`, for the messages that ROM recovery does not answer. -/
def State.answerRun (s : State) (t : State) : State := if s.mgcRuns then t else s

/-- The endpoint ID of a binding. -/
def Mgc.eid (m : Mgc) (pcie : Bool) : Nat := if pcie then m.eidPcie else m.eidSmb

/-- MCTP_SET_ENDPOINT_ID (R479): operations 0 and 1 set the ID; 0, 0xFF and the reserved IDs below 8 are refused. -/
def State.mctpSetEid (s : State) (pcie : Bool) (op eid : Nat) : State :=
  if 1 < op ∨ eid < 8 ∨ 255 ≤ eid then s.emit (.reply protoMctp 1 [2]) else
  let m := s.mgc
  State.emit { s with mgc := if pcie then { m with eidPcie := eid } else { m with eidSmb := eid } }
    (.reply protoMctp 1 [0, 0, eid, 0])

def execMctpSetEndpointId (pcie : Bool) (op eid : Nat) (s : State) : Res := .next (s.answer (s.mctpSetEid pcie op eid))

/-- MCTP_GET_ENDPOINT_ID (R479): a simple endpoint with a dynamic ID. -/
def execMctpGetEndpointId (pcie : Bool) (s : State) : Res :=
  .next (s.answer (s.emit (.reply protoMctp 2 [0, s.mgc.eid pcie, 0, 0])))

/-- MCTP_GET_VERSION_SUPPORT (R479): the base and control are version 1.3; the manual gives no version of the other
message types, which answer a free value. -/
def State.mctpVersion (s : State) (type : Nat) : State :=
  if type = 0xFF ∨ type = 0 then s.emit (.reply protoMctp 4 [0, 1, 0xF1F3FF00])
  else if type = 1 ∨ type = 5 then let (v, s1) := s.fresh; s1.emit (.reply protoMctp 4 [0, 1, v])
  else s.emit (.reply protoMctp 4 [0x80])

def execMctpGetVersionSupport (type : Nat) (s : State) : Res := .next (s.answer (s.mctpVersion type))

/-- MCTP_GET_MESSAGE_TYPE_SUPPORT (R479): types 0x00, 0x01 and 0x05. -/
def execMctpGetMessageTypeSupport (s : State) : Res :=
  .next (s.answer (s.emit (.reply protoMctp 5 [0, 3, 0x00, 0x01, 0x05])))

/-! ## PLDM Type 0 -/

/-- PLDM_GET_TID (R479). -/
def execPldmGetTid (s : State) : Res := .next (s.answer (s.pldm 0 2 [ccOk, s.mgc.tid]))

/-- PLDM_SET_TID (R479): 0 and 0xFF are no terminus IDs. -/
def State.setTid (s : State) (tid : Nat) : State :=
  if tid = 0 ∨ 255 ≤ tid then s.pldm 0 1 [ccInvalidData]
  else State.pldm { s with mgc := { s.mgc with tid := tid } } 0 1 [ccOk]

def execPldmSetTid (tid : Nat) (s : State) : Res := .next (s.answer (s.setTid tid))

/-- The PLDM types that the MGC answers at present (R477, R479). -/
def State.pldmTypes (s : State) : List Nat := if s.mgcRuns then [0, 2, 5] else [0, 5]

/-- PLDM_GET_PLDM_VERSION (R479): the manual gives no version numbers, so the version is a free value. -/
def State.pldmVersion (s : State) (type : Nat) : State :=
  if s.pldmTypes.contains type then let (v, s1) := s.fresh; s1.pldm 0 3 [ccOk, v] else s.pldm 0 3 [0x83]

def execPldmGetPldmVersion (type : Nat) (s : State) : Res := .next (s.answer (s.pldmVersion type))

/-- PLDM_GET_PLDM_TYPES (R479): a mask of types. -/
def execPldmGetPldmTypes (s : State) : Res :=
  .next (s.answer (s.pldm 0 4 [ccOk, (s.pldmTypes.map (fun t => 2 ^ t)).sum]))

/-- The commands of a PLDM type (R479, R483). -/
def pldmCommands : Nat → List Nat
  | 0 => [0x01, 0x02, 0x03, 0x04, 0x05]
  | 2 => [0x04, 0x0A, 0x11, 0x21, 0x31, 0x39, 0x50, 0x51]
  | 5 => [0x01, 0x02, 0x10, 0x13, 0x14, 0x15, 0x16, 0x17, 0x18, 0x1A, 0x1B, 0x1C, 0x1D]
  | _ => []

/-- PLDM_GET_PLDM_COMMANDS (R479): a mask of command codes. -/
def execPldmGetPldmCommands (type : Nat) (s : State) : Res :=
  .next (s.answer (if s.pldmTypes.contains type then s.pldm 0 5 [ccOk, ((pldmCommands type).map (fun c => 2 ^ c)).sum]
    else s.pldm 0 5 [0x83]))

/-! ## PLDM Type 2 (R481, R482) -/

/-- The sensors and effecters, in the order of Table — Sensors and Table — Effecters: kind (0 numeric sensor, 1 state
sensor, 2 numeric effecter, 3 state effecter) and ID. Each has one PDR, whose record handle is its position plus 1. -/
def pdrs : List (Nat × Nat) :=
  [(0, 0x01), (0, 0x02)] ++ (List.range 8).map (fun t => (0, 0x10 + t)) ++
  [(0, 0x18), (1, 0x20), (1, 0x21), (1, 0x22), (1, 0x23), (0, 0x30), (0, 0x31), (0, 0x32)] ++
  [(2, 0x100), (3, 0x101), (3, 0x102), (3, 0x103), (3, 0x104), (3, 0x105)]

/-- PLDM_GET_PDR (R479): handle 0 is the first record; the answer gives the next handle, the kind, the ID, and the rest of
the record, which the manual does not give, as a free value. -/
def State.getPdr (s : State) (handle : Nat) : State :=
  let h := if handle = 0 then 1 else handle
  match pdrs[h - 1]? with
  | none => s.pldm 2 0x51 [0x82]
  | some (kind, id) =>
    let (v, s1) := s.fresh
    s1.pldm 2 0x51 [ccOk, if h < pdrs.length then h + 1 else 0, kind, id, v]

def execPldmGetPdr (handle : Nat) (s : State) : Res := .next (s.answerRun (s.getPdr handle))

/-- PLDM_GET_PDR_REPOSITORY_INFO (R479): available, its number of records, and a free value for its sizes and times. -/
def State.pdrInfo (s : State) : State := let (v, s1) := s.fresh; s1.pldm 2 0x50 [ccOk, 0, pdrs.length, v]

def execPldmGetPdrRepositoryInfo (s : State) : Res := .next (s.answerRun s.pdrInfo)

/-- The reading of a numeric sensor and whether its source is valid (Table — Sensors, R481). The sources in the planes
are invalid while the planes do not run. -/
def State.numericSensor (s : State) (id : Nat) : Option (Bool × Nat) :=
  let on := s.board.planes
  let fresh := on && s.rd F.PWR_BOARD_STALE 0 == 0
  if id = 0x01 then some (fresh, s.rd F.PWR_BOARD_POWER 0)
  else if id = 0x02 then some (fresh, s.rd F.PWR_BOARD_PEAK_1S 0)
  else if 0x10 ≤ id ∧ id < 0x18 then
    some (on && s.rd F.TWR_TEMP_BAD_SENSORS (id - 0x10) != 32, s.rd F.TWR_TEMP_MAX (id - 0x10))
  else if id = 0x18 then some (on, s.rd F.PWR_TEMP_BASE_MAX 0)
  else if id = 0x30 then some (true, s.rd F.PAT_INDEX_INDEX 0)
  else if id = 0x31 then some (s.rd F.PAT_LIFE_VALID 0 == 1, s.rd F.PAT_LIFE_DAYS 0)
  else if id = 0x32 then some (s.rd F.PAT_LIFE_VALID 0 == 1, s.rd F.PAT_LIFE_LOW 0)
  else none

/-- PLDM_GET_SENSOR_READING (R481): operational state 0 enabled, 2 unavailable. -/
def State.sensorReading (s : State) (id : Nat) : State :=
  match s.numericSensor id with
  | none => s.pldm 2 0x11 [0x80]
  | some (true, v) => s.pldm 2 0x11 [ccOk, 0, v]
  | some (false, _) => s.pldm 2 0x11 [ccOk, 2]

def execPldmGetSensorReading (id : Nat) (s : State) : Res := .next (s.answerRun (s.sensorReading id))

/-- PLDM_GET_STATE_SENSOR_READINGS (R481). -/
def execPldmGetStateSensorReadings (id : Nat) (s : State) : Res :=
  .next (s.answerRun (match s.stateSensor id with
    | none => s.pldm 2 0x21 [0x80]
    | some v => s.pldm 2 0x21 [ccOk, 1, 0, v]))

/-- PLDM_SET_EVENT_RECEIVER (R479): where platform events go, or none. -/
def execPldmSetEventReceiver (receiver : Option Nat) (s : State) : Res :=
  .next (s.answerRun (State.pldm { s with eventReceiver := receiver } 2 0x04 [ccOk]))

/-! ## PLDM Type 5 (R483, R484, R512) -/

/-- The states of an update. -/
def upIdle : Nat := 0
def upLearn : Nat := 1
def upReady : Nat := 2
def upDownload : Nat := 3
def upVerify : Nat := 4
def upApply : Nat := 5

/-- The components. -/
def compFirmware : Nat := 1
def compPack : Nat := 2

/-- PLDM_QUERY_DEVICE_IDENTIFIERS (R483): the identifiers are a free value. -/
def execPldmQueryDeviceIdentifiers (s : State) : Res :=
  .next (s.answer (let (v, t) := s.fresh; t.pldm 5 0x01 [ccOk, v]))

/-- PLDM_GET_FIRMWARE_PARAMETERS (R483): both components, the preferred slot, and the versions of the two slots. -/
def execPldmGetFirmwareParameters (s : State) : Res :=
  .next (s.answer (s.pldm 5 0x02
    [ccOk, compFirmware, compPack, s.mgc.preferred, (s.mgc.slot 0).version, (s.mgc.slot 1).version]))

/-- The update, with another one in its place. -/
def State.setUpd (s : State) (u : Update) : State := { s with mgc := { s.mgc with upd := u } }

/-- Answer an update command in one of its states; in another state the code says so. -/
def State.inState (s : State) (cmd : Nat) (ok : List Nat) (t : State) : State :=
  if ok.contains s.mgc.upd.state then t
  else s.pldm 5 cmd [if s.mgc.upd.state = upIdle then 0x80 else 0x84]

/-- PLDM_REQUEST_UPDATE (R483): one update at a time; the maximum transfer is 512 bytes. -/
def State.requestUpdate (s : State) (maxTransfer : Nat) : State :=
  if s.mgc.upd.state ≠ upIdle then s.pldm 5 0x10 [0x81]
  else if maxTransfer < 32 then s.pldm 5 0x10 [ccInvalidData]
  else (s.setUpd { update0 with state := upLearn }).pldm 5 0x10 [ccOk, min 512 maxTransfer]

def execPldmRequestUpdate (maxTransfer : Nat) (s : State) : Res := .next (s.answer (s.requestUpdate maxTransfer))

/-- PLDM_PASS_COMPONENT_TABLE (R483): the last component ends the table. -/
def State.passComponent (s : State) (comp : Nat) (last : Bool) : State :=
  s.inState 0x13 [upLearn] (
    let u := s.mgc.upd
    let known := comp == compFirmware || comp == compPack
    let u1 : Update := { u with comps := if known then u.comps ++ [comp] else u.comps
                                state := if last then upReady else upLearn }
    (s.setUpd u1).pldm 5 0x13 [ccOk, if known then 0 else 1])

def execPldmPassComponentTable (comp : Nat) (last : Bool) (s : State) : Res := .next (s.answer (s.passComponent comp last))

/-- PLDM_UPDATE_COMPONENT (R483): a component of the table, with its size; the MGC then asks for its first bytes. -/
def State.updateComponent (s : State) (comp size : Nat) : State :=
  s.inState 0x14 [upReady] (
    let u := s.mgc.upd
    if u.comps.contains comp = false ∨ size = 0 then s.pldm 5 0x14 [ccOk, 1]
    else
      let s1 := s.setUpd { u with state := upDownload, comp := comp, size := size, data := [], verified := false, applied := false }
      (s1.pldm 5 0x14 [ccOk, 0]).pldm 5 0x15 [0, min 512 size])

def execPldmUpdateComponent (comp size : Nat) (s : State) : Res := .next (s.answer (s.updateComponent comp size))

/-- PLDM_REQUEST_FIRMWARE_DATA (R483): the response brings the bytes that the MGC asked for, at most 512; while bytes are
missing it asks for the next ones. -/
def State.firmwareData (s : State) (bytes : List Byte) : State :=
  let u := s.mgc.upd
  if u.state ≠ upDownload ∨ u.data.length = u.size then s else
  let want := min 512 (u.size - u.data.length)
  if bytes.length ≠ want then s.pldm 5 0x15 [u.data.length, want] else
  let s1 := s.setUpd { u with data := u.data ++ bytes }
  let n := u.data.length + want
  if n = u.size then s1 else s1.pldm 5 0x15 [n, min 512 (u.size - n)]

def execPldmRequestFirmwareData (bytes : List Byte) (s : State) : Res := .next (s.answer (s.firmwareData bytes))

/-- PLDM_TRANSFER_COMPLETE (R483): every byte has arrived. -/
def State.transferComplete (s : State) : State :=
  let u := s.mgc.upd
  if u.state = upDownload ∧ u.data.length = u.size then (s.setUpd { u with state := upVerify }).pldm 5 0x16 [0] else s

def execPldmTransferComplete (s : State) : Res := .next (s.answer s.transferComplete)

/-- The slot that an update writes (R483): the one not running, or in ROM recovery the one not preferred. -/
def State.spareSlot (s : State) : Nat := 1 - (if s.mgcRuns then s.rd F.MGC_BOOT_SLOT 0 else s.mgc.preferred)

/-- Format and CRC of a pack (R483, Table — Pack header). -/
def packCrcOk (img : List Byte) : Bool :=
  let g := numAt img 0x20 4
  packFormatOk img && numAt img 0x24 4 == crc32c (slice img 0 0x24 ++ List.replicate 4 0 ++ slice img 0x28 (g - 0x28))

/-- PLDM_VERIFY_COMPLETE (R483): an image is verified as R476 does, and written to the spare slot; a pack by its format
and CRC. `sigOk`, `svn` and `version` are what the image's header and signature say. A failure ends the component. -/
def State.verifyComplete (s : State) (sigOk : Bool) (svn version : Nat) : State :=
  let u := s.mgc.upd
  if u.state ≠ upVerify then s else
  let ok := if u.comp = compFirmware then sigOk && decide (s.bank.value hmSecurity ≤ svn) else packCrcOk u.data
  if !ok then (s.setUpd { u with state := upReady, data := [] }).pldm 5 0x17 [1] else
  let s1 := s.setUpd { u with state := upApply, verified := true, image := ⟨svn, version, some u.data⟩ }
  let m := s1.mgc
  let s2 : State := if u.comp = compFirmware then
      { s1 with mgc := { m with slots := m.slots.set s.spareSlot ⟨svn, version, some u.data⟩ } }
    else s1
  s2.pldm 5 0x17 [0]

def execPldmVerifyComplete (sigOk : Bool) (svn version : Nat) (s : State) : Res :=
  .next (s.answer (s.verifyComplete sigOk svn version))

/-- PLDM_APPLY_COMPLETE (R483): the component is in place; a pack replaces the one kept. -/
def State.applyComplete (s : State) : State :=
  let u := s.mgc.upd
  if u.state ≠ upApply then s else
  let m := s.mgc
  let u1 : Update := { u with state := upReady, data := [], comps := u.comps.filter (· != u.comp)
                              applied := u.applied || u.comp == compFirmware }
  let s1 : State := { s with mgc := { m with upd := u1, pack := if u.comp = compPack then u.data else m.pack } }
  s1.pldm 5 0x18 [0]

def execPldmApplyComplete (s : State) : Res := .next (s.answer s.applyComplete)

/-- PLDM_ACTIVATE_FIRMWARE (R484): the verified slot becomes the preferred one. The MGC resets itself when the command asks
for it; in ROM recovery it restarts in any case and asks for a COLD reset (R477, R512). -/
def State.activateFirmware (s : State) (selfContained : Bool) : State :=
  s.inState 0x1A [upReady] (
    let u := s.mgc.upd
    if u.comps ≠ [] then s.pldm 5 0x1A [0x85] else
    let rec_ := s.mgc.recovery
    let s1 : State := { s with mgc := { s.mgc with
      upd := update0, preferred := if u.applied then s.spareSlot else s.mgc.preferred } }
    let s2 := s1.pldm 5 0x1A [ccOk]
    if rec_ then (if u.applied then (s2.wr F.JCT_RESET_MGC_SCOPE 0 2).mgcReset else s2)
    else if selfContained && u.applied then s2.mgcReset else s2)

def execPldmActivateFirmware (selfContained : Bool) (s : State) : Res := .next (s.answer (s.activateFirmware selfContained))

/-- PLDM_GET_STATUS (R483): the state, the component and the bytes received. -/
def execPldmGetStatus (s : State) : Res :=
  .next (s.answer (s.pldm 5 0x1B [ccOk, s.mgc.upd.state, s.mgc.upd.comp, s.mgc.upd.data.length]))

/-- PLDM_CANCEL_UPDATE_COMPONENT (R484): back to the table of components, nothing kept of this one. -/
def State.cancelComponent (s : State) : State :=
  s.inState 0x1C [upDownload, upVerify, upApply] (
    (s.setUpd { s.mgc.upd with state := upReady, data := [], verified := false }).pldm 5 0x1C [ccOk])

def execPldmCancelUpdateComponent (s : State) : Res := .next (s.answer s.cancelComponent)

/-- PLDM_CANCEL_UPDATE (R484): the update ends; the preferred slot stays. -/
def State.cancelUpdate (s : State) : State :=
  s.inState 0x1D [upLearn, upReady, upDownload, upVerify, upApply] ((s.setUpd update0).pldm 5 0x1D [ccOk])

def execPldmCancelUpdate (s : State) : Res := .next (s.answer s.cancelUpdate)

/-! ## SPDM (R479, R480) -/

/-- The connection of a binding. -/
def State.spdm (s : State) (doe : Bool) : Spdm := if doe then s.mgc.doe else s.mgc.spdm
def State.setSpdm (s : State) (doe : Bool) (c : Spdm) : State :=
  { s with mgc := if doe then { s.mgc with doe := c } else { s.mgc with spdm := c } }

/-- An SPDM response; code 0x7F is ERROR. -/
def State.spdmSay (s : State) (doe : Bool) (code : Nat) (data : List Nat) : State :=
  s.emit (.reply (if doe then protoDoe else protoSpdm) code data)

/-- A request that needs an earlier phase of the negotiation, else ERROR UnexpectedRequest. -/
def State.spdmAt (s : State) (doe : Bool) (phase : Nat) (t : State) : State :=
  s.answerRun (if phase ≤ (s.spdm doe).phase then t else s.spdmSay doe 0x7F [4])

/-- A response that ends with free values: certificates, nonces and signatures of the device's keys. -/
def State.spdmFree (s : State) (doe : Bool) (code : Nat) (data : List Nat) : State :=
  let (v, s1) := s.fresh
  s1.spdmSay doe code (data ++ [v])

/-- SPDM_GET_VERSION (R479): version 1.3; the connection starts afresh. -/
def execSpdmGetVersion (doe : Bool) (s : State) : Res :=
  .next (s.answerRun ((s.setSpdm doe { phase := 1, sessions := [] }).spdmSay doe 0x04 [1, 0x1300]))

/-- The capability bits of the messages that R479 lists. -/
def spdmCaps : Nat := 2 + 4 + 16 + 64 + 128 + 512 + 8192 + 16384

/-- SPDM_GET_CAPABILITIES (R479). -/
def execSpdmGetCapabilities (doe : Bool) (s : State) : Res :=
  .next (s.spdmAt doe 1 ((s.setSpdm doe { s.spdm doe with phase := max 2 (s.spdm doe).phase }).spdmSay doe 0x61 [spdmCaps]))

/-- SPDM_NEGOTIATE_ALGORITHMS (R479): ECDSA P-384, SHA-384, ECDHE P-384 and AES-256-GCM when the request offers them all. -/
def execSpdmNegotiateAlgorithms (doe : Bool) (asym hash dhe aead : Nat) (s : State) : Res :=
  .next (s.spdmAt doe 2 (
    if bitAt asym 7 && bitAt hash 1 && bitAt dhe 4 && bitAt aead 1 then
      (s.setSpdm doe { s.spdm doe with phase := 3 }).spdmSay doe 0x63 [0x80, 0x2, 0x10, 0x2]
    else s.spdmSay doe 0x7F [1]))

/-- SPDM_GET_DIGESTS (R479): slot 0 alone, with the SHA-384 of its chain. -/
def execSpdmGetDigests (doe : Bool) (s : State) : Res :=
  .next (s.spdmAt doe 3 (s.spdmSay doe 0x01 [1, ofLe (sha384 Config.certChain)]))

/-- SPDM_GET_CERTIFICATE (R480): the chain in slot 0, the same on both bindings. -/
def execSpdmGetCertificate (doe : Bool) (slot : Nat) (s : State) : Res :=
  .next (s.spdmAt doe 3 (if slot = 0 then s.spdmSay doe 0x02 (0 :: Config.certChain.map BitVec.toNat) else s.spdmSay doe 0x7F [1]))

/-- SPDM_CHALLENGE (R480). -/
def execSpdmChallenge (doe : Bool) (slot : Nat) (s : State) : Res :=
  .next (s.spdmAt doe 3 (if slot = 0 then s.spdmFree doe 0x03 [0] else s.spdmSay doe 0x7F [1]))

/-- The present values of a counted setting, as the numbers that its registers show (R480, Table — Counted settings). -/
def Bank.settingValues (b : Bank) (code : Nat) : List Nat :=
  if code = hmOwnerKey then [ofLe (b.ownerKey.getD [])]
  else if code = hmSigner then (List.range 8).map (fun i => ofLe (b.signer (i + 1)))
  else if code = hmRepair then (List.range 256).map (fun v => b.strikes hmRepair v)
  else [b.value code]

/-- What a measurement covers (Table — SPDM measurements): the running image, the microcode, the settings in code order,
the log. The bytes of a factory image and of the microcode, and the coding of a setting's values, are free values
(notes/assumptions/55.md). -/
def State.measured (s : State) (i : Nat) : List Byte :=
  match i with
  | 1 => ((s.mgc.slot (s.rd F.MGC_BOOT_SLOT 0)).image).getD Config.factoryImage
  | 2 => Config.microcode
  | 3 => (List.range 9).flatMap (fun c => Config.settingBytes c (s.bank.settingValues c))
  | _ => s.bank.log.flatMap LogEntry.bytes

/-- A measurement (R480): the SHA-384 of what it covers. -/
def State.measurement (s : State) (i : Nat) : Nat := ofLe (sha384 (s.measured i))

/-- SPDM_GET_MEASUREMENTS (R480): 0 asks for their number, 0xFF for all. -/
def State.getMeasurements (s : State) (doe : Bool) (index : Nat) : State :=
  if index = 0 then s.spdmFree doe 0x60 [4]
  else if 1 ≤ index ∧ index ≤ 4 then s.spdmFree doe 0x60 [index, s.measurement index]
  else if index = 0xFF then s.spdmFree doe 0x60 ([1, 2, 3, 4].flatMap (fun i => [i, s.measurement i]))
  else s.spdmSay doe 0x7F [1]

def execSpdmGetMeasurements (doe : Bool) (index : Nat) (s : State) : Res :=
  .next (s.spdmAt doe 3 (s.getMeasurements doe index))

/-- SPDM_KEY_EXCHANGE (R479): a session opens under the requester's session ID. -/
def execSpdmKeyExchange (doe : Bool) (slot sid : Nat) (s : State) : Res :=
  .next (s.spdmAt doe 3 (
    let c := s.spdm doe
    if slot ≠ 0 ∨ c.sessions.any (fun x => x.1 == sid) = true then s.spdmSay doe 0x7F [1]
    else (s.setSpdm doe { c with sessions := c.sessions ++ [(sid, false)] }).spdmFree doe 0x64 [sid]))

/-- SPDM_FINISH (R479): `ok` says that its verify data are right; a wrong one ends the handshake with DecryptError. -/
def execSpdmFinish (doe : Bool) (sid : Nat) (ok : Bool) (s : State) : Res :=
  .next (s.spdmAt doe 3 (
    let c := s.spdm doe
    if c.sessions.contains (sid, false) = false then s.spdmSay doe 0x7F [2]
    else if ok then
      (s.setSpdm doe { c with sessions := c.sessions.map (fun x => if x.1 = sid then (sid, true) else x) }).spdmSay doe 0x65 []
    else (s.setSpdm doe { c with sessions := c.sessions.filter (fun x => x.1 != sid) }).spdmSay doe 0x7F [6]))

/-- A request inside a session, else ERROR InvalidSession. -/
def State.inSession (s : State) (doe : Bool) (sid : Nat) (t : State) : State :=
  s.spdmAt doe 3 (if (s.spdm doe).sessions.contains (sid, true) then t else s.spdmSay doe 0x7F [2])

/-- SPDM_HEARTBEAT (R479). -/
def execSpdmHeartbeat (doe : Bool) (sid : Nat) (s : State) : Res := .next (s.inSession doe sid (s.spdmSay doe 0x68 []))

/-- SPDM_KEY_UPDATE (R479): operation 1 the requester's key, 2 all keys, 3 the check of the new key. -/
def execSpdmKeyUpdate (doe : Bool) (sid op tag : Nat) (s : State) : Res :=
  .next (s.inSession doe sid (if 1 ≤ op ∧ op ≤ 3 then s.spdmSay doe 0x69 [op, tag] else s.spdmSay doe 0x7F [1]))

/-- SPDM_END_SESSION (R479). -/
def execSpdmEndSession (doe : Bool) (sid : Nat) (s : State) : Res :=
  .next (s.inSession doe sid (
    (s.setSpdm doe { s.spdm doe with sessions := (s.spdm doe).sessions.filter (fun x => x.1 != sid) }).spdmSay doe 0x6C []))

end Sys2Proof.Machine
end

