-- ==== Sys2Proof/Machine/StartUp.lean ====
section
/-! DEFINITION. Power-up and the start of the planes (spec/23_start_up.md, R497 to R512; spec/18, R407, R409). The times at
which events of a start come are the board's; an event that does not fit the present phase changes nothing. -/

namespace Sys2Proof.Machine
open Sys2Proof

/-- VDD_AON_POWER_UP (R498): the always-on island leaves its power-on reset, and `DEV_NS` starts from 0. -/
def execVddAonPowerUp (s : State) : Res :=
  .next (if s.board.aon then s else
    let s1 := s.powerOff
    State.coldValues { s1 with board := { s1.board with aon := true, coreEn := true } })

/-- PWR_GOOD_RISE (R501, R503): the first rise samples the straps; a rise after a loss of power asks for a COLD reset. -/
def execPwrGoodRise (straps : Fin 16) (s : State) : Res :=
  .next (if s.board.aon = false ∨ s.board.pwrGood = true then s else
    let s1 : State := { s with board := { s.board with pwrGood := true, strapped := true } }
    let s2 := if s.board.strapped then s1 else (s1.wr F.RST_BOOT_STRAPS 0 straps.val).setPhase phMgcBoot
    if s2.board.coldNext then s2.wr F.JCT_RESET_MGC_SCOPE 0 2 else s2)

/-- PWR_GOOD_FALL (R501): with CORE_PWR_EN asserted the planes are held in reset, and a COLD reset follows the next rise;
after a deassertion for RETAIN it has no effect on the MGC. -/
def execPwrGoodFall (s : State) : Res :=
  .next (if s.board.pwrGood = false then s else
    let b := { s.board with pwrGood := false }
    if s.board.coreEn = false then { s with board := b } else
    State.setPhase { s with
      board := { b with planes := false, coldNext := true, trip := false }
      runs := [], ended := [], ops := [] } phRails)

/-- PERST_N_RELEASE (R505). -/
def execPerstNRelease (s : State) : Res :=
  .next (if s.board.aon = false ∨ s.board.perst = true then s else
    { s with board := { s.board with perst := true, perstNs := s.ns }, link := .l0 })

/-- PLANES_START (R505). -/
def execPlanesStart (s : State) : Res := .next s.restart

/-- The attempt of a tower under way (R506), and when it began. -/
def State.trainOf (s : State) (t : Nat) : Nat := (s.board.train[t]?).getD 3
def State.trainSince (s : State) (t : Nat) : Nat := s.ns - (s.board.trainNs[t]?).getD 0
def State.setTrain (s : State) (t v : Nat) : State := { s with board := { s.board with train := s.board.train.set t v } }

/-- The 45 ms of a training attempt, in nanoseconds. -/
def trainNsMax : Nat := 45000000

/-- STACK_TRAIN_DONE (R506): an attempt completes within 45 ms; when every tower has trained, zeroing begins. -/
def execStackTrainDone (t : Fin 8) (s : State) : Res :=
  .next (if s.phase = phTrain ∧ s.trainOf t.val < 2 ∧ s.trainSince t.val ≤ trainNsMax then
    let s1 := s.setTrain t.val 2
    if s1.board.train.all (· == 2) then s1.setPhase phZero else s1
  else s)

/-- TRAIN_ATTEMPT_TIMEOUT (R506): 45 ms have passed. A first attempt is followed by a second; a second one fails the
start. -/
def execTrainAttemptTimeout (t : Fin 8) (s : State) : Res :=
  .next (if s.phase ≠ phTrain ∨ s.trainSince t.val < trainNsMax then s
  else if s.trainOf t.val = 0 then
    let s1 := s.setTrain t.val 1
    State.wr { s1 with board := { s1.board with trainNs := s1.board.trainNs.set t.val s1.ns } }
      F.RST_BOOT_TRAIN_RETRY 0 (setBit (s.rd F.RST_BOOT_TRAIN_RETRY 0) t.val)
  else if s.trainOf t.val = 1 then
    let s1 := ((s.setTrain t.val 3).wr F.RST_BOOT_TRAIN_FAIL 0 (setBit (s.rd F.RST_BOOT_TRAIN_FAIL 0) t.val)).startFails 3
    State.setFault { s1 with patina := { s1.patina with trainFails := s1.patina.trainFails ++ [(t.val, s1.ns)] } }
      F.JCT_HEALTH_FAULT_DATA 1
  else s)

/-- COLD_ZERO_DONE (R507): RESTORE and READY follow. -/
def execColdZeroDone (s : State) : Res :=
  .next (if s.board.cold = true ∧ s.phase = phZero then s.goReady else s)

/-- START_TIMEOUT (R6, R508): 400 ms on `DEV_NS` have passed since PERST_N was released. -/
def execStartTimeout (s : State) : Res :=
  .next (if s.board.perst = true ∧ s.phase < phReady ∧ s.board.perstNs + 400000000 ≤ s.ns
    then (s.startFails 4).setFault F.JCT_HEALTH_FAULT_DATA 1 else s)

end Sys2Proof.Machine
end

