-- ==== Sys2Proof/Machine/Pins.lean ====
section
/-! DEFINITION. The sideband pins and their multiplexer (spec/24_package_pins.md, R515, R520 to R526). -/

namespace Sys2Proof.Machine
open Sys2Proof

/-- The fields of `PMX_SBn` that a write carries. -/
def pmxFields : List Fld := [F.PMX_SB_FUNC, F.PMX_SB_POL, F.PMX_SB_PULL, F.PMX_SB_DIR, F.PMX_SB_OUT]

/-- The functions that at most one pin may hold (Table — Sideband functions). -/
def pmxUnique (f : Nat) : Bool := [1, 2, 3, 4, 7].contains f

/-- Is a write of `PMX_SBn` legal (R520)? -/
def State.pmxLegal (s : State) (n v : Nat) : Bool :=
  let f := bitsOf v 0 4
  decide (f ≤ 9) && decide (bitsOf v 5 2 ≤ 2) && ((f != 5 && f != 9) || bitAt v 4) &&
  (!pmxUnique f || (List.range 8).all (fun m => m == n || s.rdi F.PMX_SB_FUNC 0 m != f))

/-- A write of `PMX_SBn` (R520 to R523): a change of FUNC or POL parks the pin; a write to a parked pin is queued; DIR and
OUT alone apply at once. -/
def State.pmxWrite (s : State) (n v : Nat) : State :=
  if s.pmxLegal n v = false then s.illegal .pinmux 0 (0x040 + 8 * n) else
  let parked := s.rdi F.PMX_SB_PARKED 0 n = 1
  let moves := s.rdi F.PMX_SB_FUNC 0 n ≠ bitsOf v 0 4 ∨ s.rdi F.PMX_SB_POL 0 n ≠ bitsOf v 4 1
  let s1 := pmxFields.foldl (fun t f => t.wri f 0 n (bitsOf v f.lo f.width)) s
  let s2 := s1.wri F.PMX_SB_CUR_FUNC 0 n (bitsOf v 0 4)
  if parked then s2.wri F.PMX_SB_QUEUED 0 n 1
  else if moves then s2.wri F.PMX_SB_PARKED 0 n 1
  else { s2 with parkPull := SMap.put 0 s2.parkPull n (bitsOf v 5 2) }

/-- PMX_WRITE (R521). -/
def execPmxWrite (fn : Fn) (n : Fin 8) (data : Word) (s : State) : Res := .next (s.pfDo fn (s.pmxWrite n.val data.toNat))

/-- PARK_END (R522): eight MCLK cycles after the park began, the pin takes the settings of the last write. Until the
MGC's first start every pin stays parked (R524). -/
def execParkEnd (n : Fin 8) (s : State) : Res :=
  .next (if s.rdi F.PMX_SB_PARKED 0 n.val = 1 ∧ (s.mgc.up || s.board.planes) = true then
    let s1 := (s.wri F.PMX_SB_PARKED 0 n.val 0).wri F.PMX_SB_QUEUED 0 n.val 0
    { s1 with parkPull := SMap.put 0 s1.parkPull n.val (s1.rdi F.PMX_SB_PULL 0 n.val) }
  else s)

/-- FRAME_SYNC_IN_EDGE (R526): the edge reaches a pin that holds the function and is not parked. -/
def execFrameSyncInEdge (s : State) : Res :=
  .next (if (List.range 8).any (fun n => s.rdi F.PMX_SB_CUR_FUNC 0 n == 7 && s.rdi F.PMX_SB_PARKED 0 n == 0) then
    (s.wr F.PMX_SYNC_IN_TICK 0 (low32 s.tick)).bump F.PMX_SYNC_IN_COUNT 0 1
  else s)

/-- The level that the part drives on sideband pin n, none while it drives nothing (Table — Sideband functions). A frame
pulse is sent out as an event (R525). -/
def State.pinDrive (s : State) (n : Nat) : Option Bool :=
  let pol := s.rdi F.PMX_SB_POL 0 n == 1
  if s.rdi F.PMX_SB_PARKED 0 n = 1 then none else
  match s.rdi F.PMX_SB_CUR_FUNC 0 n with
  | 0 => if s.rdi F.PMX_SB_DIR 0 n = 1 then some (s.rdi F.PMX_SB_OUT 0 n == 1) else none
  | 3 => some true
  | 5 => if bitAt s.jctHealth 6 then some false else none
  | 6 => some (bitAt s.jctHealth 2 != pol)
  | 8 => some pol
  | 9 => if s.mgcRuns then some false else none
  | _ => none

/-- The level on the pad of sideband pin n as far as the part decides it: its drive, or the park pull; a pad that the
board decides reads as a free value (notes/assumptions/56.md). -/
def State.padLevel (s : State) (n : Nat) : Nat :=
  match s.pinDrive n with
  | some b => b2n b
  | none =>
    let pull := SMap.get 0 s.parkPull n
    if s.rdi F.PMX_SB_PARKED 0 n = 1 ∧ pull < 2 then 1 - pull else Config.freeValue s.free % 2

/-- THERMTRIP_N and CORE_PWR_EN (Table — Signal pins). -/
def State.thermtripN (s : State) : Bool := !s.board.trip
def State.corePwrEn (s : State) : Bool := s.board.coreEn

end Sys2Proof.Machine
end

