-- ==== Sys2Proof/Machine/Tdisp.lean ====
section
/-! DEFINITION. TDISP locking of a polder (spec/04_polders_isolation.md, R81 to R85). The requests arrive in SPDM
secured sessions, which stand outside the model; the response codes are those of the PCI Express base specification
(notes/assumptions/18.md). -/

namespace Sys2Proof.Machine
open Sys2Proof

/-- The TDISP state of a polder: 0 CONFIG_UNLOCKED, 1 CONFIG_LOCKED, 2 RUN, 3 ERROR. -/
def State.tdisp (s : State) (p : Nat) : Nat := s.rd F.PLD_STATE_TDISP p

/-- `PLD_CFG` and `PLD_HAVE` as they read. -/
def State.pldCfgWord (s : State) (p : Nat) : Nat :=
  s.rd F.PLD_CFG_MODE p + 2 * s.rd F.PLD_CFG_SCRUB_ON_FLR p + 4 * s.rd F.PLD_CFG_CNT_VIS p

def State.pldHaveWord (s : State) (o : Nat) : Nat :=
  s.blocksHeld o .context % 256 + s.blocksHeld o .queue % 512 * 2 ^ 8 + s.blocksHeld o .fenceBlock % 256 * 2 ^ 24
    + s.blocksHeld o .mobjBlock % 512 * 2 ^ 32 + s.blocksHeld o .extent % 2 ^ 18 * 2 ^ 44

/-- TDISP_GET_TDISP_VERSION (R81). -/
def execTdispGetTdispVersion (p : Fin 16) (s : State) : Res := .next (s.tdispReply 0x01 p.val [0x10])

/-- TDISP_GET_TDISP_CAPABILITIES (R81): the requests that the part supports, as a bit per request code less 0x80. -/
def execTdispGetTdispCapabilities (p : Fin 16) (s : State) : Res := .next (s.tdispReply 0x02 p.val [0xFE])

/-- TDISP_GET_DEVICE_IF_STATE (R81). -/
def execTdispGetDeviceIfState (p : Fin 16) (s : State) : Res :=
  .next (s.tdispReply 0x05 p.val [s.tdisp p.val])

/-- TDISP_GET_DEVICE_IF_REPORT (R81): VF BAR0, BAR2 and BAR4, then the polder's configuration registers. -/
def State.ifReport (s : State) (p : Nat) : State :=
  s.tdispReply 0x04 p ([0, 2, 4, s.pldCfgWord p] ++ (List.range 4).map (fun k => s.rdi F.PLD_VAULTS_VAULTS p k) ++
    [s.rd F.PLD_WAYS_WAYS p, s.rd F.PLD_MERE_UNITS p, s.pldHaveWord p])

def execTdispGetDeviceIfReport (p : Fin 16) (s : State) : Res := .next (s.ifReport p.val)

/-- The answer to a request that the TDISP state does not allow. -/
def State.tdispError (s : State) (p : Nat) : State := s.tdispReply 0x7F p []

/-- The admitted PF runs that hold a translation into polder p (R82). -/
def State.pfInto (s : State) (p : Nat) : List Nat := (s.runs.filter (fun r => s.holdsInto r p)).map (·.id)

/-- LOCK_INTERFACE_REQUEST (R81, R82): the polder must be ACTIVE and have an IDE selective stream bound. The PF runs that
hold a translation into the polder keep it until they end; from the request on none is made or taken up
(notes/assumptions/107.md), and once the last such run has ended they are all invalidated and the answer goes out. -/
def State.tdispLock (s : State) (p : Nat) (ideBound : Bool) : State :=
  if s.pst p ≠ pActive ∨ ideBound = false ∨ s.tdisp p ≠ 0 ∨ (s.aux p).lockWait.isSome ∨ (s.op? .pld p).isSome then
    s.tdispError p
  else (s.setAux p { s.aux p with lockWait := some (s.pfInto p), ide := true }).finishLock p

/-- TDISP_LOCK_INTERFACE_REQUEST (R82). -/
def execTdispLockInterfaceRequest (p : Fin 16) (ideBound : Bool) (s : State) : Res := .next (s.tdispLock p.val ideBound)

/-- START_INTERFACE_REQUEST (R84). -/
def State.tdispStart (s : State) (p : Nat) : State :=
  if s.tdisp p = 1 then (s.wr F.PLD_STATE_TDISP p 2).tdispReply 0x06 p [] else s.tdispError p

/-- TDISP_START_INTERFACE_REQUEST (R84). -/
def execTdispStartInterfaceRequest (p : Fin 16) (s : State) : Res := .next (s.tdispStart p.val)

/-- STOP_INTERFACE_REQUEST (R85): in CONFIG_LOCKED, RUN or ERROR the polder's memory is zeroed, and TDISP reads
CONFIG_UNLOCKED when the zeroing completes. A polder that is already on its way through a zeroing, or that drains to one,
needs no second one. -/
def State.tdispStop (s : State) (p : Nat) : State :=
  let s1 := (s.setAux p { s.aux p with lockWait := none }).tdispReply 0x07 p []
  if s.tdisp p = 0 ∨ (s.pst p ≠ pActive ∧ s.pst p ≠ pConfiguring) ∨ (s.op? .pld p).isSome then s1 else (s1.zeroOp p none).beginZero p

/-- TDISP_STOP_INTERFACE_REQUEST (R85). -/
def execTdispStopInterfaceRequest (p : Fin 16) (s : State) : Res := .next (s.tdispStop p.val)

/-- An IDE failure on the stream of a polder that is not FREE (R85): TDISP reads ERROR and the queued runs fail. -/
def State.ideFailure (s : State) (p : Nat) : State :=
  if s.pst p = pFree then s else
  ((s.setAux p { s.aux p with lockWait := none }).wr F.PLD_STATE_TDISP p 3).failAll
    (fun r => r.owner == p && r.phase == .queued) .polderReset

/-- IDE_FAILURE (R85). -/
def execIdeFailure (p : Fin 16) (s : State) : Res := .next (s.ideFailure p.val)

end Sys2Proof.Machine
end

