-- ==== Sys2Proof/Machine/View.lean ====
section
/-! DEFINITION. What registers read (spec/03_register_pages.md, R42 to R62, R545): the fields that show other state of the
part, the headers, the directory, and the pages that each function sees. -/

namespace Sys2Proof.Machine
open Sys2Proof

/-! ## Fields that show other state -/

/-- 1 for each of `n` engine lanes from `first` that is benched. -/
def State.benchedBits (s : State) (first n : Nat) : Nat :=
  (List.range n).foldl (fun v i => if s.benched (first + i) then setBit v i else v) 0

/-- Bits of an operation: BUSY, HALTED. -/
def State.busy (s : State) (k : OpKind) (i : Nat) : Nat := b2n (s.opBusy k i)
def State.halted (s : State) (k : OpKind) (i : Nat) : Nat := b2n (s.opHalted k i)

/-- Junction fields (R31, R38, Table — `JCT_CEIL`). -/
def State.viewJunction (s : State) (off lo i d : Nat) : Nat :=
  match off, lo with
  | 0x040, 8 => s.rd F.PWR_REQ_LEVEL 0
  | 0x040, 16 => s.effLevel
  | 0x040, 24 => b2n (decide (s.rd F.PWR_REQ_LEVEL 0 < s.rd F.JCT_CEIL_MGC_CEIL 0))
  | 0x040, 25 => b2n (s.effLevel != s.level)
  | 0x048, 2 => s.jctHealth / 4 % 2
  | 0x048, 6 => s.jctHealth / 64 % 2
  | 0x050, 0 => s.benchedBits 0x100 8
  | 0x050, 8 => s.benchedBits 0x108 8
  | 0x050, 16 => s.benchedBits 0x110 8
  | 0x050, 24 => s.benchedBits 0x118 2
  | 0x050, 26 => s.benchedBits 0x11A 2
  | 0x050, 28 => s.benchedBits 0x11C 2
  | 0x050, 30 => s.benchedBits 0x120 16
  | 0x058, _ => s.benchedBits (64 * i) 64
  | 0x078, 48 => (List.range 12).foldl (fun v n => if s.portEff n then setBit v n else v) 0
  | 0x080, 8 => max (s.rd F.JCT_RESET_HOST_SCOPE 0) (s.rd F.JCT_RESET_MGC_SCOPE 0)
  | _, _ => d

/-- POLDER page 0 (Table — `PLD_STATE`, R69, R543). -/
def State.viewPolder (s : State) (p off lo d : Nat) : Nat :=
  match off, lo with
  | 0x048, 3 => s.halted .pld p
  | 0x048, 4 => s.rd F.PLD_CFG_MODE p
  | 0x048, 5 => s.rd F.HM_VALUES_SEALED_ONLY 0
  | 0x098, 4 => b2n (s.zeroJobs.any (fun j => j.polder == 16))
  | _, _ => d

/-- Berths of Staithe n that runs of an owner hold. -/
def State.heldIn (s : State) (o n : Nat) : Nat :=
  (s.returning.filter (fun x => x.owner == o && x.staithe == n)).length + ((s.runs.filter (fun r => r.owner == o)).map (fun r =>
    b2n (r.inHeld && r.inRef.staithe == n) + b2n (r.outHeld && r.outRef.staithe == n))).sum

/-- POLDER page 1 and the HOST page. The tier in force and the advisory flag are the device's (Table — `PLD_COND`): the
fields of instance 16 hold them for every polder. -/
def State.viewOwner (s : State) (o off lo i d : Nat) : Nat :=
  match off, lo with
  | 0x040, 0 => s.tier
  | 0x040, 4 => match s.sampled with | some (_, k) => k | none => s.tier
  | 0x040, 8 => s.level
  | 0x040, 12 => match s.sampled with | some (l, _) => l | none => s.level
  | 0x040, 16 => match s.sampled with | some (l, k) => b2n (l != s.level || k != s.tier) | none => 0
  | 0x040, 17 => s.rd F.PLD_COND_ADVISORY 16
  | 0x048, 0 => s.blocksHeld o .context
  | 0x048, 8 => s.blocksHeld o .queue
  | 0x048, 24 => s.blocksHeld o .fenceBlock
  | 0x048, 32 => s.blocksHeld o .mobjBlock
  | 0x048, 44 => s.blocksHeld o .extent
  | 0x210, 0 => s.heldIn o i
  | 0x1f8, 0 => s.stageUsed o
  | 0x1f8, 32 => s.stageWaits o
  | 0x0f8, 4 => s.busy .mob o
  | 0x0f8, 5 => s.halted .mob o
  | 0x0f8, 8 => s.storeUsed o
  | 0x118, 4 => s.busy .pln o
  | 0x118, 5 => s.halted .pln o
  | 0x118, 6 => b2n (SMap.get none s.stagedPlans o).isSome
  | 0x120, 0 => match s.planOf o with | some p => p.crc | none => 0
  | 0x120, 32 => match s.planOf o with | some p => p.lodes.length | none => 0
  | 0x128, 0 => match SMap.get none s.planArmed o with | some a => a.boundary | none => 0
  | 0x410, 4 => s.busy .tbl o
  | 0x410, 5 => s.halted .tbl o
  | 0x440, 4 => s.busy .hmk o
  | 0x440, 5 => s.halted .hmk o
  | 0x440, 8 => (s.lines.filter (fun e => match e.2 with | some l => l.polder == o && l.pinned | none => false)).length
  | 0x480, 35 => s.busy .ep o
  | 0x480, 36 => s.halted .ep o
  | 0x490, 32 => b2n (s.opBusy .ep o && s.updating o)
  | _, _ => d

/-- PHASE of an invalidation. -/
def State.invPhase (s : State) (c : Nat) : Nat :=
  match s.op? .inv c with
  | none => 0
  | some op => if op.halted then 4 else
    match op.task with
    | .inval .drain _ _ _ => 1
    | .inval .flush _ _ _ => 2
    | _ => 3

/-- The runs that an invalidation still awaits. -/
def State.invDrain (s : State) (c : Nat) : Nat :=
  match s.op? .inv c with
  | some op => (match op.task with | .inval .drain page pages _ => (s.drainRuns c page pages).length | _ => 0)
  | none => 0

/-- CTX and QUEUE pages. -/
def State.viewCtx (s : State) (c off lo d : Nat) : Nat :=
  match off, lo with
  | 0x070, 16 => (s.runs.filter (fun r => r.ctx == c)).length
  | 0x0a8, 0 => (s.faultsOf c).length
  | 0x0a8, 16 => ((s.runs.filter (fun r => r.ctx == c)).map (fun r =>
      (r.steps.filter (fun x => match x with | .stalled _ _ _ | .filled _ _ _ => true | _ => false)).length)).sum
  | 0x0c0, 0 => s.invPhase c
  | 0x0c0, 16 => s.invDrain c
  | _, _ => d

/-- The REEVE page (Table — Frame registers). -/
def State.viewReeve (s : State) (off lo d : Nat) : Nat :=
  match off, lo with
  | 0x080, 0 => s.tick % 2 ^ 64
  | 0x058, 4 => s.busy .rv 0
  | 0x058, 5 => s.halted .rv 0
  | 0x058, 6 => b2n s.stagedFrame.isSome
  | 0x058, 7 => b2n s.frameArmed.isSome
  | 0x060, 0 => match s.frame with | some f => f.length | none => 0
  | 0x060, 32 => match s.frame with | some f => f.id | none => 0
  | 0x070, 0 => match s.frameArmed with | some a => a.boundary | none => 0
  | _, _ => d

/-- CAUSEWAY pages. -/
def State.viewCauseway (s : State) (n off lo d : Nat) : Nat :=
  let g := s.grant (s.rd F.CW_GNT_SEL_SLOT 0)
  match off, lo with
  | 0x040, 32 => min 4 (s.within10s (s.port n).retrains)
  | 0x040, 40 => min 255 (s.within10s (s.port n).hostile)
  | 0x418, 4 => s.busy .trust 0
  | 0x750, 4 => g.st
  | 0x750, 6 => b2n g.suspended
  | 0x750, 16 => s.reserved (s.rd F.CW_GNT_SEL_SLOT 0)
  | _, _ => d

/-- What a field of register `i` of an array reads, on a page of instance `inst`. -/
def State.viewi (s : State) (f : Fld) (inst i : Nat) : Nat :=
  let d := s.rdi f inst i
  let v := match f.block with
    | .junction => s.viewJunction f.off f.lo i d
    | .polder => s.viewPolder inst f.off f.lo d
    | .owner => s.viewOwner inst f.off f.lo i d
    | .ctx => s.viewCtx inst f.off f.lo d
    | .queue => if f.off = 0x048 ∧ f.lo = 0 then s.depth inst else d
    | .fence => if f.off = 0x048 ∧ f = F.FNC_PROGRESS_BUSY then s.busy .fnc 0 else d
    | .mmu => if f = F.MMU_STORE_USED then ((List.range 17).map (fun o => s.storeUsed o)).sum else d
    | .reeve => s.viewReeve f.off f.lo d
    | .tower => if f = F.TWR_CMD_STATUS_BUSY then s.busy .twr inst
      else if f = F.TWR_CMD_STATUS_HALTED then s.halted .twr inst else d
    | .anvil => if f = F.AV_QUEUE_DEPTH then (SMap.get [] s.tiles inst).length else d
    | .causeway => s.viewCauseway inst f.off f.lo d
    | .reset => if f = F.RST_KEEP_TABLES_WILL_KEEP then b2n s.willKeep
      else if f = F.RST_KEEP_TABLES_DEMAND then (List.range 16).foldl (fun v p => if s.demands p then setBit v p else v) 0 else d
    | .assayCentral => if f = F.ASY_STATUS_BUSY then s.busy .asy 0
      else if f = F.ASY_ENG_MARKS then min 3 (s.windowCount (if i < 30 then 0x100 + i else 0x120 + (i - 30))) else d
    | .assay => if f = F.ASY_DRG_MARKS then min 3 (s.windowCount (32 * inst + i)) else d
    | .patina => if f = F.PAT_CAUSE_FAULT_PORTS_24H then s.faultPorts else d
    | .counters => if f = F.CNT_WINV_VALUE then s.cntWin inst i % 2 ^ 48
      else if f = F.CNT_WINV_WRAP then s.cntWin inst i / 2 ^ 48 else d
    | .pinmux => if f = F.PMX_SB_IN then s.padLevel i else d
    | .clock => s.devNs
    | _ => d
  v % 2 ^ f.width

/-! ## Headers (R42, R52, R56) -/

/-- The block type code and the plane of a page (Table — Block type codes, Table — PF BAR0 pages). -/
def blockType (b : Block) (inst : Nat) : Nat × Nat :=
  match b with
  | .directory => (0x1E, 0) | .clock => (0x1C, 0) | .reset => (0x17, 0) | .power => (0x16, 0) | .junction => (0x1D, 2)
  | .pinmux => (0x1B, 2) | .hasp => (0x18, 0) | .hallmark => (0x1A, 2) | .patina => (0x19, 2) | .counters => (0x15, 0)
  | .assayCentral => (0x14, 1) | .reeve => (0x02, 0) | .mmu => (0x07, 0) | .fence => (0x06, 0) | .polder => (0x03, 0)
  | .owner => (if inst = 16 then 0x01 else 0x03, 0) | .ctx => (0x04, 0) | .queue => (0x05, 0) | .tower => (0x08, 1)
  | .weir => (0x09, 1) | .dredge => (0x0A, 1) | .hummock => (0x0B, 1) | .solder => (0x0D, 1) | .anvil => (0x0E, 1)
  | .planisher => (0x0F, 1) | .assay => (0x14, 1) | .punch => (0x0C, 1) | .riddle => (0x11, 1) | .tarn => (0x10, 1)
  | .ladle => (0x12, 1) | .causeway => (0x13, 1)

/-- The instance that `PG_ID` shows in a function's view. -/
def State.shownInst (s : State) (fn : Fn) (b : Block) (inst : Nat) : Nat :=
  match b, fn with
  | .ctx, .vf _ => s.localOf .context inst
  | .queue, .vf _ => s.localOf .queue inst
  | .owner, _ => if inst = 16 then 0 else inst
  | .counters, _ => if inst = 16 then 0 else inst
  | .directory, _ => if inst = 16 then 0 else inst
  | .assayCentral, _ => 8
  | _, _ => inst

/-- Pages of a block: PAGE_COUNT and PAGE_INDEX. -/
def pageSpan (b : Block) (inst : Nat) : Nat × Nat :=
  match b with
  | .fence => (129, 0)
  | .polder => (2, 0)
  | .owner => if inst = 16 then (1, 0) else (2, 1)
  | _ => (1, 0)

/-- Is the engine of a page benched? On a DREDGE page BENCHED reads 0 (spec/25_register_index.md); its Dredges show in
`JCT_BENCHED_DV0` to `JCT_BENCHED_DV3` and `ASY_DRGv`. -/
def State.pageBenched (s : State) (b : Block) (inst : Nat) : Bool :=
  match b with
  | .anvil => s.benched (0x100 + inst) | .planisher => s.benched (0x108 + inst) | .solder => s.benched (0x110 + inst)
  | .punch => s.benched (0x118 + inst) | .riddle => s.benched (0x11A + inst) | .tarn => s.benched (0x11C + inst)
  | .ladle => s.benched (0x120 + inst)
  | _ => false

/-- `PG_ID` of a page in a function's view. -/
def State.pgId (s : State) (fn : Fn) (b : Block) (inst : Nat) : Nat :=
  let n := s.shownInst fn b inst
  (blockType b inst).1 + n % 256 * 2 ^ 16 + 2 ^ 24 + (pageSpan b inst).1 * 2 ^ 32 + (pageSpan b inst).2 * 2 ^ 40 +
    n / 256 * 2 ^ 48

/-- `PG_OWNER` of a page (R57). -/
def State.pgOwner (s : State) (b : Block) (inst : Nat) : Nat :=
  let o := s.pageOwner b inst
  (blockType b inst).2 + (if o = 16 then 0 else 4 + 8 * b2n (s.tdisp o == 1 || s.tdisp o == 2) + 16 * o)

/-- A header register. -/
def State.headerWord (s : State) (fn : Fn) (b : Block) (inst off : Nat) : Nat :=
  match off with
  | 0x000 => s.pgId fn b inst
  | 0x010 => s.rd (F.PG_CTRL_LOCK.on b) inst
  | 0x018 => b2n s.ready + 2 * s.rd (F.PG_CTRL_LOCK.on b) inst + 4 * b2n (s.pageBenched b inst)
  | 0x020 => s.rd (F.PG_ERR_BAD_SIZE.on b) inst + 2 * s.rd (F.PG_ERR_HALF_ATOMIC.on b) inst
      + 4 * s.rd (F.PG_ERR_ILLEGAL_VALUE.on b) inst + 8 * s.rd (F.PG_ERR_LOCKED_WRITE.on b) inst
  | 0x028 => s.rd (F.PG_ERR_MASK_MASK.on b) inst
  | 0x030 => s.pgErrFirst b inst
  | 0x038 => s.pgOwner b inst
  | _ => 0

/-! ## Pages of a view (R53 to R60) -/

/-- What stands at a page number: a page with registers, or a FENCE state page with its global block. -/
inductive Page where
  | regs (b : Block) (inst : Nat)
  | fences (block : Nat)
  deriving DecidableEq, Repr

/-- PF BAR0 (Table — PF BAR0 pages). -/
def pfPage (n : Nat) : Option Page :=
  match n with
  | 0x000 => some (.regs .directory 16) | 0x001 => some (.regs .owner 16) | 0x002 => some (.regs .clock 0)
  | 0x003 => some (.regs .reset 0) | 0x004 => some (.regs .power 0) | 0x005 => some (.regs .junction 0)
  | 0x006 => some (.regs .pinmux 0) | 0x007 => some (.regs .hasp 0) | 0x008 => some (.regs .hallmark 0)
  | 0x009 => some (.regs .patina 0) | 0x00A => some (.regs .counters 16) | 0x00B => some (.regs .assayCentral 0)
  | 0x010 => some (.regs .reeve 0) | 0x011 => some (.regs .mmu 0) | 0x012 => some (.regs .fence 0)
  | _ =>
    if 0x020 ≤ n ∧ n < 0x030 then some (.regs .polder (n - 0x020))
    else if 0x040 ≤ n ∧ n < 0x048 then some (.regs .tower (n - 0x040))
    else if 0x048 ≤ n ∧ n < 0x050 then some (.regs .weir (n - 0x048))
    else if 0x050 ≤ n ∧ n < 0x058 then some (.regs .dredge (n - 0x050))
    else if 0x058 ≤ n ∧ n < 0x060 then some (.regs .hummock (n - 0x058))
    else if 0x060 ≤ n ∧ n < 0x068 then some (.regs .solder (n - 0x060))
    else if 0x068 ≤ n ∧ n < 0x070 then some (.regs .anvil (n - 0x068))
    else if 0x070 ≤ n ∧ n < 0x078 then some (.regs .planisher (n - 0x070))
    else if 0x078 ≤ n ∧ n < 0x080 then some (.regs .assay (n - 0x078))
    else if 0x080 ≤ n ∧ n < 0x082 then some (.regs .punch (n - 0x080))
    else if 0x082 ≤ n ∧ n < 0x084 then some (.regs .riddle (n - 0x082))
    else if 0x084 ≤ n ∧ n < 0x086 then some (.regs .tarn (n - 0x084))
    else if 0x090 ≤ n ∧ n < 0x0A0 then some (.regs .ladle (n - 0x090))
    else if 0x0A0 ≤ n ∧ n < 0x0AC then some (.regs .causeway (n - 0x0A0))
    else if 0x100 ≤ n ∧ n < 0x200 then some (.regs .ctx (n - 0x100))
    else if 0x200 ≤ n ∧ n < 0x280 then some (.fences (n - 0x200))
    else none

/-- VF BAR0 of polder p (Table — VF BAR0 pages). -/
def State.vfPage (s : State) (p n : Nat) : Option Page :=
  match n with
  | 0x000 => some (.regs .directory p) | 0x007 => some (.regs .hasp 0) | 0x00A => some (.regs .counters p)
  | 0x020 => some (.regs .polder p) | 0x021 => some (.regs .owner p)
  | _ =>
    if 0x040 ≤ n ∧ n < 0x080 then (s.fromLocal p .context (n - 0x040)).map (.regs .ctx)
    else if 0x080 ≤ n ∧ n < 0x100 then (s.fromLocal p .fenceBlock (n - 0x080)).map .fences
    else none

/-- The BARs that a function implements (Table — BARs): number, prefetchable, bytes. Every one is a 64-bit BAR. -/
def barTable : Fn → List (Nat × Bool × Nat)
  | .pf => [(0, false, 2 ^ 22), (2, true, 2 ^ 22), (4, false, 2 ^ 14)]
  | .vf _ => [(0, false, 2 ^ 20), (2, true, 2 ^ 20), (4, false, 2 ^ 13)]

/-- Bytes of a BAR; 0 where the function does not implement it (R41). -/
def barSize (fn : Fn) (n : Nat) : Nat := (((barTable fn).find? (fun e => e.1 == n)).map (·.2.2)).getD 0

/-- Where a function's BAR `n` stands in `State.bars`: the VFs share the VF BAR fields of the SR-IOV capability. -/
def barKey (fn : Fn) (n : Nat) : Nat := match fn with | .pf => 8 + n | .vf _ => n

/-- What the dword of BAR `n` of a function's configuration space reads (R41): the base of an implemented BAR with the
64-bit type and the prefetchable bit, as the PCI Express base specification lays them out, its upper half in the dword
after it, and 0 everywhere else. -/
def State.barDword (s : State) (fn : Fn) (n : Nat) : Nat :=
  let base (k : Nat) : Nat := SMap.get 0 s.bars (barKey fn k) / barSize fn k * barSize fn k
  match (barTable fn).find? (fun e => e.1 == n) with
  | some (k, pre, _) => low32 (base k) + 4 + 8 * b2n pre
  | none =>
    match (barTable fn).find? (fun e => e.1 + 1 == n) with
    | some (k, _, _) => low32 (base k / 2 ^ 32)
    | none => 0

/-- What the expansion ROM BAR reads (R41). -/
def romBar : Nat := 0

/-- The page at a page number of a function's BAR0 or BAR2. Before READY and in FAILED only the RESET page stands there
(R509), and the pages of a FREE polder's VF read as absent (R59). -/
def State.pageAt (s : State) (fn : Fn) (bar2 : Bool) (n : Nat) : Option Page :=
  let p := if bar2 then (s.queueAt fn n).map (.regs .queue) else
    match fn with
    | .pf => pfPage n
    | .vf v => if s.pst v.val = pFree then none else s.vfPage v.val n
  if barSize fn (if bar2 then 2 else 0) ≤ 4096 * n then none
  else if s.ready then p else if s.board.planes && p == some (.regs .reset 0) then p else none

/-- The owner of a page. -/
def State.ownerAt (s : State) : Page → Nat
  | .regs b inst => s.pageOwner b inst
  | .fences b => s.ownerOf .fenceBlock b

/-- Is a page hidden from a reading function (R60): the PF reads zeros from a TDISP-locked polder's pages? -/
def State.hiddenPage (s : State) (fn : Fn) (pg : Page) : Bool :=
  let o := s.ownerAt pg
  let own := match pg with | .regs .ctx _ => true | .regs .queue _ => true | .fences _ => true | _ => false
  decide (fn = .pf) && own && o != 16 && (s.tdisp o == 1 || s.tdisp o == 2)

/-! ## The directory (R62, R545) -/

/-- An entry of the directory: first page, pages, block type, first instance, first index, MODE. -/
def dirWord (page count type inst index mode : Nat) : Nat :=
  page + count * 2 ^ 16 + type * 2 ^ 32 + inst * 2 ^ 48 + index * 2 ^ 56 + mode * 2 ^ 63

/-- Runs of consecutive numbers of a rising list. -/
def runsOf : List Nat → List (Nat × Nat)
  | [] => []
  | a :: t => match runsOf t with
    | (b, n) :: u => if b = a + 1 then (a, n + 1) :: u else (a, 1) :: (b, n) :: u
    | [] => [(a, 1)]

/-- The 31 runs of the PF view. -/
def pfDir : List Nat :=
  [(0x000, 1, 0x1E, 0, 0, 0), (0x001, 1, 0x01, 0, 0, 0), (0x002, 1, 0x1C, 0, 0, 0), (0x003, 1, 0x17, 0, 0, 0),
   (0x004, 1, 0x16, 0, 0, 0), (0x005, 1, 0x1D, 0, 0, 0), (0x006, 1, 0x1B, 0, 0, 0), (0x007, 1, 0x18, 0, 0, 0),
   (0x008, 1, 0x1A, 0, 0, 0), (0x009, 1, 0x19, 0, 0, 0), (0x00A, 1, 0x15, 0, 0, 0), (0x00B, 1, 0x14, 8, 0, 0),
   (0x010, 1, 0x02, 0, 0, 0), (0x011, 1, 0x07, 0, 0, 0), (0x012, 1, 0x06, 0, 0, 0), (0x020, 16, 0x03, 0, 0, 0),
   (0x040, 8, 0x08, 0, 0, 0), (0x048, 8, 0x09, 0, 0, 0), (0x050, 8, 0x0A, 0, 0, 0), (0x058, 8, 0x0B, 0, 0, 0),
   (0x060, 8, 0x0D, 0, 0, 0), (0x068, 8, 0x0E, 0, 0, 0), (0x070, 8, 0x0F, 0, 0, 0), (0x078, 8, 0x14, 0, 0, 0),
   (0x080, 2, 0x0C, 0, 0, 0), (0x082, 2, 0x11, 0, 0, 0), (0x084, 2, 0x10, 0, 0, 0), (0x090, 16, 0x12, 0, 0, 0),
   (0x0A0, 12, 0x13, 0, 0, 0), (0x100, 256, 0x04, 0, 0, 0), (0x200, 128, 0x06, 0, 1, 1)].map
    (fun (e : Nat × Nat × Nat × Nat × Nat × Nat) => dirWord e.1 e.2.1 e.2.2.1 e.2.2.2.1 e.2.2.2.2.1 e.2.2.2.2.2)

/-- The entries of an owner's view, in page order. -/
def State.dirEntries (s : State) (o : Nat) : List Nat :=
  if o = 16 then pfDir else
  let has (k : ObjKind) (n : Nat) : List Nat := (List.range n).filter (fun l => (s.fromLocal o k l).isSome)
  [dirWord 0 1 0x1E o 0 0, dirWord 7 1 0x18 0 0 0, dirWord 0xA 1 0x15 o 0 0, dirWord 0x20 2 0x03 o 0 1] ++
  (runsOf (has .context 64)).map (fun r => dirWord (0x40 + r.1) r.2 0x04 r.1 0 0) ++
  (runsOf (has .fenceBlock 128)).map (fun r => dirWord (0x80 + r.1) r.2 0x06 0 r.1 1)

/-- `DIR_COUNT` of a view. -/
def State.dirCount (s : State) (o : Nat) : Nat :=
  let q := if o = 16 then 1024 else ((s.heldBy o .queue).map (fun e => e.2 + 1)).foldl max 0
  (s.dirEntries o).length + q * 2 ^ 16

/-! ## Reads -/

/-- The register at an offset of a page: its row and its index in the array. -/
def regAt (b : Block) (off : Nat) : Option (Reg × Nat) :=
  (headerRegs b ++ blockRegs b).findSome? (fun r =>
    let d := off - r.off
    if r.off ≤ off ∧ d % r.stride = 0 ∧ d / r.stride < r.count then some (r, d / r.stride) else none)

/-- Reserved offsets of a page (R50): on the HOST page those of the registers that only POLDER page 1 has, 0x040–0x050
and 0x420–0x440 (Table — Owner-page registers), and the fabric registers on CAUSEWAY pages 1 to 11. -/
def reservedOff (b : Block) (inst off : Nat) : Bool :=
  match b with
  | .owner => inst == 16 && (decide (0x040 ≤ off ∧ off < 0x058) || decide (0x420 ≤ off ∧ off < 0x448))
  | .causeway => inst != 0 && decide (0x400 ≤ off)
  | _ => false

/-- What an 8-byte read of a register of a page returns. `HSP_ACQUIREn` is read by its own command. -/
def State.readWord (s : State) (fn : Fn) (b : Block) (inst off : Nat) : Nat :=
  if off < 0x040 then s.headerWord fn b inst off
  else if reservedOff b inst off then 0
  else if b = .directory then
    if off = 0x040 then s.dirCount inst else if 0x100 ≤ off then (s.dirEntries inst).getD ((off - 0x100) / 8) 0 else 0
  else if b = .queue ∧ off = 0x040 then
    let c := s.rd F.Q_CFG_CTX inst
    (match fn with | .pf => c | .vf _ => s.localOf .context c) * 2 ^ 8
  else if b = .counters ∧ inst ≠ 16 ∧ s.rd F.PLD_CFG_CNT_VIS inst = 0 then 0
  else match regAt b off with
    | none => 0
    | some (r, i) => (r.fields.map (fun f => if f.acc = .wo then 0 else s.viewi f inst i * 2 ^ f.lo)).sum

/-- What an 8-byte read through a function's BAR0 or BAR2 returns: 0 where no page stands, from a hidden page and from
the doorbell area. -/
def State.read64 (s : State) (fn : Fn) (bar2 : Bool) (page off : Nat) : Nat :=
  match s.pageAt fn bar2 page with
  | none => 0
  | some pg =>
    if s.hiddenPage fn pg then 0 else
    match pg with
    | .fences b => (s.fence (512 * b + off / 8)).word
    | .regs b inst => if b = .queue ∧ 0x400 ≤ off then 0 else s.readWord fn b inst off

end Sys2Proof.Machine
end

