-- ==== Sys2Proof/Machine/RegWrite.lean ====
section
/-! DEFINITION. Writes and refused reads of registers that have no row of their own: access sizes, locks, illegal values
and the effects of each write (spec/03_register_pages.md, R44 to R51, R57; the illegal values and effects are those of the
registers' home chapters). -/

namespace Sys2Proof.Machine
open Sys2Proof

/-! ## Rings (R104, R109, R149, R453, R472) -/

/-- Does a ring that a write would leave enabled reach past the end of its Staithe? A Staithe that is not enabled, or
does not exist, holds no bytes (notes/assumptions/57.md). -/
def State.ringFits (s : State) (o staithe offset log2 size : Nat) : Bool :=
  decide (staithe < 16) && s.rdi F.STH_CFG_EN o staithe == 1 &&
  decide (offset * 4096 + size * 2 ^ log2 ≤ s.rdi F.STH_CFG_BERTHS o staithe * s.berthSize o staithe)

/-- A write of a ring's base changes nothing while the ring is on. -/
def ringBaseOk (en : Nat) (changes : Bool) : Bool := en == 0 || !changes

/-- A write of a ring's configuration: LOG2_SIZE stays while EN = 1, a polder has 112 vectors, and a ring that is on fits. -/
def State.ringCfgOk (s : State) (r : RingRegs) (o inst size : Nat) (new : Fld → Nat) : Bool :=
  (s.rd r.en inst == 0 || new r.log2 == s.rd r.log2 inst) && (o == 16 || decide (new r.vec < 112)) &&
  (new r.en == 0 || s.ringFits o (s.rd r.staithe inst) (s.rd r.offset inst) (new r.log2) size)

/-- Does an enabled ring of an owner lie in Staithe n (R109)? -/
def State.ringIn (s : State) (o n : Nat) : Bool :=
  (s.rd F.EVR_CFG_EN o == 1 && s.rd F.EVR_BASE_STAITHE o == n) ||
  (s.rd F.CNT_DUMP_CFG_EN o == 1 && s.rd F.CNT_DUMP_BASE_STAITHE o == n) ||
  (o == 16 && s.rd F.ASY_CPER_CFG_EN 0 == 1 && s.rd F.ASY_CPER_BASE_STAITHE 0 == n) ||
  (List.range 256).any (fun c => s.ownerOf .context c == o && s.rd F.FLT_CFG_EN c == 1 && s.rd F.FLT_BASE_STAITHE c == n)

/-- Does a load of an owner read from Staithe n (R109)? -/
def State.loadIn (s : State) (o n : Nat) : Bool :=
  s.ops.any (fun op => op.owner == o && (match op.task with
    | .planLoad .. => s.rd F.PLN_SRC_STAITHE o == n
    | .frameLoad .. => s.rd F.RV_FRAME_SRC_STAITHE 0 == n
    | .tblWrite .. => s.rd F.TBL_SRC_STAITHE o == n
    | .packLoad .. => s.rd F.ASY_SRC_STAITHE 0 == n
    | .trustLoad .. => s.rd F.CW_TRUST_SRC_STAITHE 0 == n
    | _ => false))

/-- `STH_CFGn` (R109). -/
def State.sthCfgOk (s : State) (o n : Nat) (new : Fld → Nat) : Bool :=
  let old (f : Fld) : Nat := s.rdi f o n
  let same := new F.STH_CFG_CLASS == old F.STH_CFG_CLASS && new F.STH_CFG_BERTHS == old F.STH_CFG_BERTHS &&
    new F.STH_CFG_RAW == old F.STH_CFG_RAW
  let b := new F.STH_CFG_BERTHS
  let size := 4096 * 2 ^ new F.STH_CFG_CLASS
  let others := ((List.range 16).map (fun m =>
    if m != n && s.rdi F.STH_CFG_EN o m == 1 then s.rdi F.STH_CFG_BERTHS o m else 0)).sum
  (old F.STH_CFG_EN == 0 || same) &&
  (if new F.STH_CFG_EN = 1 then
    decide (1 ≤ b) && decide (b ≤ 262144) && decide (b * size ≤ 2 ^ 30) && decide (new F.STH_CFG_RAW < b) &&
    s.sthBase o n % size == 0 && decide (others + b ≤ 1048576)
   else old F.STH_CFG_EN == 0 || (!s.ringIn o n && !s.loadIn o n))

/-! ## Illegal values of single registers -/

/-- The polder's configuration (R67, R70; Table — `PLD_CFG` to Table — `PLD_MERE`). -/
def State.polderOk (s : State) (p off i : Nat) (new : Fld → Nat) : Bool :=
  let changes (f : Fld) : Bool := new f != s.rdi f p i
  let conf := s.pst p == pConfiguring
  match off with
  | 0x050 => (conf || !(changes F.PLD_CFG_MODE || changes F.PLD_CFG_SCRUB_ON_FLR || changes F.PLD_CFG_CNT_VIS)) &&
      !(new F.PLD_CFG_MODE == 1 && s.rd F.HM_VALUES_SEALED_ONLY 0 == 1)
  | 0x060 => (conf || !changes F.PLD_VAULTS_VAULTS) && (s.heldBy p .extent).all (fun e =>
      let (f, n) := s.sectVaults (e.1 / 512)
      !s.sectValid (e.1 / 512) || (List.range n).all (fun k =>
        (f + k) / 64 != i || bitAt (new F.PLD_VAULTS_VAULTS) ((f + k) % 64) || !bitAt (s.rdi F.PLD_VAULTS_VAULTS p i) ((f + k) % 64)))
  | 0x080 => (conf || !changes F.PLD_WAYS_WAYS) &&
      (bitList 16 (new F.PLD_WAYS_WAYS)).all (fun w => s.wayHolder w == p || s.wayHolder w == 16)
  | 0x088 => (conf || !changes F.PLD_MERE_UNITS) &&
      (bitList 64 (new F.PLD_MERE_UNITS)).all (fun u => s.mereHolder u == p || s.mereHolder u == 16)
  | _ => true

/-- Slab geometry (R341). -/
def slabBytes (layers kv cap : Nat) : Nat := 4096 + layers * ((cap * 4 * kv + 4095) / 4096 * 4096)

/-- POLDER page 1 and the HOST page. -/
def State.ownerOk (s : State) (o off i : Nat) (new : Fld → Nat) : Bool :=
  let noJnl := (SMap.get none s.jnlMap o).isNone && s.rd F.EP_STATE_TOUCHED o == 0 && !s.opBusy .ep o
  match off with
  | 0x0C0 => ringBaseOk (s.rd F.EVR_CFG_EN o)
      (new F.EVR_BASE_STAITHE != s.rd F.EVR_BASE_STAITHE o || new F.EVR_BASE_OFFSET != s.rd F.EVR_BASE_OFFSET o)
  | 0x0C8 => s.ringCfgOk evRing o o 32 new
  | 0x0E8 => decide (s.rd F.MOB_LO_VA o + new F.MOB_HI_PAGES ≤ 2 ^ 36)
  | 0x200 => s.rdi F.STH_CFG_EN o i == 0
  | 0x208 => s.sthCfgOk o i new
  | 0x498 => noJnl
  | 0x4A0 => noJnl
  | 0x4C8 => decide (slabBytes (s.rd F.TN_GEOM_LAYERS o) (s.rd F.TN_GEOM_KV_DIM o) (s.rd F.TN_GEOM_CAP o) ≤
        new F.TN_SLABS_STRIDE * 4096) &&
      decide (((List.range 17).map (fun x => if x = o then new F.TN_SLABS_COUNT else s.rd F.TN_SLABS_COUNT x)).sum ≤ 1048576)
  | 0x4D0 => decide (slabBytes (new F.TN_GEOM_LAYERS) (new F.TN_GEOM_KV_DIM) (new F.TN_GEOM_CAP) ≤
        s.rd F.TN_SLABS_STRIDE o * 4096) && new F.TN_GEOM_KV_DIM % 32 == 0 &&
      decide (((List.range 17).map (fun x => s.rd F.TN_SLABS_COUNT x)).sum ≤ 1048576)
  | _ => true

/-- CTX pages. -/
def State.ctxOk (s : State) (o c off : Nat) (new : Fld → Nat) : Bool :=
  match off with
  | 0x048 => s.rd F.CTX_CFG_ENABLE c == 0 && s.mobs.all (fun m => m.ctx != c)
  | 0x050 =>
    let b := new F.CTX_FENCES_BASE
    let n := new F.CTX_FENCES_COUNT
    s.rd F.CTX_CFG_ENABLE c == 0 && decide (1 ≤ n) && decide (n ≤ 65536) &&
      (List.range ((b + n - 1) / 512 + 1 - b / 512)).all (fun k => (s.fromLocal o .fenceBlock (b / 512 + k)).isSome)
  | 0x060 => o == 16 || decide (new F.CTX_IRQ_VEC < 112)
  | 0x080 => ringBaseOk (s.rd F.FLT_CFG_EN c)
      (new F.FLT_BASE_STAITHE != s.rd F.FLT_BASE_STAITHE c || new F.FLT_BASE_OFFSET != s.rd F.FLT_BASE_OFFSET c)
  | 0x088 => s.ringCfgOk fltRing o c 32 new
  | _ => true

/-- Do two ranges of vaults and of local units of 4 MiB share a place? -/
def sectsMeet (f n b f' n' b' : Nat) : Bool :=
  decide (f < f' + n') && decide (f' < f + n) && decide (b < b' + 256 / n') && decide (b' < b + 256 / n)

/-- `TWR_SECTi` of global section `x` (R196). -/
def State.sectOk (s : State) (x : Nat) (new : Fld → Nat) : Bool :=
  let old (f : Fld) : Nat := s.rdi f (x / 48) (x % 48)
  let changes := [F.TWR_SECT_VALID, F.TWR_SECT_LOG2_N, F.TWR_SECT_FIRST_VAULT, F.TWR_SECT_LOCAL_BASE].any (fun f => new f != old f)
  let n := 2 ^ new F.TWR_SECT_LOG2_N
  let f := new F.TWR_SECT_FIRST_VAULT
  let b := new F.TWR_SECT_LOCAL_BASE
  (new F.TWR_SECT_VALID == 0 ||
    (f % n == 0 && decide (b + 256 / n ≤ 384) && (List.range n).all (fun k => !s.retired (f + k)) &&
     (List.range 384).all (fun y => y == x || !s.sectValid y ||
       !sectsMeet f n b (s.sectVaults y).1 (s.sectVaults y).2 (s.rdi F.TWR_SECT_LOCAL_BASE (y / 48) (y % 48))))) &&
  (!changes ||
    ((List.range 512).all (fun e => s.ownerOf .extent (512 * x + e) == 16) &&
     s.mobs.all (fun m => m.ents.all (fun e => match e.res with
       | .leaf t a _ => t != 0 || a + e.pages * 4096 ≤ x * 2 ^ 30 || (x + 1) * 2 ^ 30 ≤ a
       | _ => true))))

/-- `CW_IMPj`: no change of an entry that a plan in force or staged references (R379). -/
def State.impOk (s : State) (j : Nat) (new : Fld → Nat) : Bool :=
  let old (f : Fld) : Nat := s.rdi f 0 j
  let changes := [F.CW_IMP_VALID, F.CW_IMP_POLDER, F.CW_IMP_PEER, F.CW_IMP_GRANT, F.CW_IMP_RATE].any (fun f => new f != old f)
  let p := old F.CW_IMP_POLDER
  let uses (x : Option Plan) : Bool := match x with
    | some pl => pl.grants.any (fun g => g.peer == old F.CW_IMP_PEER && g.grant == old F.CW_IMP_GRANT)
    | none => false
  !changes || old F.CW_IMP_VALID == 0 || !(uses (s.planOf p) || uses (SMap.get none s.stagedPlans p))

/-- Is a write of a register of a page legal, beyond the legal values of its fields (R51)? -/
def State.regOk (s : State) (o : Nat) (b : Block) (inst off i : Nat) (new : Fld → Nat) : Bool :=
  match b with
  | .polder => s.polderOk inst off i new
  | .owner => s.ownerOk inst off i new
  | .ctx => s.ctxOk o inst off new
  | .tower => if off = 0x100 then s.sectOk (48 * inst + i) new else true
  | .causeway => if off = 0x800 then s.impOk i new else true
  | .assayCentral =>
    if off = 0x070 then ringBaseOk (s.rd F.ASY_CPER_CFG_EN 0)
      (new F.ASY_CPER_BASE_STAITHE != s.rd F.ASY_CPER_BASE_STAITHE 0 || new F.ASY_CPER_BASE_OFFSET != s.rd F.ASY_CPER_BASE_OFFSET 0)
    else if off = 0x078 then s.ringCfgOk cperRing 16 0 256 new else true
  | .counters =>
    if off = 0x058 then ringBaseOk (s.rd F.CNT_DUMP_CFG_EN inst)
      (new F.CNT_DUMP_BASE_STAITHE != s.rd F.CNT_DUMP_BASE_STAITHE inst || new F.CNT_DUMP_BASE_OFFSET != s.rd F.CNT_DUMP_BASE_OFFSET inst)
    else if off = 0x060 then s.ringCfgOk dumpRing inst inst (if inst = 16 then 32768 else 2048) new else true
  | _ => true

/-! ## Registers that are read-only in some views -/

/-- Does the field take a write in this view: `CNT_CTRL.K` and `CNT_WIN.BANK` are the PF's, and `Q_CFG.CTX` is written by
the PF on a PF-owned queue while its context is off (Table — `Q_CFG`)? -/
def State.takesWrite (s : State) (b : Block) (inst : Nat) (f : Fld) : Bool :=
  match b with
  | .counters => inst == 16 || (f != F.CNT_CTRL_K && f != F.CNT_WIN_BANK)
  | .queue => s.ownerOf .queue inst == 16 && s.rd F.CTX_CFG_ENABLE (s.rd F.Q_CFG_CTX inst) == 0
  | _ => true

/-! ## What a write brings beside its fields -/

/-- Lines in ways that change holder are invalid, and what is not clean is zeroed before it passes (R543). -/
def State.passItems (s : State) (zs : List ZeroItem) : State :=
  let s1 := zs.foldl (fun t z => if t.isClean z then t else t.addZero z 16) s
  { s1 with lines := s1.lines.filter (fun e => !zs.contains (.way (e.1 % 16))) }

/-- The bits in which two numbers differ. -/
def diffBits (w a b : Nat) : List Nat := (List.range w).filter (fun i => bitAt a i != bitAt b i)

/-- The effects of a write, given the state before it. -/
def State.afterWrite (s old : State) (b : Block) (inst off i : Nat) : State :=
  match b with
  | .junction =>
    if off = 0x078 then
      (List.range 12).foldl (fun t n => if old.portEff n && !s.portEff n then t.cwDownPort n else t) s
    else s
  | .polder =>
    if off = 0x080 then
      s.passItems ((diffBits 16 (old.rd F.PLD_WAYS_WAYS inst) (s.rd F.PLD_WAYS_WAYS inst)).map .way)
    else if off = 0x088 then
      s.passItems ((diffBits 64 (old.rd F.PLD_MERE_UNITS inst) (s.rd F.PLD_MERE_UNITS inst)).map .mereUnit)
    else s
  | .owner =>
    if off = 0x208 ∧ (old.rdi F.STH_CFG_EN inst i = 1 ∨ s.rdi F.STH_CFG_EN inst i = 1) ∧
        old.rdi F.STH_CFG_EN inst i ≠ s.rdi F.STH_CFG_EN inst i then
      { s with
        runs := s.runs.map (fun r => if r.owner = inst then
          { r with inHeld := r.inHeld && r.inRef.staithe != i, outHeld := r.outHeld && r.outRef.staithe != i } else r)
        returning := s.returning.filter (fun x => !(x.owner == inst && x.staithe == i)) }
    else s
  | .ctx =>
    if off = 0x040 ∧ s.rd F.CTX_STATUS_STATE inst ≠ 2 then s.wr F.CTX_STATUS_STATE inst (s.rd F.CTX_CFG_ENABLE inst)
    else if off = 0x058 ∧ s.rd F.CTX_MIRROR_EN inst = 1 then s.wr F.CTX_STATUS_MIRROR_FAULT inst 0
    else s
  | .tower =>
    if off = 0x068 then State.testWeak ((List.range 32).foldl (fun t v => t.testRetire (32 * inst + v)) s) inst else s
  | _ => s

/-! ## One register write (R44, R46, R47, R50, R51) -/

/-- The bits of a register that a write of 4 or 8 bytes reaches: the write's value in place, and which halves it gives. -/
structure WordWrite where
  value : Nat
  lo : Bool
  hi : Bool

/-- The byte offset of the access within its register (Table — `PG_ERR_FIRST`, OFFSET). -/
def WordWrite.byteOff (w : WordWrite) (off : Nat) : Nat := if w.lo then off else off + 4

/-- Does the write give bits of the field? -/
def WordWrite.gives (w : WordWrite) (f : Fld) : Bool := (w.lo && decide (f.lo < 32)) || (w.hi && decide (32 < f.lo + f.width))

/-- The value that a field takes: the given half joined with the present other half. -/
def State.mergedField (s : State) (w : WordWrite) (inst i : Nat) (f : Fld) : Nat :=
  let old := s.rdi f inst i * 2 ^ f.lo
  let lo := if w.lo then w.value % 2 ^ 32 else old % 2 ^ 32
  let hi := if w.hi then w.value / 2 ^ 32 else old / 2 ^ 32
  bitsOf (lo + hi * 2 ^ 32) f.lo f.width

/-- What one field of the register becomes (Table — Access types). A W1C or W1S field acts on the bits given. -/
def State.writeField (s : State) (w : WordWrite) (b : Block) (inst i : Nat) (locked : Bool) (f : Fld) : State :=
  let bits := bitsOf ((if w.lo then w.value % 2 ^ 32 else 0) + (if w.hi then w.value / 2 ^ 32 * 2 ^ 32 else 0)) f.lo f.width
  match f.acc with
  | .rw => if s.takesWrite b inst f then s.wri f inst i (s.mergedField w inst i f) else s
  | .rwl => if locked || !s.takesWrite b inst f then s else s.wri f inst i (s.mergedField w inst i f)
  | .w1c => s.wri f inst i (bitsDiff f.width (s.rdi f inst i) bits)
  | .w1s => s.wri f inst i (bitsOr f.width (s.rdi f inst i) bits)
  | _ => s

/-- An RWL field that the write would change. -/
def State.lockHit (s : State) (w : WordWrite) (b : Block) (inst i : Nat) (f : Fld) : Bool :=
  f.acc == .rwl && s.takesWrite b inst f && s.mergedField w inst i f != s.rdi f inst i

/-- The capture of `PG_ERR_FIRST` is released when a W1C write leaves `PG_ERR` at 0 (R43). -/
def State.rearmErr (s : State) (b : Block) (inst : Nat) : State :=
  if [F.PG_ERR_BAD_SIZE, F.PG_ERR_HALF_ATOMIC, F.PG_ERR_ILLEGAL_VALUE, F.PG_ERR_LOCKED_WRITE].all
    (fun f => s.rd (f.on b) inst == 0) then s.wr (F.PG_ERR_FIRST_VALID.on b) inst 0 else s

/-- `MOB_CMD` and `FNC_CMD` while a command runs: a write of no operation is illegal too (R107, R139). A write that commands
one is that command's row. -/
def State.cmdBusy (s : State) (b : Block) (inst off : Nat) (new : Fld → Nat) : Bool :=
  (b == .owner && off == 0x0F0 && new F.MOB_CMD_OP == 0 && s.opBusy .mob inst) ||
  (b == .fence && off == 0x040 && new F.FNC_CMD_OP == 0 && s.opBusy .fnc 0)

/-- A write of one register of a page by its owner `o`. A register with a row of its own takes no effect here beyond the
test of its fields' values: its row is its write. -/
def State.writeWord (s : State) (o : Nat) (b : Block) (inst off : Nat) (w : WordWrite) : State :=
  if reservedOff b inst off then s else
  match regAt b off with
  | none => s
  | some (r, i) =>
    if r.atomic64 && !(w.lo && w.hi) then s.pageErr b inst (w.byteOff off) .halfAtomic else
    let new := s.mergedField w inst i
    let writable := r.fields.filter (fun f => f.acc == .rw || f.acc == .rwl || f.acc == .wo)
    if writable.any (fun f => w.gives f && s.takesWrite b inst f && !f.isLegal (new f)) then s.illegal b inst (w.byteOff off)
    else if r.own then (if s.cmdBusy b inst r.off new then s.illegal b inst (w.byteOff off) else s)
    else if b = .polder ∧ (s.tdisp inst = 1 ∨ s.tdisp inst = 2) ∧ 0x040 ≤ off then s
    else if writable.any (fun f => s.takesWrite b inst f) && !s.regOk o b inst r.off i new then s.illegal b inst (w.byteOff off)
    else
      let locked := s.rd (F.PG_CTRL_LOCK.on b) inst == 1
      let s1 := r.fields.foldl (fun t f => t.writeField w b inst i locked f) s
      let s2 := if off = 0x020 then s1.rearmErr b inst else s1.afterWrite s b inst r.off i
      if locked && r.fields.any (s.lockHit w b inst i) then s2.pageErr b inst (w.byteOff off) .lockedWrite else s2

/-! ## Accesses (Table — Access sizes, R48, R57) -/

/-- How an access of a size falls on the registers of a page. -/
inductive Shape where
  | half
  | words (n : Nat)
  | bad
  deriving DecidableEq, Repr

/-- The shape of an access at an offset. -/
def accessShape (off len : Nat) : Shape :=
  if len = 4 ∧ off % 4 = 0 then .half
  else if 8 ≤ len ∧ len ≤ 64 ∧ len % 8 = 0 ∧ off % 8 = 0 ∧ off + len ≤ 4096 then .words (len / 8)
  else .bad

/-- The registers of one access, in ascending address order. -/
def State.writeWords (o : Nat) (b : Block) (inst : Nat) (data : List Byte) : Nat → Nat → State → State
  | 0, _, s => s
  | n + 1, off, s =>
    State.writeWords o b inst (data.drop 8) n (off + 8)
      (s.writeWord o b inst off { value := numAt data 0 8, lo := true, hi := true })

/-- May a function write the registers of a page: its owner may (R57), and every function that reaches the HASP page may
write that shared page (R58). -/
def State.writesPage (s : State) (fn : Fn) (b : Block) (inst : Nat) : Bool := b == .hasp || s.pageOwner b inst == fn.idx

/-- The re-arm writes of one access to a FENCE state page, in ascending address order (R46, R95). -/
def State.rearmWords (fn : Fn) (block : Nat) (data : List Byte) : Nat → Nat → State → State
  | 0, _, s => s
  | n + 1, word, s => State.rearmWords fn block (data.drop 8) n (word + 1) (s.rearm fn block word (numAt data 0 8))

/-- A write to BAR0, or to BAR2 outside the doorbell area (R44 to R51, R57). A write that reaches the doorbell area is a
doorbell write (R115). On a FENCE state page 8-byte words are re-arm writes and every other write is ignored (R94, R95). -/
def State.regWrite (s : State) (fn : Fn) (bar2 : Bool) (page off : Nat) (data : List Byte) : State :=
  match s.pageAt fn bar2 page with
  | some (.fences b) =>
    (match accessShape off data.length with
    | .words n => State.rearmWords fn (s.localOf .fenceBlock b) data n (off / 8) s
    | _ => s)
  | some (.regs b inst) =>
    if s.writesPage fn b inst = false ∨ (b = .queue ∧ 0x400 < off + data.length) then s else
    match accessShape off data.length with
    | .bad => s.pageErr b inst off .badSize
    | .half =>
      let hi := decide (off % 8 = 4)
      s.writeWord fn.idx b inst (off - off % 8) { value := numAt data 0 4 * (if hi then 2 ^ 32 else 1), lo := !hi, hi := hi }
    | .words n => State.writeWords fn.idx b inst data n off s
  | none => s

/-- REGISTER_WRITE (R44). -/
def execRegisterWrite (fn : Fn) (bar2 : Bool) (page off : Nat) (data : List Byte) (s : State) : Res :=
  .next (s.regWrite fn bar2 page off data)

/-- The bytes that a read of a good size returns, as a number: the addressed half of a register or of a fence's word
(R46, R94), or whole registers in ascending address order. -/
def State.readOf (s : State) (fn : Fn) (bar2 : Bool) (page off size : Nat) : Nat :=
  match accessShape off size with
  | .bad => 0
  | .half => bitsOf (s.read64 fn bar2 page (off - off % 8)) (off % 8 * 8) 32
  | .words n => ((List.range n).map (fun i => s.read64 fn bar2 page (off + 8 * i) * 2 ^ (64 * i))).sum

/-- A read of any size (R46 to R48). One that is not performed returns 0, and the page records the error. A read of the
doorbell area returns 0 (R55). A page that is hidden or absent, and a FENCE state page, record nothing (R54, R59, R60). -/
def State.badRead (s : State) (fn : Fn) (bar2 : Bool) (page off size : Nat) : State :=
  let s0 := s.emit (.ret fn.idx 0)
  let good := s.emit (.ret fn.idx (s.readOf fn bar2 page off size))
  match s.pageAt fn bar2 page with
  | some (.regs b inst) =>
    if s.hiddenPage fn (.regs b inst) ∨ (b = .queue ∧ 0x400 ≤ off) then s0 else
    match accessShape off size with
    | .bad => s0.pageErr b inst off .badSize
    | .half =>
      (match regAt b (off - off % 8) with
      | some (r, _) => if r.atomic64 then s0.pageErr b inst off .halfAtomic else good
      | none => good)
    | .words _ => good
  | _ => good

/-- BAD_SIZE_READ (R48). A read that is of a good size changes nothing and returns what the registers read. -/
def execBadSizeRead (fn : Fn) (bar2 : Bool) (page off size : Nat) (s : State) : Res :=
  .next (s.badRead fn bar2 page off size)

end Sys2Proof.Machine
end

