-- ==== Sys2Proof/Machine/Dispatch.lean ====
section
/-! DEFINITION. The meaning of each command: one arm per constructor of Instr. -/

namespace Sys2Proof.Machine
open Sys2Proof

def exec (i : Instr) (s : State) : Host.Outcome State Fault Refusal :=
  match i with
  | .doorbellWrite fn page off data => Sys2Proof.Machine.execDoorbellWrite fn page off data s
  | .deferredCheckComplete run => Sys2Proof.Machine.execDeferredCheckComplete run s
  | .stagingStart fn => Sys2Proof.Machine.execStagingStart fn s
  | .stagingComplete run data => Sys2Proof.Machine.execStagingComplete run data s
  | .stagingReadFailed run how => Sys2Proof.Machine.execStagingReadFailed run how s
  | .fenceRearm fn block word data => Sys2Proof.Machine.execFenceRearm fn block word data s
  | .registerWrite fn bar2 page off data => Sys2Proof.Machine.execRegisterWrite fn bar2 page off data s
  | .bar4Access fn write off data => Sys2Proof.Machine.execBar4Access fn write off data s
  | .haspAcquire who n => Sys2Proof.Machine.execHaspAcquire who n s
  | .haspRelease who n => Sys2Proof.Machine.execHaspRelease who n s
  | .pldCreate fn p fence => Sys2Proof.Machine.execPldCreate fn p fence s
  | .pldActivate fn p fence => Sys2Proof.Machine.execPldActivate fn p fence s
  | .pldDestroy fn p fence => Sys2Proof.Machine.execPldDestroy fn p fence s
  | .pldZero fn p fence => Sys2Proof.Machine.execPldZero fn p fence s
  | .pldAbort fn p fence => Sys2Proof.Machine.execPldAbort fn p fence s
  | .pldAssign fn p kind index count ctx => Sys2Proof.Machine.execPldAssign fn p kind index count ctx s
  | .pldRelease fn p kind index count => Sys2Proof.Machine.execPldRelease fn p kind index count s
  | .polderDrainComplete p => Sys2Proof.Machine.execPolderDrainComplete p s
  | .polderClearingDone p => Sys2Proof.Machine.execPolderClearingDone p s
  | .polderZeroingComplete p => Sys2Proof.Machine.execPolderZeroingComplete p s
  | .resourceZeroingDone => Sys2Proof.Machine.execResourceZeroingDone s
  | .mgcZeroOrder p => Sys2Proof.Machine.execMgcZeroOrder p s
  | .tdispGetTdispVersion p => Sys2Proof.Machine.execTdispGetTdispVersion p s
  | .tdispGetTdispCapabilities p => Sys2Proof.Machine.execTdispGetTdispCapabilities p s
  | .tdispLockInterfaceRequest p ideBound => Sys2Proof.Machine.execTdispLockInterfaceRequest p ideBound s
  | .tdispGetDeviceIfReport p => Sys2Proof.Machine.execTdispGetDeviceIfReport p s
  | .tdispGetDeviceIfState p => Sys2Proof.Machine.execTdispGetDeviceIfState p s
  | .tdispStartInterfaceRequest p => Sys2Proof.Machine.execTdispStartInterfaceRequest p s
  | .tdispStopInterfaceRequest p => Sys2Proof.Machine.execTdispStopInterfaceRequest p s
  | .ideFailure p => Sys2Proof.Machine.execIdeFailure p s
  | .ctxReset fn c => Sys2Proof.Machine.execCtxReset fn c s
  | .fncBlockReset fn block fence => Sys2Proof.Machine.execFncBlockReset fn block fence s
  | .msixCoalesceTimeout c => Sys2Proof.Machine.execMsixCoalesceTimeout c s
  | .mobWrite fn slot fence => Sys2Proof.Machine.execMobWrite fn slot fence s
  | .mobClear fn slot fence => Sys2Proof.Machine.execMobClear fn slot fence s
  | .mobResume fn fence => Sys2Proof.Machine.execMobResume fn fence s
  | .mobAbort fn fence => Sys2Proof.Machine.execMobAbort fn fence s
  | .fltRetry fn c id pt => Sys2Proof.Machine.execFltRetry fn c id pt s
  | .fltRetryAll fn c pt => Sys2Proof.Machine.execFltRetryAll fn c pt s
  | .fltFail fn c id => Sys2Proof.Machine.execFltFail fn c id s
  | .faultFill c id pt => Sys2Proof.Machine.execFaultFill c id pt s
  | .faultAllowanceExpiry run => Sys2Proof.Machine.execFaultAllowanceExpiry run s
  | .invInvalidate fn c pages fence => Sys2Proof.Machine.execInvInvalidate fn c pages fence s
  | .invResume fn c fence => Sys2Proof.Machine.execInvResume fn c fence s
  | .invAbort fn c fence => Sys2Proof.Machine.execInvAbort fn c fence s
  | .invDrainEnd c => Sys2Proof.Machine.execInvDrainEnd c s
  | .longOpStep op amount pt => Sys2Proof.Machine.execLongOpStep op amount pt s
  | .plnLoad fn fence image cpl => Sys2Proof.Machine.execPlnLoad fn fence image cpl s
  | .plnUnload fn fence => Sys2Proof.Machine.execPlnUnload fn fence s
  | .plnResume fn fence => Sys2Proof.Machine.execPlnResume fn fence s
  | .plnAbort fn fence => Sys2Proof.Machine.execPlnAbort fn fence s
  | .rvLoad fn fence image cpl => Sys2Proof.Machine.execRvLoad fn fence image cpl s
  | .rvCommit fn dropUnfit fence => Sys2Proof.Machine.execRvCommit fn dropUnfit fence s
  | .rvResume fn fence => Sys2Proof.Machine.execRvResume fn fence s
  | .rvAbort fn fence => Sys2Proof.Machine.execRvAbort fn fence s
  | .rvDiscard fn fence => Sys2Proof.Machine.execRvDiscard fn fence s
  | .frameBoundary => Sys2Proof.Machine.execFrameBoundary s
  | .samplePoint => Sys2Proof.Machine.execSamplePoint s
  | .firstFrameStart => Sys2Proof.Machine.execFirstFrameStart s
  | .levelApplyNoFrame => Sys2Proof.Machine.execLevelApplyNoFrame s
  | .tierApplyNoFrame => Sys2Proof.Machine.execTierApplyNoFrame s
  | .admissionWindow fn lode => Sys2Proof.Machine.execAdmissionWindow fn lode s
  | .admissionTimeout run => Sys2Proof.Machine.execAdmissionTimeout run s
  | .stepStart run step => Sys2Proof.Machine.execStepStart run step s
  | .stepComplete run step => Sys2Proof.Machine.execStepComplete run step s
  | .stepDeadline run step => Sys2Proof.Machine.execStepDeadline run step s
  | .runRelease run => Sys2Proof.Machine.execRunRelease run s
  | .punchHash run step flaw => Sys2Proof.Machine.execPunchHash run step flaw s
  | .gatherPool run step ev => Sys2Proof.Machine.execGatherPool run step ev s
  | .ladleCopy run step flaw => Sys2Proof.Machine.execLadleCopy run step flaw s
  | .ladleFill run step flaw => Sys2Proof.Machine.execLadleFill run step flaw s
  | .ladleZero run step flaw => Sys2Proof.Machine.execLadleZero run step flaw s
  | .ladleLoad run step flaw => Sys2Proof.Machine.execLadleLoad run step flaw s
  | .outputWrite run step => Sys2Proof.Machine.execOutputWrite run step s
  | .anvilInteger run step flaw hit => Sys2Proof.Machine.execAnvilInteger run step flaw hit s
  | .anvilExpand run step flaw => Sys2Proof.Machine.execAnvilExpand run step flaw s
  | .anvilProductTable run step flaw => Sys2Proof.Machine.execAnvilProductTable run step flaw s
  | .anvilTilePush t => Sys2Proof.Machine.execAnvilTilePush t s
  | .planisherPrologue run step => Sys2Proof.Machine.execPlanisherPrologue run step s
  | .nop t => Sys2Proof.Machine.execNop t s
  | .loop t => Sys2Proof.Machine.execLoop t s
  | .clrf t => Sys2Proof.Machine.execClrf t s
  | .stf t => Sys2Proof.Machine.execStf t s
  | .ldF32 t flaw => Sys2Proof.Machine.execLdF32 t flaw s
  | .ldBf16 t flaw => Sys2Proof.Machine.execLdBf16 t flaw s
  | .ldQ8 t flaw => Sys2Proof.Machine.execLdQ8 t flaw s
  | .ldQ4 t flaw => Sys2Proof.Machine.execLdQ4 t flaw s
  | .ldE4m3 t flaw => Sys2Proof.Machine.execLdE4m3 t flaw s
  | .ldE5m2 t flaw => Sys2Proof.Machine.execLdE5m2 t flaw s
  | .stF32 t flaw => Sys2Proof.Machine.execStF32 t flaw s
  | .stBf16 t flaw => Sys2Proof.Machine.execStBf16 t flaw s
  | .stQ8 t flaw => Sys2Proof.Machine.execStQ8 t flaw s
  | .stQ4 t flaw => Sys2Proof.Machine.execStQ4 t flaw s
  | .stE4m3 t flaw => Sys2Proof.Machine.execStE4m3 t flaw s
  | .stE5m2 t flaw => Sys2Proof.Machine.execStE5m2 t flaw s
  | .pop t flaw => Sys2Proof.Machine.execPop t flaw s
  | .fadd t flaw => Sys2Proof.Machine.execFadd t flaw s
  | .fsub t flaw => Sys2Proof.Machine.execFsub t flaw s
  | .fmul t flaw => Sys2Proof.Machine.execFmul t flaw s
  | .fma t flaw => Sys2Proof.Machine.execFma t flaw s
  | .fmax t flaw => Sys2Proof.Machine.execFmax t flaw s
  | .fmin t flaw => Sys2Proof.Machine.execFmin t flaw s
  | .fabs t flaw => Sys2Proof.Machine.execFabs t flaw s
  | .fneg t flaw => Sys2Proof.Machine.execFneg t flaw s
  | .frcp t flaw => Sys2Proof.Machine.execFrcp t flaw s
  | .frsq t flaw => Sys2Proof.Machine.execFrsq t flaw s
  | .fexp2 t flaw => Sys2Proof.Machine.execFexp2 t flaw s
  | .flog2 t flaw => Sys2Proof.Machine.execFlog2 t flaw s
  | .ftanh t flaw => Sys2Proof.Machine.execFtanh t flaw s
  | .fsigm t flaw => Sys2Proof.Machine.execFsigm t flaw s
  | .fcmp t flaw => Sys2Proof.Machine.execFcmp t flaw s
  | .icmp t flaw => Sys2Proof.Machine.execIcmp t flaw s
  | .mkand t => Sys2Proof.Machine.execMkand t s
  | .mkor t => Sys2Proof.Machine.execMkor t s
  | .mknot t => Sys2Proof.Machine.execMknot t s
  | .mkrange t => Sys2Proof.Machine.execMkrange t s
  | .sel t flaw => Sys2Proof.Machine.execSel t flaw s
  | .mov t flaw => Sys2Proof.Machine.execMov t flaw s
  | .iadd t flaw => Sys2Proof.Machine.execIadd t flaw s
  | .isub t flaw => Sys2Proof.Machine.execIsub t flaw s
  | .imul t flaw => Sys2Proof.Machine.execImul t flaw s
  | .imax t flaw => Sys2Proof.Machine.execImax t flaw s
  | .imin t flaw => Sys2Proof.Machine.execImin t flaw s
  | .ishr t flaw => Sys2Proof.Machine.execIshr t flaw s
  | .cvtif t flaw => Sys2Proof.Machine.execCvtif t flaw s
  | .cvtfi t flaw => Sys2Proof.Machine.execCvtfi t flaw s
  | .qnt8 t flaw => Sys2Proof.Machine.execQnt8 t flaw s
  | .qnt4 t flaw => Sys2Proof.Machine.execQnt4 t flaw s
  | .qnt8s t flaw => Sys2Proof.Machine.execQnt8s t flaw s
  | .qnt4s t flaw => Sys2Proof.Machine.execQnt4s t flaw s
  | .frbf t flaw => Sys2Proof.Machine.execFrbf t flaw s
  | .rsum t flaw => Sys2Proof.Machine.execRsum t flaw s
  | .rmax t flaw => Sys2Proof.Machine.execRmax t flaw s
  | .csum t flaw => Sys2Proof.Machine.execCsum t flaw s
  | .cmax t flaw => Sys2Proof.Machine.execCmax t flaw s
  | .windowRead run step flaw badLines => Sys2Proof.Machine.execWindowRead run step flaw badLines s
  | .appendHistory run step flaw badLines => Sys2Proof.Machine.execAppendHistory run step flaw badLines s
  | .appendBeam run step flaw => Sys2Proof.Machine.execAppendBeam run step flaw s
  | .evict run step flaw badLines => Sys2Proof.Machine.execEvict run step flaw badLines s
  | .tarnPin run step flaw badLines => Sys2Proof.Machine.execTarnPin run step flaw badLines s
  | .tarnUnpin run step flaw badLines => Sys2Proof.Machine.execTarnUnpin run step flaw badLines s
  | .riddleTopk run step flaw => Sys2Proof.Machine.execRiddleTopk run step flaw s
  | .riddleBeam run step flaw => Sys2Proof.Machine.execRiddleBeam run step flaw s
  | .solderUpdate run step => Sys2Proof.Machine.execSolderUpdate run step s
  | .updateAssign run step => Sys2Proof.Machine.execUpdateAssign run step s
  | .updateAdd run step => Sys2Proof.Machine.execUpdateAdd run step s
  | .updateSgd run step => Sys2Proof.Machine.execUpdateSgd run step s
  | .updateAdagradRow run step => Sys2Proof.Machine.execUpdateAdagradRow run step s
  | .remoteGather run step => Sys2Proof.Machine.execRemoteGather run step s
  | .remotePush run step => Sys2Proof.Machine.execRemotePush run step s
  | .remoteDeadline run step => Sys2Proof.Machine.execRemoteDeadline run step s
  | .tblWrite fn slot fence image cpl => Sys2Proof.Machine.execTblWrite fn slot fence image cpl s
  | .tblClear fn slot fence => Sys2Proof.Machine.execTblClear fn slot fence s
  | .tblResume fn fence => Sys2Proof.Machine.execTblResume fn fence s
  | .tblAbort fn fence => Sys2Proof.Machine.execTblAbort fn fence s
  | .hmkPin fn table fence => Sys2Proof.Machine.execHmkPin fn table fence s
  | .hmkUnpin fn table fence => Sys2Proof.Machine.execHmkUnpin fn table fence s
  | .hmkUnpinAll fn fence => Sys2Proof.Machine.execHmkUnpinAll fn fence s
  | .hmkResume fn fence => Sys2Proof.Machine.execHmkResume fn fence s
  | .hmkAbort fn fence => Sys2Proof.Machine.execHmkAbort fn fence s
  | .sketchHalving => Sys2Proof.Machine.execSketchHalving s
  | .epPublish fn fence => Sys2Proof.Machine.execEpPublish fn fence s
  | .epAbandon fn fence => Sys2Proof.Machine.execEpAbandon fn fence s
  | .epResume fn fence => Sys2Proof.Machine.execEpResume fn fence s
  | .epAbort fn fence => Sys2Proof.Machine.execEpAbort fn fence s
  | .tempSample readings base => Sys2Proof.Machine.execTempSample readings base s
  | .advisoryHoldoffEnd => Sys2Proof.Machine.execAdvisoryHoldoffEnd s
  | .thermalTrip source => Sys2Proof.Machine.execThermalTrip source s
  | .twrRetire fn t vault fence => Sys2Proof.Machine.execTwrRetire fn t vault fence s
  | .twrRepair fn t cand fence => Sys2Proof.Machine.execTwrRepair fn t cand fence s
  | .twrResume fn t fence => Sys2Proof.Machine.execTwrResume fn t fence s
  | .twrAbort fn t fence => Sys2Proof.Machine.execTwrAbort fn t fence s
  | .backgroundTick lane output => Sys2Proof.Machine.execBackgroundTick lane output s
  | .asyLoad fn fence image cpl => Sys2Proof.Machine.execAsyLoad fn fence image cpl s
  | .asySweep fn fence => Sys2Proof.Machine.execAsySweep fn fence s
  | .asyTest fn block inst fence => Sys2Proof.Machine.execAsyTest fn block inst fence s
  | .assaySweepInterval => Sys2Proof.Machine.execAssaySweepInterval s
  | .patinaSample ro bond eye amps => Sys2Proof.Machine.execPatinaSample ro bond eye amps s
  | .dailyPoint => Sys2Proof.Machine.execDailyPoint s
  | .dumpWrite => Sys2Proof.Machine.execDumpWrite s
  | .linkEnable port => Sys2Proof.Machine.execLinkEnable port s
  | .signalDetect port => Sys2Proof.Machine.execSignalDetect port s
  | .seekRetry port => Sys2Proof.Machine.execSeekRetry port s
  | .trainComplete port peer domain number roundTrip => Sys2Proof.Machine.execTrainComplete port peer domain number roundTrip s
  | .helloMismatch port peer domain number => Sys2Proof.Machine.execHelloMismatch port peer domain number s
  | .trainTimeout port => Sys2Proof.Machine.execTrainTimeout port s
  | .authTimeout port => Sys2Proof.Machine.execAuthTimeout port s
  | .spdmSessionEstablished port session => Sys2Proof.Machine.execSpdmSessionEstablished port session s
  | .authFailure port session => Sys2Proof.Machine.execAuthFailure port session s
  | .firstFlitVerified port flit => Sys2Proof.Machine.execFirstFlitVerified port flit s
  | .dataFlitReceived port flit => Sys2Proof.Machine.execDataFlitReceived port flit s
  | .controlFlitIdle port flit => Sys2Proof.Machine.execControlFlitIdle port flit s
  | .controlFlitAck port flit => Sys2Proof.Machine.execControlFlitAck port flit s
  | .controlFlitNak port flit => Sys2Proof.Machine.execControlFlitNak port flit s
  | .controlFlitCredit port flit => Sys2Proof.Machine.execControlFlitCredit port flit s
  | .fecBurst port codewords => Sys2Proof.Machine.execFecBurst port codewords s
  | .keepaliveSend port => Sys2Proof.Machine.execKeepaliveSend port s
  | .keepaliveMissing port => Sys2Proof.Machine.execKeepaliveMissing port s
  | .keyUpdate port sending key salt => Sys2Proof.Machine.execKeyUpdate port sending key salt s
  | .slowUpdate port => Sys2Proof.Machine.execSlowUpdate port s
  | .cwRetrain fn port => Sys2Proof.Machine.execCwRetrain fn port s
  | .cwPortReset fn port => Sys2Proof.Machine.execCwPortReset fn port s
  | .cwTrustLoad fn image cpl leafOk => Sys2Proof.Machine.execCwTrustLoad fn image cpl leafOk s
  | .cwGntWrite fn => Sys2Proof.Machine.execCwGntWrite fn s
  | .cwGntRevoke fn => Sys2Proof.Machine.execCwGntRevoke fn s
  | .cwGntRead fn => Sys2Proof.Machine.execCwGntRead fn s
  | .flitForward port => Sys2Proof.Machine.execFlitForward port s
  | .requestIngress port => Sys2Proof.Machine.execRequestIngress port s
  | .requestServiceComplete port tag ev => Sys2Proof.Machine.execRequestServiceComplete port tag ev s
  | .responseReceived port => Sys2Proof.Machine.execResponseReceived port s
  | .pwrReqLevel fn level => Sys2Proof.Machine.execPwrReqLevel fn level s
  | .pwrReqStandby fn level => Sys2Proof.Machine.execPwrReqStandby fn level s
  | .pwrReqRetain fn level => Sys2Proof.Machine.execPwrReqRetain fn level s
  | .pwrReqOff fn level => Sys2Proof.Machine.execPwrReqOff fn level s
  | .pwrReqActive fn level => Sys2Proof.Machine.execPwrReqActive fn level s
  | .standbyEntry => Sys2Proof.Machine.execStandbyEntry s
  | .wakeComplete => Sys2Proof.Machine.execWakeComplete s
  | .retainEntry => Sys2Proof.Machine.execRetainEntry s
  | .offReadyEntry => Sys2Proof.Machine.execOffReadyEntry s
  | .railRemoval => Sys2Proof.Machine.execRailRemoval s
  | .retainExit => Sys2Proof.Machine.execRetainExit s
  | .railOkRise => Sys2Proof.Machine.execRailOkRise s
  | .boardPowerReport readings => Sys2Proof.Machine.execBoardPowerReport readings s
  | .coldReset => Sys2Proof.Machine.execColdReset s
  | .warmReset => Sys2Proof.Machine.execWarmReset s
  | .warmReady => Sys2Proof.Machine.execWarmReady s
  | .perstNAssert => Sys2Proof.Machine.execPerstNAssert s
  | .hotReset => Sys2Proof.Machine.execHotReset s
  | .pfFlr => Sys2Proof.Machine.execPfFlr s
  | .vfFlr p => Sys2Proof.Machine.execVfFlr p s
  | .rstCmdScope fn scope => Sys2Proof.Machine.execRstCmdScope fn scope s
  | .rstCmdMgc fn scope => Sys2Proof.Machine.execRstCmdMgc fn scope s
  | .mgcWatchdogExpiry => Sys2Proof.Machine.execMgcWatchdogExpiry s
  | .rstEngine fn block inst fence => Sys2Proof.Machine.execRstEngine fn block inst fence s
  | .mgcBoot sig0 sig1 => Sys2Proof.Machine.execMgcBoot sig0 sig1 s
  | .mbxGetInfo fn len cut => Sys2Proof.Machine.execMbxGetInfo fn len cut s
  | .mbxStrike fn len cut => Sys2Proof.Machine.execMbxStrike fn len cut s
  | .mbxAuthHold fn len cut => Sys2Proof.Machine.execMbxAuthHold fn len cut s
  | .mbxLogRead fn len cut => Sys2Proof.Machine.execMbxLogRead fn len cut s
  | .mbxPackRead fn len cut => Sys2Proof.Machine.execMbxPackRead fn len cut s
  | .mbxPatinaRead fn len cut => Sys2Proof.Machine.execMbxPatinaRead fn len cut s
  | .effecterMgcCeiling value => Sys2Proof.Machine.execEffecterMgcCeiling value s
  | .effecterLeaveRetain state => Sys2Proof.Machine.execEffecterLeaveRetain state s
  | .effecterResetScope state => Sys2Proof.Machine.execEffecterResetScope state s
  | .effecterPortEnable states => Sys2Proof.Machine.execEffecterPortEnable states s
  | .effecterZeroOrder states => Sys2Proof.Machine.execEffecterZeroOrder states s
  | .effecterFault state => Sys2Proof.Machine.execEffecterFault state s
  | .mctpSetEndpointId pcie op eid => Sys2Proof.Machine.execMctpSetEndpointId pcie op eid s
  | .mctpGetEndpointId pcie => Sys2Proof.Machine.execMctpGetEndpointId pcie s
  | .mctpGetVersionSupport type => Sys2Proof.Machine.execMctpGetVersionSupport type s
  | .mctpGetMessageTypeSupport => Sys2Proof.Machine.execMctpGetMessageTypeSupport s
  | .pldmGetTid => Sys2Proof.Machine.execPldmGetTid s
  | .pldmSetTid tid => Sys2Proof.Machine.execPldmSetTid tid s
  | .pldmGetPldmVersion type => Sys2Proof.Machine.execPldmGetPldmVersion type s
  | .pldmGetPldmTypes => Sys2Proof.Machine.execPldmGetPldmTypes s
  | .pldmGetPldmCommands type => Sys2Proof.Machine.execPldmGetPldmCommands type s
  | .pldmGetPdr handle => Sys2Proof.Machine.execPldmGetPdr handle s
  | .pldmGetPdrRepositoryInfo => Sys2Proof.Machine.execPldmGetPdrRepositoryInfo s
  | .pldmGetSensorReading id => Sys2Proof.Machine.execPldmGetSensorReading id s
  | .pldmGetStateSensorReadings id => Sys2Proof.Machine.execPldmGetStateSensorReadings id s
  | .pldmSetEventReceiver receiver => Sys2Proof.Machine.execPldmSetEventReceiver receiver s
  | .pldmQueryDeviceIdentifiers => Sys2Proof.Machine.execPldmQueryDeviceIdentifiers s
  | .pldmGetFirmwareParameters => Sys2Proof.Machine.execPldmGetFirmwareParameters s
  | .pldmRequestUpdate maxTransfer => Sys2Proof.Machine.execPldmRequestUpdate maxTransfer s
  | .pldmPassComponentTable comp last => Sys2Proof.Machine.execPldmPassComponentTable comp last s
  | .pldmUpdateComponent comp size => Sys2Proof.Machine.execPldmUpdateComponent comp size s
  | .pldmRequestFirmwareData bytes => Sys2Proof.Machine.execPldmRequestFirmwareData bytes s
  | .pldmTransferComplete => Sys2Proof.Machine.execPldmTransferComplete s
  | .pldmVerifyComplete sigOk svn version => Sys2Proof.Machine.execPldmVerifyComplete sigOk svn version s
  | .pldmApplyComplete => Sys2Proof.Machine.execPldmApplyComplete s
  | .pldmActivateFirmware selfContained => Sys2Proof.Machine.execPldmActivateFirmware selfContained s
  | .pldmGetStatus => Sys2Proof.Machine.execPldmGetStatus s
  | .pldmCancelUpdateComponent => Sys2Proof.Machine.execPldmCancelUpdateComponent s
  | .pldmCancelUpdate => Sys2Proof.Machine.execPldmCancelUpdate s
  | .spdmGetVersion doe => Sys2Proof.Machine.execSpdmGetVersion doe s
  | .spdmGetCapabilities doe => Sys2Proof.Machine.execSpdmGetCapabilities doe s
  | .spdmNegotiateAlgorithms doe asym hash dhe aead => Sys2Proof.Machine.execSpdmNegotiateAlgorithms doe asym hash dhe aead s
  | .spdmGetDigests doe => Sys2Proof.Machine.execSpdmGetDigests doe s
  | .spdmGetCertificate doe slot => Sys2Proof.Machine.execSpdmGetCertificate doe slot s
  | .spdmChallenge doe slot => Sys2Proof.Machine.execSpdmChallenge doe slot s
  | .spdmGetMeasurements doe index => Sys2Proof.Machine.execSpdmGetMeasurements doe index s
  | .spdmKeyExchange doe slot sid => Sys2Proof.Machine.execSpdmKeyExchange doe slot sid s
  | .spdmFinish doe sid ok => Sys2Proof.Machine.execSpdmFinish doe sid ok s
  | .spdmHeartbeat doe sid => Sys2Proof.Machine.execSpdmHeartbeat doe sid s
  | .spdmKeyUpdate doe sid op tag => Sys2Proof.Machine.execSpdmKeyUpdate doe sid op tag s
  | .spdmEndSession doe sid => Sys2Proof.Machine.execSpdmEndSession doe sid s
  | .vddAonPowerUp => Sys2Proof.Machine.execVddAonPowerUp s
  | .pwrGoodRise straps => Sys2Proof.Machine.execPwrGoodRise straps s
  | .pwrGoodFall => Sys2Proof.Machine.execPwrGoodFall s
  | .perstNRelease => Sys2Proof.Machine.execPerstNRelease s
  | .planesStart => Sys2Proof.Machine.execPlanesStart s
  | .stackTrainDone t => Sys2Proof.Machine.execStackTrainDone t s
  | .trainAttemptTimeout t => Sys2Proof.Machine.execTrainAttemptTimeout t s
  | .coldZeroDone => Sys2Proof.Machine.execColdZeroDone s
  | .startTimeout => Sys2Proof.Machine.execStartTimeout s
  | .pmxWrite fn n data => Sys2Proof.Machine.execPmxWrite fn n data s
  | .parkEnd n => Sys2Proof.Machine.execParkEnd n s
  | .frameSyncInEdge => Sys2Proof.Machine.execFrameSyncInEdge s
  | .powerRemoval => Sys2Proof.Machine.execPowerRemoval s
  | .badSizeRead fn bar2 page off size => Sys2Proof.Machine.execBadSizeRead fn bar2 page off size s

end Sys2Proof.Machine
end

