-- ==== Sys2Proof/Machine/Tick.lean ====
section
/-! DEFINITION. The passing of time. The table has no row for a tick: a step of the part whose queue is empty lets time
pass, and queues the events of the Reeve that are due and need nothing from outside, in the order of R533
(notes/assumptions/58.md). -/

namespace Sys2Proof.Machine
open Sys2Proof

/-- Does CCLK run, so that `DEV_TICK` counts (R23, R397)? -/
def State.clockRuns (s : State) : Bool := s.ready && s.pwr != pwStandby && s.pwr != pwWaking

/-- The length of a tick at a level, in 1/39 ns: 16 CCLK cycles (R19, Table — Power levels). -/
def tickLen : Nat → Nat
  | 0 => 390
  | 1 => 480
  | 2 => 624
  | _ => 1040

/-- The agent of an owner index. -/
def fnOf (o : Nat) : Fn := if h : o < 16 then .vf ⟨o, h⟩ else .pf

/-- The events that a boundary brings, at a tick (R533, item 1). -/
def State.boundaryEvents (s : State) : List Instr :=
  match s.frame with
  | some _ => if s.beforeBoundary 0 && s.boundaryDone != s.tick then [.frameBoundary] else []
  | none =>
    (match s.frameArmed with
      | some a => if a.boundary ≤ s.tick then [.firstFrameStart] else []
      | none => []) ++
    (match s.pendLevel with | some (_, t) => if t ≤ s.tick then [.levelApplyNoFrame] else [] | none => []) ++
    (match s.pendTier with | some (_, t) => if t ≤ s.tick then [.tierApplyNoFrame] else [] | none => [])

/-- The steps of admitted runs that start at their planned tick. -/
def State.startEvents (s : State) : List Instr :=
  (s.runs.filter (fun r => r.phase == .admitted)).flatMap (fun r =>
    (List.zip (s.stepsOf r) r.steps).zipIdx.filterMap (fun y =>
      if y.1.2 = .waiting ∧ r.admittedAt + y.1.1.start = s.tick then some (.stepStart r.id y.2) else none))

/-- The steps of admitted runs for which a test gives an event. -/
def State.stepEvents (s : State) (f : Run → Plan → Lode → PStep → Nat → Option Instr) : List Instr :=
  (s.runs.filter (fun r => r.phase == .admitted)).flatMap (fun r => match s.runPlan r, s.runLode r with
    | some p, some l => (s.stepsOf r).zipIdx.filterMap (fun y => f r p l y.1 y.2)
    | _, _ => [])

/-- The steps whose work is done. -/
def State.doneEvents (s : State) : List Instr :=
  s.stepEvents (fun r p l x i => if !stepOver r.steps[i]? && workOver r p l i x then some (.stepComplete r.id i) else none)

/-- The ends that are due: planned ends of steps that have not completed, allowances, and releases. -/
def State.endEvents (s : State) : List Instr :=
  s.stepEvents (fun r _ _ x i => if !stepOver r.steps[i]? && decide (r.admittedAt + x.start + x.duration ≤ s.tick)
    then some (.stepDeadline r.id i) else none) ++
  s.runs.filterMap (fun r => if r.phase = .admitted ∧ s.stallCodes r ≠ [] then some (.faultAllowanceExpiry r.id) else none) ++
  s.runs.filterMap (fun r => if r.phase = .releasing ∧ s.plannedEnd r ≤ s.tick then some (.runRelease r.id) else none)

/-- The windows of this tick, then the runs whose wait has ended (R171, R173). -/
def State.windowEvents (s : State) : List Instr :=
  (if s.frame.isNone then [] else (List.range 17).flatMap (fun o => match s.planOf o with
    | some p => p.lodes.zipIdx.filterMap (fun y =>
        if s.windowDue o y.2 y.1 && s.runs.any (fun r => r.owner == o && r.lode == y.2 && r.phase == .queued)
        then some (.admissionWindow (fnOf o) y.2) else none)
    | none => [])) ++
  s.runs.filterMap (fun r => match s.runLode r with
    | some l => if r.phase = .queued ∧ r.accepted + l.maxWait ≤ s.tick then some (.admissionTimeout r.id) else none
    | none => none)

/-- Power states entered at a boundary once nothing is under way (R397), and coalesced interrupts that are due (R103). -/
def State.otherEvents (s : State) : List Instr :=
  (if s.quiet && s.atBoundary then
    (if s.pwr = pwStandbyPending then [.standbyEntry] else if s.pwr = pwRetainPending then [.retainEntry]
     else if s.pwr = pwOffPending then [.offReadyEntry] else [])
   else []) ++
  (List.range 256).filterMap (fun c =>
    let k := SMap.get { count := 0, first := 0 } s.coal c
    if k.count ≠ 0 ∧ s.rd F.CTX_IRQ_MODE c = 2 ∧ k.first + s.rd F.CTX_IRQ_COAL_TICKS c ≤ s.tick
    then some (.msixCoalesceTimeout ⟨c % 256, Nat.mod_lt _ (by decide)⟩) else none)

/-- The events that every 65,536th tick brings (R248), and the interval of scheduled sweeps (R450). -/
def State.periodEvents (s : State) : List Instr :=
  (if s.tick % 65536 = 0 ∧ 0 < s.tick ∧ s.halved ≠ s.tick then [.sketchHalving] else []) ++
  (if s.sweepDue then [.assaySweepInterval] else [])

/-- The events of the present tick, stage by stage (R533): the sample point and the steps whose work is done; the ends that
are due; the steps that start, and what else the tick brings; the windows and the waits that end; the steps that start with
their run's admission. A stage sees what the ones before it did. -/
def State.stage (s : State) : Nat → List Instr
  | 0 => (if s.beforeBoundary 64 && s.sampled.isNone then [.samplePoint] else []) ++ s.doneEvents
  | 1 => s.endEvents
  | 2 => s.startEvents ++ s.otherEvents ++ s.periodEvents
  | 3 => s.windowEvents
  | 4 => s.startEvents
  | _ => []

/-- The next stage of the tick that has an event. -/
def State.nextStage (s : State) : Option Nat := (List.range 5).find? (fun n => decide (s.turn ≤ n) && !(s.stage n).isEmpty)

/-- The 64 slots of each of a tower's vaults in one tick (R198, R201, R202): at most S of each 64 are issued, and the others
stay empty; the ticks of a retired vault stay idle (R223). How many are issued is a free value
(notes/assumptions/80.md). -/
def State.slotCounts (s : State) (t : Nat) : State :=
  let live := ((List.range 32).filter (fun v => !s.retired (32 * t + v))).length
  let (v, s1) := s.fresh
  let n := v % (live * tierSlots s.tier + 1)
  (s1.count (512 + 32 * t + 13) n).count (512 + 32 * t + 14) (2048 - n)

/-- What a port counts in a tick: the ticks in UP, and from TRAIN onward the codewords that the FEC corrects, as many as a
free value says (notes/assumptions/80.md). -/
def State.portTick (s : State) (n : Nat) : State :=
  let s1 := if s.cwSt n = cwUp then s.count (portCnt n 12) 1 else s
  if [cwTrain, cwAuth, cwKeyed, cwUp].contains (s.cwSt n) then
    let (v, s2) := s1.fresh
    s2.count (portCnt n 4) v
  else s1

/-- The counters that count in every tick: the stalled ticks of each polder (R145), those of the level and the tier in force,
of the slots of each tower, and of each port. -/
def State.tickCounts (s : State) : State :=
  let s0 := s.runs.foldl (fun t r => t.countP r.owner 53 (r.steps.filter StepSt.stands).length) s
  let s1 := (s0.count (devCnt (17 + s.level % 4)) 1).count (devCnt (21 + s.tier % 4)) 1
  (List.range 12).foldl (fun t n => t.portTick n) ((List.range 8).foldl (fun t k => t.slotCounts k) s1)

/-- Time passes by `n` units of 1/39 ns on `DEV_NS`. -/
def State.passNs (s : State) (n : Nat) : State :=
  let x := s.nsPart + n
  { s with ns := s.ns + x / 39, nsPart := x % 39 }

/-- Time passes: a tick of CCLK where it runs, else 10 ns of the always-on island, else nothing. -/
def State.pass (s : State) : State :=
  if s.board.aon = false then s
  else if s.clockRuns then
    let s1 := s.tickCounts.passNs (tickLen s.level)
    let s2 : State := { s1 with tick := s1.tick + 1, turn := 0, lent := [] }
    let s2 : State := { s2 with
      ended := s2.ended.filter (fun r => decide (s2.tick < s2.plannedEnd r))
      runs := s2.runs.map (fun r => r.wake s2.tick) }
    { s2 with pending := s2.boundaryEvents }
  else s.l1Entry.passNs 390

/-- A step on an empty queue: the events of the next stage of the present tick are queued; when there is none, time
passes. -/
def State.idle (s : State) : State :=
  if s.clockRuns = false then s.pass else
  match s.nextStage with
  | some n => { s with turn := n + 1, pending := s.stage n }
  | none => s.pass

end Sys2Proof.Machine
end

