-- ==== Sys2Proof/Safety.lean ====
section
/-! DEFINITION. What the statements speak of: what a command answers, the canonical form of the memories, the invariant
of the part, and what a safe step is. -/

namespace Sys2Proof.Machine
open Sys2Proof

/-- Command `c` run on `s` answers the next state `t`. -/
def Runs (c : Instr) (s t : State) : Prop := exec c s = .next t

/-- Command `c` run on `s` answers a next state of which `P` holds. -/
def Ends (c : Instr) (s : State) (P : State → Prop) : Prop := ∃ t, exec c s = .next t ∧ P t

/-- Command `c` starts an operation of `total` parts on `s`: it runs, with nothing done yet. -/
def Starts (c : Instr) (s : State) (k : OpKind) (i total : Nat) : Prop :=
  Ends c s (fun t => ∃ o, t.op? k i = some o ∧ o.total = total ∧ o.done = 0 ∧ o.halted = false)

/-- A function reaches its owner page: the planes are READY, and a polder is not FREE (R57, R59). -/
def State.reaches (s : State) (fn : Fn) : Prop := s.ready = true ∧ (fn = .pf ∨ s.pst fn.idx ≠ pFree)

/-- Step `i` of run `id` runs on an engine of kind `e`, has met no failure, and may work in the present tick. -/
def StepReady (s : State) (id i : Nat) (e : Eng) (a : Act) : Prop :=
  s.act? id i = some a ∧ a.step.eng = some e ∧ a.run.late.any (fun x => x.1 == i) = false ∧ s.actWorks a = true

/-- The state in which an engine works on after a correctable error of its own storage was counted (R439). -/
def State.noted (s : State) (a : Act) : Flaw → State
  | .corrected => (match spineCnt a.step.lane with | some c => s.count (c + 6) 1 | none => s)
  | _ => s

/-- The Planisher of tower `t` runs program `p` for step `a`, which may work in the present tick, and its next instruction
is `w`, whose tick has come. -/
def PlReady (s : State) (t : Fin 8) (p : Pl) (w : Nat) (a : Act) : Prop :=
  SMap.get none s.pls t.val = some p ∧ s.workNow? p.run p.step = some a ∧ p.prog[p.pc]? = some w ∧ s.plDue a p = true

/-- The addressed memories of the part: the vaults together, and Mere (R192, R538). -/
abbrev Memory := SMap Byte

/-- The canonical form of a memory: rising addresses, and no byte listed that reads 0 anyway. -/
def Memory.wf (m : Memory) : Bool := SMap.wf 0 m

/-- The canonical form of both memories of the part. -/
def State.memWf (s : State) : Bool := Memory.wf s.vault && Memory.wf s.mere

/-- A step is safe when it neither faults nor is refused. -/
def StepSafe (s : State) : Prop := ∃ t, step s = .next t

/-- The Hallmark log of `t` extends that of `s`: nothing struck is ever taken back. -/
def LogGrows (s t : State) : Prop := s.bank.log <+: t.bank.log

end Sys2Proof.Machine

namespace Sys2Proof

/-- Messages that only ask for something. -/
def Instr.isQuery : Instr → Bool
  | .tdispGetTdispVersion _ | .tdispGetTdispCapabilities _ | .tdispGetDeviceIfState _ | .tdispGetDeviceIfReport _
  | .mctpGetEndpointId _ | .mctpGetVersionSupport _ | .mctpGetMessageTypeSupport | .pldmGetTid
  | .pldmGetPldmVersion _ | .pldmGetPldmTypes | .pldmGetPldmCommands _ | .pldmGetPdr _ | .pldmGetPdrRepositoryInfo
  | .pldmGetSensorReading _ | .pldmGetStateSensorReadings _ | .pldmQueryDeviceIdentifiers
  | .pldmGetFirmwareParameters | .pldmGetStatus | .spdmGetDigests _ | .spdmGetCertificate _ _ | .spdmChallenge _ _
  | .spdmGetMeasurements _ _ | .spdmHeartbeat _ _ | .spdmKeyUpdate _ _ _ _ => true
  | _ => false

/-- Commands that store no byte in vault memory or in Mere. -/
def Instr.storesNothing : Instr → Bool
  | .fenceRearm _ _ _ _ | .haspAcquire _ _ | .haspRelease _ _ | .linkEnable _ | .signalDetect _ | .seekRetry _
  | .trainComplete _ _ _ _ _ | .helloMismatch _ _ _ _ | .trainTimeout _ | .authTimeout _ | .spdmSessionEstablished _ _
  | .authFailure _ _ | .firstFlitVerified _ _ | .dataFlitReceived _ _ | .controlFlitIdle _ _
  | .controlFlitAck _ _ | .controlFlitNak _ _ | .controlFlitCredit _ _ | .fecBurst _ _ | .keepaliveSend _
  | .keepaliveMissing _ | .keyUpdate _ _ _ _ | .slowUpdate _ | .cwRetrain _ _ | .cwPortReset _ _ | .cwGntWrite _
  | .cwGntRevoke _ | .cwGntRead _ | .flitForward _ | .pwrReqLevel _ _ | .pwrReqStandby _ _ | .pwrReqRetain _ _
  | .pwrReqOff _ _ | .pwrReqActive _ _ | .standbyEntry | .wakeComplete | .offReadyEntry | .boardPowerReport _
  | .mbxGetInfo _ _ _ | .mbxStrike _ _ _ | .mbxAuthHold _ _ _ | .mbxLogRead _ _ _ | .mbxPackRead _ _ _
  | .mbxPatinaRead _ _ _ | .effecterMgcCeiling _ | .effecterLeaveRetain _ | .effecterResetScope _
  | .effecterPortEnable _ | .effecterFault _ | .nop _ | .loop _ | .clrf _ | .fadd _ _ | .fsub _ _ | .fmul _ _
  | .fma _ _ | .fmax _ _ | .fmin _ _ | .fabs _ _ | .fneg _ _ | .frcp _ _ | .frsq _ _ | .fexp2 _ _ | .flog2 _ _
  | .ftanh _ _ | .fsigm _ _ | .fcmp _ _ | .icmp _ _ | .mkand _ | .mkor _ | .mknot _ | .mkrange _ | .sel _ _
  | .mov _ _ | .iadd _ _ | .isub _ _ | .imul _ _ | .imax _ _ | .imin _ _ | .ishr _ _ | .cvtif _ _ | .cvtfi _ _
  | .qnt8 _ _ | .qnt4 _ _ | .qnt8s _ _ | .qnt4s _ _ | .frbf _ _ | .rsum _ _ | .rmax _ _ | .csum _ _ | .cmax _ _
  | .tdispGetTdispVersion _ | .tdispGetTdispCapabilities _ | .tdispGetDeviceIfState _ | .tdispGetDeviceIfReport _
  | .mctpGetEndpointId _ | .mctpGetVersionSupport _ | .mctpGetMessageTypeSupport | .pldmGetTid
  | .pldmGetPldmVersion _ | .pldmGetPldmTypes | .pldmGetPldmCommands _ | .pldmGetPdr _ | .pldmGetPdrRepositoryInfo
  | .pldmGetSensorReading _ | .pldmGetStateSensorReadings _ | .pldmQueryDeviceIdentifiers
  | .pldmGetFirmwareParameters | .pldmGetStatus | .spdmGetDigests _ | .spdmGetCertificate _ _ | .spdmChallenge _ _
  | .spdmGetMeasurements _ _ | .spdmHeartbeat _ _ | .spdmKeyUpdate _ _ _ _ => true
  | _ => false

end Sys2Proof
end

