-- ==== Sys2Proof/WellFormed.lean ====
section
/-! DEFINITION. Well-formed commands: each operand fits the field, the page or the message that carries it. `exec` gives
every command its meaning, well-formed or not; a sender has no way to send an ill-formed one. -/

namespace Sys2Proof

/-- Pages of a function's BAR0 and BAR2 (spec/03_register_pages.md, Table — BARs). -/
def Fn.pages : Fn → Nat
  | .pf => 1024
  | .vf _ => 256

/-- Bytes of a function's BAR4. -/
def Fn.bar4 : Fn → Nat
  | .pf => 16384
  | .vf _ => 8192

/-- A fence index fits the FENCE field of a command register: 17 bits. -/
def fenceFits (f : Option Nat) : Bool := f.all (fun i => decide (i < 2 ^ 17))

/-- A fence index fits the FENCE field of `PLD_CMD`: 16 bits. -/
def fenceFits16 (f : Option Nat) : Bool := f.all (fun i => decide (i < 2 ^ 16))

/-- A hash of 48 bytes, keys of 32 bytes and salts of 4. -/
def Session.fits (x : Session) : Bool :=
  decide (x.anchor.length = 48) && decide (x.txKey.length = 32) && decide (x.rxKey.length = 32) &&
  decide (x.txSalt.length = 4) && decide (x.rxSalt.length = 4)

/-- Is a command well-formed? -/
def Instr.wf : Instr → Bool
  | .doorbellWrite fn page off data => decide (page < fn.pages) && decide (off + data.length ≤ 4096)
  | .deferredCheckComplete _ => true
  | .stagingStart _ => true
  | .stagingComplete _ _ => true
  | .stagingReadFailed _ _ => true
  | .fenceRearm _ _ _ _ => true
  | .registerWrite fn _ page off data => decide (page < fn.pages) && decide (off + data.length ≤ 4096)
  | .bar4Access fn _ off data => decide (off + data.length ≤ fn.bar4)
  | .haspAcquire _ _ => true
  | .haspRelease _ _ => true
  | .pldCreate _ _ fence => fenceFits16 fence
  | .pldActivate _ _ fence => fenceFits16 fence
  | .pldDestroy _ _ fence => fenceFits16 fence
  | .pldZero _ _ fence => fenceFits16 fence
  | .pldAbort _ _ fence => fenceFits16 fence
  | .pldAssign _ _ _ index count _ => decide (index < 2 ^ 24) && decide (count < 2 ^ 24)
  | .pldRelease _ _ _ index count => decide (index < 2 ^ 24) && decide (count < 2 ^ 24)
  | .polderDrainComplete _ => true
  | .polderClearingDone _ => true
  | .polderZeroingComplete _ => true
  | .resourceZeroingDone => true
  | .mgcZeroOrder _ => true
  | .tdispGetTdispVersion _ => true
  | .tdispGetTdispCapabilities _ => true
  | .tdispLockInterfaceRequest _ _ => true
  | .tdispGetDeviceIfReport _ => true
  | .tdispGetDeviceIfState _ => true
  | .tdispStartInterfaceRequest _ => true
  | .tdispStopInterfaceRequest _ => true
  | .ideFailure _ => true
  | .ctxReset _ _ => true
  | .fncBlockReset _ _ fence => fenceFits fence
  | .msixCoalesceTimeout _ => true
  | .mobWrite _ slot fence => decide (slot < 2 ^ 16) && fenceFits fence
  | .mobClear _ slot fence => decide (slot < 2 ^ 16) && fenceFits fence
  | .mobResume _ fence => fenceFits fence
  | .mobAbort _ fence => fenceFits fence
  | .fltRetry _ _ id _ => decide (id < 2 ^ 16)
  | .fltRetryAll _ _ _ => true
  | .fltFail _ _ id => decide (id < 2 ^ 16)
  | .faultFill _ id _ => decide (id < 2 ^ 16)
  | .faultAllowanceExpiry _ => true
  | .invInvalidate _ _ pages fence => decide (pages < 2 ^ 36) && fenceFits fence
  | .invResume _ _ fence => fenceFits fence
  | .invAbort _ _ fence => fenceFits fence
  | .invDrainEnd _ => true
  | .longOpStep _ _ _ => true
  | .plnLoad _ fence _ _ => fenceFits fence
  | .plnUnload _ fence => fenceFits fence
  | .plnResume _ fence => fenceFits fence
  | .plnAbort _ fence => fenceFits fence
  | .rvLoad _ fence _ _ => fenceFits fence
  | .rvCommit _ _ fence => fenceFits fence
  | .rvResume _ fence => fenceFits fence
  | .rvAbort _ fence => fenceFits fence
  | .rvDiscard _ fence => fenceFits fence
  | .frameBoundary => true
  | .samplePoint => true
  | .firstFrameStart => true
  | .levelApplyNoFrame => true
  | .tierApplyNoFrame => true
  | .admissionWindow _ _ => true
  | .admissionTimeout _ => true
  | .stepStart _ _ => true
  | .stepComplete _ _ => true
  | .stepDeadline _ _ => true
  | .runRelease _ => true
  | .punchHash _ _ _ => true
  | .gatherPool _ _ _ => true
  | .ladleCopy _ _ _ => true
  | .ladleFill _ _ _ => true
  | .ladleZero _ _ _ => true
  | .ladleLoad _ _ _ => true
  | .outputWrite _ _ => true
  | .anvilInteger _ _ _ _ => true
  | .anvilExpand _ _ _ => true
  | .anvilProductTable _ _ _ => true
  | .anvilTilePush _ => true
  | .planisherPrologue _ _ => true
  | .nop _ => true
  | .loop _ => true
  | .clrf _ => true
  | .stf _ => true
  | .ldF32 _ _ => true
  | .ldBf16 _ _ => true
  | .ldQ8 _ _ => true
  | .ldQ4 _ _ => true
  | .ldE4m3 _ _ => true
  | .ldE5m2 _ _ => true
  | .stF32 _ _ => true
  | .stBf16 _ _ => true
  | .stQ8 _ _ => true
  | .stQ4 _ _ => true
  | .stE4m3 _ _ => true
  | .stE5m2 _ _ => true
  | .pop _ _ => true
  | .fadd _ _ => true
  | .fsub _ _ => true
  | .fmul _ _ => true
  | .fma _ _ => true
  | .fmax _ _ => true
  | .fmin _ _ => true
  | .fabs _ _ => true
  | .fneg _ _ => true
  | .frcp _ _ => true
  | .frsq _ _ => true
  | .fexp2 _ _ => true
  | .flog2 _ _ => true
  | .ftanh _ _ => true
  | .fsigm _ _ => true
  | .fcmp _ _ => true
  | .icmp _ _ => true
  | .mkand _ => true
  | .mkor _ => true
  | .mknot _ => true
  | .mkrange _ => true
  | .sel _ _ => true
  | .mov _ _ => true
  | .iadd _ _ => true
  | .isub _ _ => true
  | .imul _ _ => true
  | .imax _ _ => true
  | .imin _ _ => true
  | .ishr _ _ => true
  | .cvtif _ _ => true
  | .cvtfi _ _ => true
  | .qnt8 _ _ => true
  | .qnt4 _ _ => true
  | .qnt8s _ _ => true
  | .qnt4s _ _ => true
  | .frbf _ _ => true
  | .rsum _ _ => true
  | .rmax _ _ => true
  | .csum _ _ => true
  | .cmax _ _ => true
  | .windowRead _ _ _ _ => true
  | .appendHistory _ _ _ _ => true
  | .appendBeam _ _ _ => true
  | .evict _ _ _ _ => true
  | .tarnPin _ _ _ _ => true
  | .tarnUnpin _ _ _ _ => true
  | .riddleTopk _ _ _ => true
  | .riddleBeam _ _ _ => true
  | .solderUpdate _ _ => true
  | .updateAssign _ _ => true
  | .updateAdd _ _ => true
  | .updateSgd _ _ => true
  | .updateAdagradRow _ _ => true
  | .remoteGather _ _ => true
  | .remotePush _ _ => true
  | .remoteDeadline _ _ => true
  | .tblWrite _ _ fence _ _ => fenceFits fence
  | .tblClear _ _ fence => fenceFits fence
  | .tblResume _ fence => fenceFits fence
  | .tblAbort _ fence => fenceFits fence
  | .hmkPin _ _ fence => fenceFits fence
  | .hmkUnpin _ _ fence => fenceFits fence
  | .hmkUnpinAll _ fence => fenceFits fence
  | .hmkResume _ fence => fenceFits fence
  | .hmkAbort _ fence => fenceFits fence
  | .sketchHalving => true
  | .epPublish _ fence => fenceFits fence
  | .epAbandon _ fence => fenceFits fence
  | .epResume _ fence => fenceFits fence
  | .epAbort _ fence => fenceFits fence
  | .tempSample readings _ => decide (readings.length = 8)
  | .advisoryHoldoffEnd => true
  | .thermalTrip _ => true
  | .twrRetire _ _ _ fence => fenceFits fence
  | .twrRepair _ _ _ fence => fenceFits fence
  | .twrResume _ _ fence => fenceFits fence
  | .twrAbort _ _ fence => fenceFits fence
  | .backgroundTick _ output => decide (output.length ≤ 262144)
  | .asyLoad _ fence _ _ => fenceFits fence
  | .asySweep _ fence => fenceFits fence
  | .asyTest _ block inst fence => decide (block < 2 ^ 16) && decide (inst < 2 ^ 8) && fenceFits fence
  | .assaySweepInterval => true
  | .patinaSample ro _ _ _ => decide (ro.length ≤ 256)
  | .dailyPoint => true
  | .dumpWrite => true
  | .linkEnable _ => true
  | .signalDetect _ => true
  | .seekRetry _ => true
  | .trainComplete _ _ _ _ _ => true
  | .helloMismatch _ _ _ _ => true
  | .trainTimeout _ => true
  | .authTimeout _ => true
  | .spdmSessionEstablished _ x => x.fits
  | .authFailure _ x => x.fits
  | .firstFlitVerified _ b => decide (b.length = 256)
  | .dataFlitReceived _ b => decide (b.length = 256)
  | .controlFlitIdle _ b => decide (b.length = 256)
  | .controlFlitAck _ b => decide (b.length = 256)
  | .controlFlitNak _ b => decide (b.length = 256)
  | .controlFlitCredit _ b => decide (b.length = 256)
  | .fecBurst _ _ => true
  | .keepaliveSend _ => true
  | .keepaliveMissing _ => true
  | .keyUpdate _ _ key salt => decide (key.length = 32) && decide (salt.length = 4)
  | .slowUpdate _ => true
  | .cwRetrain _ _ => true
  | .cwPortReset _ _ => true
  | .cwTrustLoad _ _ _ _ => true
  | .cwGntWrite _ => true
  | .cwGntRevoke _ => true
  | .cwGntRead _ => true
  | .flitForward _ => true
  | .requestIngress _ => true
  | .requestServiceComplete _ tag _ => decide (tag < 2 ^ 32)
  | .responseReceived _ => true
  | .pwrReqLevel _ _ => true
  | .pwrReqStandby _ _ => true
  | .pwrReqRetain _ _ => true
  | .pwrReqOff _ _ => true
  | .pwrReqActive _ _ => true
  | .standbyEntry => true
  | .wakeComplete => true
  | .retainEntry => true
  | .offReadyEntry => true
  | .railRemoval => true
  | .retainExit => true
  | .railOkRise => true
  | .boardPowerReport _ => true
  | .coldReset => true
  | .warmReset => true
  | .warmReady => true
  | .perstNAssert => true
  | .hotReset => true
  | .pfFlr => true
  | .vfFlr _ => true
  | .rstCmdScope _ _ => true
  | .rstCmdMgc _ _ => true
  | .mgcWatchdogExpiry => true
  | .rstEngine _ block inst fence => decide (block < 2 ^ 16) && decide (inst < 2 ^ 8) && fenceFits fence
  | .mgcBoot _ _ => true
  | .mbxGetInfo _ len _ => decide (len < 2 ^ 16)
  | .mbxStrike _ len _ => decide (len < 2 ^ 16)
  | .mbxAuthHold _ len _ => decide (len < 2 ^ 16)
  | .mbxLogRead _ len _ => decide (len < 2 ^ 16)
  | .mbxPackRead _ len _ => decide (len < 2 ^ 16)
  | .mbxPatinaRead _ len _ => decide (len < 2 ^ 16)
  | .effecterMgcCeiling value => decide (value < 2 ^ 8)
  | .effecterLeaveRetain state => decide (state < 2 ^ 8)
  | .effecterResetScope state => decide (state < 2 ^ 8)
  | .effecterPortEnable states => states.all (fun x => x.all (fun v => decide (v < 2 ^ 8)))
  | .effecterZeroOrder states => states.all (fun x => x.all (fun v => decide (v < 2 ^ 8)))
  | .effecterFault state => decide (state < 2 ^ 8)
  | .mctpSetEndpointId _ op eid => decide (op < 4) && decide (eid < 2 ^ 8)
  | .mctpGetEndpointId _ => true
  | .mctpGetVersionSupport type => decide (type < 2 ^ 8)
  | .mctpGetMessageTypeSupport => true
  | .pldmGetTid => true
  | .pldmSetTid tid => decide (tid < 2 ^ 8)
  | .pldmGetPldmVersion type => decide (type < 2 ^ 8)
  | .pldmGetPldmTypes => true
  | .pldmGetPldmCommands type => decide (type < 2 ^ 8)
  | .pldmGetPdr handle => decide (handle < 2 ^ 32)
  | .pldmGetPdrRepositoryInfo => true
  | .pldmGetSensorReading id => decide (id < 2 ^ 16)
  | .pldmGetStateSensorReadings id => decide (id < 2 ^ 16)
  | .pldmSetEventReceiver receiver => receiver.all (fun r => decide (r < 2 ^ 8))
  | .pldmQueryDeviceIdentifiers => true
  | .pldmGetFirmwareParameters => true
  | .pldmRequestUpdate maxTransfer => decide (maxTransfer < 2 ^ 32)
  | .pldmPassComponentTable comp _ => decide (comp < 2 ^ 16)
  | .pldmUpdateComponent comp size => decide (comp < 2 ^ 16) && decide (size < 2 ^ 32)
  | .pldmRequestFirmwareData bytes => decide (bytes.length ≤ 512)
  | .pldmTransferComplete => true
  | .pldmVerifyComplete _ svn version => decide (svn < 2 ^ 32) && decide (version < 2 ^ 32)
  | .pldmApplyComplete => true
  | .pldmActivateFirmware _ => true
  | .pldmGetStatus => true
  | .pldmCancelUpdateComponent => true
  | .pldmCancelUpdate => true
  | .spdmGetVersion _ => true
  | .spdmGetCapabilities _ => true
  | .spdmNegotiateAlgorithms _ asym hash dhe aead => decide (asym < 2 ^ 32) && decide (hash < 2 ^ 32) && decide (dhe < 2 ^ 16) && decide (aead < 2 ^ 16)
  | .spdmGetDigests _ => true
  | .spdmGetCertificate _ slot => decide (slot < 16)
  | .spdmChallenge _ slot => decide (slot < 16)
  | .spdmGetMeasurements _ index => decide (index < 2 ^ 8)
  | .spdmKeyExchange _ slot sid => decide (slot < 16) && decide (sid < 2 ^ 32)
  | .spdmFinish _ sid _ => decide (sid < 2 ^ 32)
  | .spdmHeartbeat _ sid => decide (sid < 2 ^ 32)
  | .spdmKeyUpdate _ sid op tag => decide (sid < 2 ^ 32) && decide (op < 2 ^ 8) && decide (tag < 2 ^ 8)
  | .spdmEndSession _ sid => decide (sid < 2 ^ 32)
  | .vddAonPowerUp => true
  | .pwrGoodRise _ => true
  | .pwrGoodFall => true
  | .perstNRelease => true
  | .planesStart => true
  | .stackTrainDone _ => true
  | .trainAttemptTimeout _ => true
  | .coldZeroDone => true
  | .startTimeout => true
  | .pmxWrite _ _ _ => true
  | .parkEnd _ => true
  | .frameSyncInEdge => true
  | .powerRemoval => true
  | .badSizeRead fn _ page off size => decide (page < fn.pages) && decide (off + size ≤ 4096)

end Sys2Proof
end

