-- ==== Sys2Proof/Certificates/Slice0/Obligations.lean ====
section
/-! DEFINITION. The statements about the model, for the provers. `Runs c s t` says that command c on state s answers the
next state t, and `Ends c s P` that it answers one of which P holds (Sys2Proof/Safety.lean). Each docstring names the rules
of spec/ that it follows. -/

open Sys2Proof Sys2Proof.Machine

/-- The front command of the queue is what a step runs, with the rest of the queue waiting; nothing is added around it. -/
def Obligations.StepRunsTheFrontCommand : Prop :=
  ∀ (c : Instr) (rest : List Instr) (s : State), s.pending = c :: rest → step s = exec c { s with pending := rest }

/-- No command, well-formed or not, ends in a fault or a refusal, in any state: every condition of the spec is a next
state. -/
def Obligations.EveryCommandAnswersANextState : Prop :=
  ∀ (c : Instr) (s : State), Ends c s (fun _ => True)

/-- A run block that passes the acceptance checks 1 to 4 (R90): the fence becomes HELD by the new run, the block counts,
and the new run, on the queue that the page names, goes on to the checks 5 to 8. -/
def Obligations.RunBlockTakesItsFence : Prop :=
  ∀ (s : State) (fn : Fn) (page off q f : Nat) (data : List Byte),
    s.ready = true → s.queueAt fn page = some q → s.ownerOf .queue q = fn.idx →
    data.length = 64 → off % 64 = 0 → 0x400 ≤ off → off < 0x1000 →
    s.ctxOpen fn.idx (s.rd F.Q_CFG_CTX q) = true →
    s.fenceGlobal fn.idx (numAt data 24 8 % 2 ^ 17) = some f →
    s.inWindow (s.rd F.Q_CFG_CTX q) (numAt data 24 8 % 2 ^ 17) = true → s.fence f = .armed →
    ∃ r : Run, r.id = s.nextRun ∧ r.owner = fn.idx ∧ r.queue = q ∧ r.fence = f ∧ r.phase = .queued ∧
      r.lode = numAt data 0 8 % 2 ^ 12 ∧ r.accepted = s.tick ∧
      Runs (.doorbellWrite fn page off data) s
        (State.acceptRun (((({ s with
          fences := SMap.put .armed s.fences f (.held (.run s.nextRun)) } : State).count (devCnt 0) 1).countP fn.idx 0 1)) r)

/-- A write that reaches a doorbell area and is no whole aligned 64-byte request is dropped whole, with reason 1 (R115). -/
def Obligations.TornDoorbellWriteIsDroppedWhole : Prop :=
  ∀ (s : State) (fn : Fn) (page off q : Nat) (data : List Byte),
    s.ready = true → s.queueAt fn page = some q → s.ownerOf .queue q = fn.idx →
    0x400 < off + data.length → off < 0x1000 → (data.length ≠ 64 ∨ off % 64 ≠ 0 ∨ off < 0x400) →
    Runs (.doorbellWrite fn page off data) s (s.dropBlock q 1 0 0)

/-- The remaining checks and the staging of a queued run complete: deferred checks once no hold covers its ranges (R152),
the start of staging when the payload fits (R118), its end (R121) and its failure (R120). -/
def Obligations.StagingAndDeferredChecksComplete : Prop :=
  (∀ (s s' : State) (id : Nat) (r : Run) (p : Plan) (l : Lode),
    s.run? id = some r → r.deferred = true → s.planOf r.owner = some p → p.lode r.lode = some l →
    s.deferred8 r.ctx p l = false → s.check8 r p l = (s', none) → s'.check7 r l = none →
    Runs (.deferredCheckComplete id) s (s'.holdBerths r)) ∧
  (∀ (s : State) (fn : Fn) (r : Run),
    s.runs.find? (fun r => r.owner == fn.idx && r.staging == .waiting) = some r →
    s.stageUsed fn.idx + ceilDiv (s.stageLen r) 256 * 256 ≤ 2 ^ 20 → s.bme fn.idx = true →
    Runs (.stagingStart fn) s
      ((s.setRun { r with staging := .reading, stageN := s.stageLen r
                          reserve := ceilDiv (s.stageLen r) 256 * 256 }).hostRead fn.idx
        (s.berthAddr fn.idx r.inRef + 16) (s.stageLen r))) ∧
  (∀ (s : State) (id : Nat) (r : Run) (data : List Byte),
    s.run? id = some r → r.staging = .reading → r.inHeld = true →
    Runs (.stagingComplete id data) s
      ((((s.header0 r.owner r.inRef ownHost r.stageN).setRun
        { r with staging := .done, staged := slice data 0 r.stageN, inHeld := false }).count (devCnt 10)
          (ceilDiv r.stageN 64)).countP r.owner 4 (ceilDiv r.stageN 64))) ∧
  (∀ (s : State) (id : Nat) (r : Run) (how : Cpl), s.run? id = some r → r.staging = .reading →
    (how = .notIssued → Runs (.stagingReadFailed id how) s
      (State.failRun (s.modRun id (fun x => { x with staging := .none })) id .poison)) ∧
    (how ≠ .ok → how ≠ .notIssued → Runs (.stagingReadFailed id how) s
      (State.failRun ((s.emit (.aer r.owner how)).modRun id (fun x => { x with staging := .none })) id .poison)))

/-- A write with bit 0 = 0 to the word of a SIGNALLED fence re-arms it and changes nothing else; a write to a HELD fence word
is ignored, and counted in the queue of the run that holds it; a write with bit 0 = 1, or to an ARMED fence, is ignored
(R95). -/
def Obligations.RearmOfAFence : Prop :=
  (∀ (s : State) (fn : Fn) (block : Fin 128) (word : Fin 512) (data : Word) (f t : Nat) (e : Option Err),
    s.ready = true → s.fenceGlobal fn.idx (512 * block.val + word.val) = some f → data.toNat % 2 = 0 →
    s.fence f = .signalled e t →
    Ends (.fenceRearm fn block word data) s (fun u =>
      u.fence f = .armed ∧ (u.fence f).word = 0 ∧ (∀ g, g ≠ f → u.fence g = s.fence g) ∧ { u with fences := s.fences } = s)) ∧
  (∀ (s : State) (fn : Fn) (block : Fin 128) (word : Fin 512) (data : Word) (f id : Nat) (r : Run),
    s.ready = true → s.fenceGlobal fn.idx (512 * block.val + word.val) = some f → data.toNat % 2 = 0 →
    s.fence f = .held (.run id) → s.run? id = some r →
    Runs (.fenceRearm fn block word data) s (s.bump F.Q_STATUS_REARM_IGNORED r.queue 1)) ∧
  (∀ (s : State) (fn : Fn) (block : Fin 128) (word : Fin 512) (data : Word) (f : Nat),
    s.ready = true → s.fenceGlobal fn.idx (512 * block.val + word.val) = some f →
    data.toNat % 2 = 1 ∨ s.fence f = .armed ∨ (∃ op, s.fence f = .held (.cmd op)) → Runs (.fenceRearm fn block word data) s s)

/-- A register write by a function that may write the page. A whole register, or one half of it, with legal values on a page
that TDISP has not locked: every field takes what its access type and the lock leave it, and the register's own effect
follows (R44, R46, R51); an access of several registers writes them in ascending address order, and a FENCE state page takes
re-arm writes (R46, R95). A BAR4 access of 4 or 8 aligned bytes reads or writes the MSI-X table and reads the PBA; any other
one returns 0 or is ignored (R534). A register read of a size or alignment that Table — Access sizes marks BAD_SIZE returns 0
and is recorded on the page addressed (R48). -/
def Obligations.AccessesArePerformedOrNot : Prop :=
  (∀ (s s1 : State) (fn : Fn) (bar2 : Bool) (page off inst i : Nat) (b : Block) (data : List Byte) (r : Reg) (w : WordWrite),
    s.pageAt fn bar2 page = some (.regs b inst) → s.writesPage fn b inst = true →
    (b = .queue → off + data.length ≤ 0x400) → off + data.length ≤ 4096 →
    ((data.length = 8 ∧ off % 8 = 0 ∧ w = { value := numAt data 0 8, lo := true, hi := true }) ∨
      (data.length = 4 ∧ off % 8 = 0 ∧ w = { value := numAt data 0 4, lo := true, hi := false }) ∨
      (data.length = 4 ∧ off % 8 = 4 ∧ w = { value := numAt data 0 4 * 2 ^ 32, lo := false, hi := true })) →
    reservedOff b inst (off - off % 8) = false → regAt b (off - off % 8) = some (r, i) → r.own = false →
    (r.atomic64 = true → data.length = 8) →
    (b = .polder → s.tdisp inst ≠ 1 ∧ s.tdisp inst ≠ 2) →
    (∀ f ∈ r.fields, f.isLegal (s.mergedField w inst i f) = true) →
    s.regOk fn.idx b inst r.off i (s.mergedField w inst i) = true →
    (∀ f ∈ r.fields, s.rd (F.PG_CTRL_LOCK.on b) inst = 1 → s.lockHit w b inst i f = false) →
    s1 = r.fields.foldl (fun t f => t.writeField w b inst i (s.rd (F.PG_CTRL_LOCK.on b) inst == 1) f) s →
    Runs (.registerWrite fn bar2 page off data) s
      (if off - off % 8 = 0x020 then s1.rearmErr b inst else s1.afterWrite s b inst r.off i)) ∧
  (∀ (s : State) (fn : Fn) (bar2 : Bool) (page off n : Nat) (data : List Byte), accessShape off data.length = .words n →
    (∀ b inst, s.pageAt fn bar2 page = some (.regs b inst) → s.writesPage fn b inst = true →
      (b = .queue → off + data.length ≤ 0x400) →
      Runs (.registerWrite fn bar2 page off data) s (State.writeWords fn.idx b inst data n off s)) ∧
    (∀ b, s.pageAt fn bar2 page = some (.fences b) →
      Runs (.registerWrite fn bar2 page off data) s
        (State.rearmWords fn (s.localOf .fenceBlock b) data n (off / 8) s))) ∧
  (∀ (s : State) (fn : Fn) (off : Nat) (data : List Byte) (tbl pba len : Nat), bar4Shape fn.idx = (tbl, pba, len) →
    (data.length = 4 ∨ data.length = 8) → off % data.length = 0 →
    (off + data.length ≤ tbl → data.length = 4 →
      Runs (.bar4Access fn true off data) s (s.msixWrite fn.idx (off / 4) (numAt data 0 4))) ∧
    (off + data.length ≤ tbl → data.length = 8 →
      Runs (.bar4Access fn true off data) s
        ((s.msixWrite fn.idx (off / 4) (numAt data 0 4)).msixWrite fn.idx (off / 4 + 1) (numAt data 4 4))) ∧
    (pba ≤ off → off + data.length ≤ pba + len → Runs (.bar4Access fn true off data) s s) ∧
    ((off + data.length ≤ tbl ∨ (pba ≤ off ∧ off + data.length ≤ pba + len)) →
      Runs (.bar4Access fn false off data) s (s.emit (.ret fn.idx (s.bar4Read fn.idx off data.length))))) ∧
  (∀ (s : State) (fn : Fn) (off : Nat) (data : List Byte), (data.length ≠ 4 ∧ data.length ≠ 8) ∨ off % data.length ≠ 0 →
    Runs (.bar4Access fn true off data) s s ∧ Runs (.bar4Access fn false off data) s (s.emit (.ret fn.idx 0))) ∧
  (∀ (s : State) (fn : Fn) (bar2 : Bool) (page off size inst : Nat) (b : Block),
    s.pageAt fn bar2 page = some (.regs b inst) → s.hiddenPage fn (.regs b inst) = false → (b = .queue → off < 0x400) →
    accessShape off size = .bad →
    Runs (.badSizeRead fn bar2 page off size) s ((s.emit (.ret fn.idx 0)).pageErr b inst off .badSize))

/-- What a write leaves of one field, by its access type (R44): an RW field takes the written bits, an RO and a WO field
keep theirs, a W1C field loses the bits written 1 and a W1S field gains them. -/
def Obligations.FieldWritesFollowTheirAccessType : Prop :=
  ∀ (s : State) (v inst i : Nat) (b : Block) (f : Fld), 0 < f.width → f.lo + f.width ≤ 64 →
    s.rdi f inst i < 2 ^ f.width →
    let w : WordWrite := { value := v % 2 ^ 64, lo := true, hi := true }
    (f.acc = .rw → s.takesWrite b inst f = true → (s.writeField w b inst i false f).rdi f inst i = bitsOf v f.lo f.width) ∧
    (f.acc = .ro → s.writeField w b inst i false f = s) ∧
    (f.acc = .w1c → ∀ k, k < f.width → bitAt ((s.writeField w b inst i false f).rdi f inst i) k =
      (bitAt (s.rdi f inst i) k && !bitAt v (f.lo + k))) ∧
    (f.acc = .w1s → ∀ k, k < f.width → bitAt ((s.writeField w b inst i false f).rdi f inst i) k =
      (bitAt (s.rdi f inst i) k || bitAt v (f.lo + k)))

/-- A read of a FREE hasp's ACQUIRE register gives it to the reader, whose identity and ACQUIRED are returned; a release
by the holder frees it (R422, R423). A hasp that another agent holds stays with it: an acquire returns the holder's
identity and BUSY (R422), and a release by another agent is ignored (R426). -/
def Obligations.HaspAcquireAndRelease : Prop :=
  (∀ (s : State) (who : Agent) (n : Fin 64), s.haspReach who = true → s.hspState n.val = hspFree →
    Runs (.haspAcquire who n) s ((s.setHasp n.val hspHeld (s.identity who)).haspReturn who (s.identity who) 1)) ∧
  (∀ (s : State) (who : Agent) (n : Fin 64), s.haspReach who = true → s.hspState n.val = hspHeld →
    s.hspIdent n.val = s.identity who →
    Runs (.haspRelease who n) s (s.setHasp n.val hspFree noHolder)) ∧
  (∀ (s : State) (who : Agent) (n : Fin 64), s.haspReach who = true → s.hspState n.val = hspHeld →
    s.hspIdent n.val ≠ s.identity who →
    Runs (.haspAcquire who n) s (s.haspReturn who (s.hspIdent n.val) 0) ∧ Runs (.haspRelease who n) s s)


/-- The commands of `PLD_CMD`, with or without a fence, in every state (R66, R71): each one in the states that Table — Polder
states lists for it, with LAST_STATUS OK and its fence signalled where it completes at once; in every other state nothing but
LAST_STATUS changes, to BUSY or BAD_STATE. A ZERO that would resume while the power state is not ACTIVE is illegal
(R430). -/
def Obligations.PolderCommandsComplete : Prop :=
  (∀ (s : State) (p : Fin 16) (fe : Option Nat), s.ready = true → s.pst p.val = pFree →
    ∃ u : State, Runs (.pldCreate .pf p fe) s (u.doneFence 16 fe ⟨.pld, p.val⟩ none) ∧ u.pst p.val = pConfiguring ∧
      u.rd F.PLD_STATE_GEN p.val = (s.rd F.PLD_STATE_GEN p.val + 1) % 2 ^ 16 ∧ u.rd F.PLD_STATE_LAST_STATUS p.val = pldOk ∧
      u.rd F.PLD_CFG_MODE p.val = 0 ∧ u.rd F.PLD_CFG_SCRUB_ON_FLR p.val = 0 ∧ u.rd F.PLD_CFG_CNT_VIS p.val = 0) ∧
  (∀ (s : State) (p : Fin 16) (fe : Option Nat), s.ready = true → s.pst p.val = pConfiguring → s.receiving p.val = false →
    ∃ u : State, Runs (.pldActivate .pf p fe) s (u.doneFence 16 fe ⟨.pld, p.val⟩ none) ∧ u.pst p.val = pActive ∧
      (u.aux p.val).waitBoundary = true ∧ u.rd F.PLD_STATE_LAST_STATUS p.val = pldOk) ∧
  (∀ (s : State) (p : Fin 16) (fe : Option Nat), s.ready = true → s.pst p.val = pConfiguring →
    Ends (.pldDestroy .pf p fe) s (fun t => t.pst p.val = pZeroing ∧ t.rd F.PLD_STATE_LAST_STATUS p.val = pldOk ∧
      t.opBusy .pld p.val = true)) ∧
  (∀ (s : State) (p : Fin 16) (fe : Option Nat), s.ready = true → s.pst p.val = pActive →
    Ends (.pldDestroy .pf p fe) s (fun t => t.pst p.val = pDraining ∧ t.rd F.PLD_STATE_LAST_STATUS p.val = pldOk ∧
      t.opBusy .pld p.val = true)) ∧
  (∀ (s s1 : State) (p : Fin 16) (fe f : Option Nat) (o : LongOp), s.ready = true → s.zeroOn p.val = some o →
    o.halted = true → s.pwrActive = true → s.takeFence 16 fe ⟨.pld, p.val⟩ = (f, s1) →
    Runs (.pldZero .pf p fe) s
      ((s1.setOp { o with halted := false, fences := f.toList ++ o.fences, last := f }).pldStatus p.val pldOk)) ∧
  (∀ (s : State) (p : Fin 16) (fe : Option Nat) (o : LongOp), s.ready = true → s.zeroOn p.val = some o →
    o.halted = false → s.pst p.val = pResetting ∨ s.pst p.val = pZeroing →
    Runs (.pldAbort .pf p fe) s ((((s.setOp { o with
        halted := true, fences := o.fences.filter (fun f => o.last != some f), last := none }).pldStatus p.val
          pldOk).signalOpt o.last (some .aborted)).doneFence 16 fe ⟨.pld, p.val⟩ none)) ∧
  (∀ (s : State) (p : Fin 16) (fe : Option Nat), s.ready = true →
    (s.pst p.val ≠ pFree → Runs (.pldCreate .pf p fe) s (s.pldStatus p.val pldBadState)) ∧
    (s.pst p.val = pConfiguring → s.receiving p.val = true → Runs (.pldActivate .pf p fe) s (s.pldStatus p.val pldBusy)) ∧
    (s.pst p.val ≠ pConfiguring → Runs (.pldActivate .pf p fe) s (s.pldStatus p.val pldBadState)) ∧
    (s.pst p.val ≠ pConfiguring → s.pst p.val ≠ pActive →
      Runs (.pldDestroy .pf p fe) s (s.pldStatus p.val pldBadState)) ∧
    (∀ o, s.zeroOn p.val = some o → o.halted = false → Runs (.pldZero .pf p fe) s (s.pldStatus p.val pldBusy)) ∧
    (s.zeroOn p.val = none → Runs (.pldZero .pf p fe) s (s.pldStatus p.val pldBadState) ∧
      Runs (.pldAbort .pf p fe) s (s.pldStatus p.val pldBadState)) ∧
    (∀ o, s.zeroOn p.val = some o → o.halted = true → s.pwrActive = false →
      Runs (.pldZero .pf p fe) s (s.illegal .polder p.val 0x040)) ∧
    (∀ o, s.zeroOn p.val = some o → o.halted = true ∨ (s.pst p.val ≠ pResetting ∧ s.pst p.val ≠ pZeroing) →
      Runs (.pldAbort .pf p fe) s (s.pldStatus p.val pldBadState)))

/-- `PLD_ASSIGN` passes an object of the PF of any kind to a polder under its lowest free local index, and an object of the
polder back: an extent that is clean goes to the PF, another one is zeroed first (R56, R64, R65, R68, R69, R543). Several
objects pass in ascending order until one fails, whose status and the number passed are shown (R68). -/
def Obligations.AssignAndReleasePassOneObject : Prop :=
  (∀ (s t : State) (p : Fin 16) (k : ObjKind) (i : Nat) (ctx : Fin 256), s.ready = true →
    s.pst p.val = pConfiguring ∨ s.pst p.val = pActive → s.tdisp p.val ≠ 1 → s.tdisp p.val ≠ 2 →
    i < objCount k → (k = .queue → s.ownerOf .context ctx.val = p.val) → s.ownerOf k i = 16 →
    (s.heldBy p.val k).length < objLimit k →
    (k = .extent → s.extentInSet p.val i = true ∧ s.extentRetired i = false ∧ s.zeroPending (.extent i) = false ∧
      s.isClean (.extent i) = true) →
    t = (s.clearObject k i).setOwner k i p.val (s.freeLocal p.val k) →
    Runs (.pldAssign .pf p k i 1 ctx) s
      (((if k = .queue then t.wr F.Q_CFG_CTX i ctx.val else t).wr F.PLD_ASSIGN_STATUS_STATUS p.val asOk).wr
        F.PLD_ASSIGN_STATUS_DONE p.val 1)) ∧
  (∀ (s t : State) (p : Fin 16) (k : ObjKind) (i : Nat), s.ready = true →
    s.pst p.val = pConfiguring ∨ s.pst p.val = pActive → s.tdisp p.val ≠ 1 → s.tdisp p.val ≠ 2 → s.ownerOf k i = p.val →
    s.inUse p.val k i = false →
    t = (if k = .context then s.failAll (fun r => r.ctx == i) .contextReset else s).clearObject k i →
    (k ≠ .extent ∨ (s.isClean (.extent i) = true ∧ s.extentRetired i = false) →
      Runs (.pldRelease .pf p k i 1) s (((t.setOwner k i 16 0).wr F.PLD_ASSIGN_STATUS_STATUS p.val asOk).wr
        F.PLD_ASSIGN_STATUS_DONE p.val 1)) ∧
    (k = .extent → s.isClean (.extent i) = false ∨ s.extentRetired i = true →
      Runs (.pldRelease .pf p k i 1) s ((((t.addZero (.extent i) 16).setOwner k i noOwner 0).wr
        F.PLD_ASSIGN_STATUS_STATUS p.val asOk).wr F.PLD_ASSIGN_STATUS_DONE p.val 1))) ∧
  (∀ (s t : State) (p : Fin 16) (k : ObjKind) (i n e d : Nat) (ctx : Fin 256), s.ready = true → 0 < n →
    s.pst p.val = pConfiguring ∨ s.pst p.val = pActive → s.tdisp p.val ≠ 1 → s.tdisp p.val ≠ 2 →
    (objLoop (fun u j => u.assignOne p.val k ctx.val j) n s i 0 = (e, d, t) → Runs (.pldAssign .pf p k i n ctx) s
      ((t.wr F.PLD_ASSIGN_STATUS_STATUS p.val e).wr F.PLD_ASSIGN_STATUS_DONE p.val d)) ∧
    (objLoop (fun u j => u.releaseOne p.val k j) n s i 0 = (e, d, t) → Runs (.pldRelease .pf p k i n) s
      ((t.wr F.PLD_ASSIGN_STATUS_STATUS p.val e).wr F.PLD_ASSIGN_STATUS_DONE p.val d)))

/-- An assignment to a polder that TDISP has locked changes no ownership: STATUS reads LOCKED (R83). -/
def Obligations.LockedPolderTakesNoObject : Prop :=
  ∀ (s : State) (p : Fin 16) (k : ObjKind) (i n : Nat) (ctx : Fin 256), s.ready = true → 0 < n →
    s.rd F.PLD_STATE_TDISP p.val = 1 ∨ s.rd F.PLD_STATE_TDISP p.val = 2 →
    Runs (.pldAssign .pf p k i n ctx) s
      ((s.wr F.PLD_ASSIGN_STATUS_STATUS p.val asLocked).wr F.PLD_ASSIGN_STATUS_DONE p.val 0)

/-- The moves of a polder that no command makes: the end of its drain, of its clearing and of its zeroing, the zeroing of
a released resource, and the zero order of the MGC, which a FREE polder ignores (R39, R71, R253, R543). -/
def Obligations.PolderMovesComplete : Prop :=
  (∀ (s : State) (p : Fin 16), s.pst p.val = pDraining → s.runs.all (fun r => r.owner != p.val) = true →
    Runs (.polderDrainComplete p) s (s.enterZeroing p.val)) ∧
  (∀ (s : State) (p : Fin 16), s.pst p.val = pResetting → s.op? .pld p.val = none →
    ((s.aux p.val).zeroDue = false → (s.aux p.val).resetFrom < 8 →
      Ends (.polderClearingDone p) s (fun t => t.pst p.val = (s.aux p.val).resetFrom)) ∧
    ((s.aux p.val).zeroDue = true → Runs (.polderClearingDone p) s ((s.zeroOp p.val none).beginZero p.val))) ∧
  (∀ (s s1 : State) (p : Fin 16) (o : LongOp), s.op? .pld p.val = some o → s.opRuns o = true → s.pst p.val ≠ pDraining →
    s.zeroJobs.any (fun j => j.polder == p.val) = false → s.unclean p.val = [] →
    s1 = ((s.wr F.PLD_STATE_TDISP p.val 0).resetEpochs p.val).orderDone p.val →
    (s.pst p.val = pResetting → Runs (.polderZeroingComplete p) s
      ((s1.wr F.PLD_STATE_STATE p.val (s.aux p.val).resetFrom).endOp o none)) ∧
    (s.pst p.val = pZeroing → Ends (.polderZeroingComplete p) s
      (fun t => t.pst p.val = pFree ∧ t.tdisp p.val = 0 ∧ t.opBusy .pld p.val = false)) ∧
    (s.pst p.val ≠ pResetting → s.pst p.val ≠ pZeroing → Runs (.polderZeroingComplete p) s (s1.endOp o none))) ∧
  (∀ (s : State) (j : ZeroJob), s.zeroJobs.find? (fun j => j.polder == 16 && j.finished && s.zeroRuns j) = some j →
    Runs (.resourceZeroingDone) s (s.zeroStep j j.item.size)) ∧
  (∀ (s : State) (p : Fin 16), bitAt (s.rd F.JCT_ZERO_MGC_REQ 0) p.val = false →
    (s.pst p.val ≠ pFree → Runs (.mgcZeroOrder p) s
      ((s.wr F.JCT_ZERO_MGC_REQ 0 (setBit (s.rd F.JCT_ZERO_MGC_REQ 0) p.val)).functionReset p.val true)) ∧
    (s.pst p.val = pFree → Runs (.mgcZeroOrder p) s
      (s.wr F.JCT_ZERO_MGC_REQ 0 (setBit (s.rd F.JCT_ZERO_MGC_REQ 0) p.val))))

/-- A zeroing on reassignment that has ended leaves its item clean, and its job is gone (R543). -/
def Obligations.FinishedZeroingLeavesItsItemClean : Prop :=
  ∀ (s : State) (j : ZeroJob), s.zeroJobs.find? (fun j => j.polder == 16 && j.finished && s.zeroRuns j) = some j →
    Ends .resourceZeroingDone s (fun t => t.isClean j.item = true ∧ t.zeroPending j.item = false)

/-- The TDISP requests (R81 to R85): the queries answer; LOCK of an ACTIVE polder with a bound IDE stream waits for the PF
runs that hold a translation into it; START moves CONFIG_LOCKED to RUN; STOP zeroes the polder's memory; an IDE failure
moves a polder to ERROR and fails its queued runs. The message codes, and the way LOCK waits, are the model's
(notes/assumptions/18.md, notes/assumptions/107.md). -/
def Obligations.TdispRequestsComplete : Prop :=
  (∀ (s : State) (p : Fin 16),
    Runs (.tdispGetTdispVersion p) s (s.tdispReply 0x01 p.val [0x10]) ∧
    Runs (.tdispGetTdispCapabilities p) s (s.tdispReply 0x02 p.val [0xFE]) ∧
    Runs (.tdispGetDeviceIfState p) s (s.tdispReply 0x05 p.val [s.tdisp p.val]) ∧
    Runs (.tdispGetDeviceIfReport p) s (s.ifReport p.val)) ∧
  (∀ (s : State) (p : Fin 16), s.pst p.val = pActive → s.tdisp p.val = 0 → (s.aux p.val).lockWait = none →
    s.op? .pld p.val = none →
    Runs (.tdispLockInterfaceRequest p true) s
      ((s.setAux p.val { s.aux p.val with lockWait := some (s.pfInto p.val), ide := true }).finishLock p.val)) ∧
  (∀ (s : State) (p : Fin 16), s.tdisp p.val = 1 →
    Ends (.tdispStartInterfaceRequest p) s (fun t => t.tdisp p.val = 2 ∧ ∀ q, q ≠ p.val → t.tdisp q = s.tdisp q)) ∧
  (∀ (s s1 : State) (p : Fin 16), s1 = (s.setAux p.val { s.aux p.val with lockWait := none }).tdispReply 0x07 p.val [] →
    (s.tdisp p.val ≠ 0 → s.pst p.val = pActive ∨ s.pst p.val = pConfiguring → s.op? .pld p.val = none →
      Runs (.tdispStopInterfaceRequest p) s ((s1.zeroOp p.val none).beginZero p.val)) ∧
    (s.tdisp p.val = 0 ∨ s.op? .pld p.val ≠ none → Runs (.tdispStopInterfaceRequest p) s s1)) ∧
  (∀ (s : State) (p : Fin 16), s.pst p.val ≠ pFree →
    Runs (.ideFailure p) s (((s.setAux p.val { s.aux p.val with lockWait := none }).wr F.PLD_STATE_TDISP p.val 3).failAll
      (fun r => r.owner == p.val && r.phase == .queued) .polderReset))

/-- The commands on contexts and fence blocks (R89, R103, R107). -/
def Obligations.ContextAndFenceBlockCommandsComplete : Prop :=
  (∀ (s : State) (fn : Fn) (c : Fin 256), s.ready = true → s.ownerOf .context c.val = fn.idx →
    Runs (.ctxReset fn c) s (s.ctxReset c.val)) ∧
  (∀ (s : State) (block : Fin 128) (fe : Option Nat), s.ready = true → s.op? .fnc 0 = none →
    Runs (.fncBlockReset .pf block fe) s
      (((s.wr F.FNC_PROGRESS_DONE 0 0).wr F.FNC_PROGRESS_HELD 0 0).startOp .fnc 0 16 fe 512 (.fenceReset block.val 0))) ∧
  (∀ (s : State) (c : Fin 256), (SMap.get { count := 0, first := 0 } s.coal c.val : Coal).count ≠ 0 →
    s.rd F.CTX_IRQ_MODE c.val = 2 →
    (SMap.get { count := 0, first := 0 } s.coal c.val : Coal).first + s.rd F.CTX_IRQ_COAL_TICKS c.val ≤ s.tick →
    Runs (.msixCoalesceTimeout c) s
      (State.sendMsix { s with coal := SMap.put { count := 0, first := 0 } s.coal c.val { count := 0, first := 0 } }
        (s.ownerOf .context c.val) (s.rd F.CTX_IRQ_VEC c.val)))

/-- A CONTEXT reset leaves the context no memory object, pending fault, held range or long operation, and no queued run: those
fail (R89, R154, R428). -/
def Obligations.ContextResetEmptiesTheContext : Prop :=
  ∀ (s : State) (c : Nat), ∀ t, t = s.ctxReset c →
    (∀ m ∈ t.mobs, m.ctx ≠ c) ∧ (∀ f ∈ t.faults, f.ctx ≠ c) ∧ (∀ h ∈ t.holds, h.ctx ≠ c) ∧ (∀ o ∈ t.ops, o.ctx ≠ some c) ∧
    (∀ r ∈ t.runs, r.ctx = c → r.phase ≠ .queued)

/-- A sweep of a whole block by BLOCK_RESET leaves every fence of it ARMED, but the HELD ones as they were, and no fence
outside it changed (R107). -/
def Obligations.BlockResetSweepArmsAllButHeldFences : Prop :=
  ∀ (s : State) (block i f : Nat), i ≤ 512 →
    (State.fenceSweep block (512 - i) s i).fence f =
      if 512 * block + i ≤ f ∧ f < 512 * block + 512 then
        (match s.fence f with | .held h => .held h | _ => .armed)
      else s.fence f

/-- The long commands of an owner and of the PF start a long operation when none of theirs runs (R138, R139, R150, R180,
R181, R183, R228, R230, R250, R273, R275, R447): each with the total and the task that its rule gives. -/
def Obligations.LongCommandsStartTheirOperation : Prop :=
  (∀ (s : State) (fn : Fn) (slot g c : Nat) (fe : Option Nat), s.reaches fn → s.op? .mob fn.idx = none → slot < 16384 →
    s.rd F.MOB_HI_PAGES fn.idx ≠ 0 → s.rd F.MOB_LO_VA fn.idx + s.rd F.MOB_HI_PAGES fn.idx ≤ 2 ^ 36 →
    s.slotGlobal fn.idx slot = some g → s.fromLocal fn.idx .context (s.rd F.MOB_LO_CTX fn.idx) = some c →
    s.mobOf g = none →
    s.mobs.any (fun m => m.ctx == c && overlaps m.page m.pages (s.rd F.MOB_LO_VA fn.idx) (s.rd F.MOB_HI_PAGES fn.idx)) = false →
    Runs (.mobWrite fn slot fe) s ((s.mobStatus fn.idx mobOk 0).startOp .mob fn.idx fn.idx fe (s.rd F.MOB_HI_PAGES fn.idx)
      (.mobWrite (Mob.mk g fn.idx c (s.rd F.MOB_LO_VA fn.idx) (s.rd F.MOB_HI_PAGES fn.idx)
        (s.rd F.MOB_LO_CLASS fn.idx == 1) (s.rd F.MOB_LO_WRITE fn.idx == 1) false []) (s.rd F.MOB_LO_VA fn.idx)))) ∧
  (∀ (s : State) (fn : Fn) (slot g : Nat) (m : Mob) (fe : Option Nat) (w : Nat × Nat), s.reaches fn →
    s.op? .mob fn.idx = none → slot < 16384 → s.slotGlobal fn.idx slot = some g → s.mobOf g = some m →
    w = s.wholePages m.ctx m.page m.pages →
    Runs (.mobClear fn slot fe) s (((s.mobStatus fn.idx mobOk 0).takeHold m.ctx w.1 w.2).startOp .mob fn.idx fn.idx
      fe 1 (.mobClear g m.ctx w.1 w.2 .drain []))) ∧
  (∀ (s : State) (fn : Fn) (c : Fin 256) (pages : Nat) (fe : Option Nat) (w : Nat × Nat), s.ready = true →
    s.ownerOf .context c.val = fn.idx → s.op? .inv c.val = none → 0 < pages → pages < 2 ^ 36 →
    w = s.wholePages c.val (s.rd F.INV_ADDR_VA c.val) pages →
    Runs (.invInvalidate fn c pages fe) s
      (((s.wr F.INV_PROGRESS_REWALKED c.val 0).takeHold c.val w.1 w.2).startOp .inv c.val fn.idx fe
        1 (.inval .drain w.1 w.2 []))) ∧
  (∀ (s : State) (fn : Fn) (fe : Option Nat) (image : List Byte) (cpl : Cpl), s.reaches fn →
    s.op? .pln fn.idx = none → s.mayLoad fn.idx = true →
    Starts (.plnLoad fn fe image cpl) s .pln fn.idx (numAt image 8 4)) ∧
  (∀ (s : State) (fn : Fn) (fe : Option Nat), s.reaches fn → s.op? .pln fn.idx = none → s.mayLoad fn.idx = true →
    Runs (.plnUnload fn fe) s (((s.wr F.PLN_PROGRESS_DONE fn.idx 0).wr F.PLN_PROGRESS_TOTAL fn.idx 0).startOp .pln fn.idx
      fn.idx fe 0 .planUnload)) ∧
  (∀ (s : State) (fe : Option Nat) (image : List Byte) (cpl : Cpl), s.ready = true → s.op? .rv 0 = none →
    Starts (.rvLoad .pf fe image cpl) s .rv 0 (numAt image 8 4)) ∧
  (∀ (s : State) (fn : Fn) (slot : Fin 1024) (fe : Option Nat) (image : List Byte) (cpl : Cpl), s.reaches fn →
    s.op? .tbl fn.idx = none → s.table fn.idx slot.val = none →
    Starts (.tblWrite fn slot fe image cpl) s .tbl fn.idx 1) ∧
  (∀ (s : State) (fn : Fn) (slot : Fin 1024) (fe : Option Nat) (x : TableSlot) (early : List Nat), s.reaches fn →
    s.op? .tbl fn.idx = none → s.table fn.idx slot.val = some x → x.closing = none →
    early = (s.runs.filter (fun r => r.owner == fn.idx && decide (r.phase ≠ .queued))).map (·.id) →
    Runs (.tblClear fn slot fe) s ((s.setTable fn.idx slot.val (some { x with closing := some early })).startOp .tbl fn.idx
      fn.idx fe 1 (.tblClear slot.val))) ∧
  (∀ (s : State) (p : Fin 16) (table : Fin 1024) (fe : Option Nat) (x : TableSlot), s.reaches (.vf p) →
    s.op? .hmk p.val = none → s.rd F.HMK_COUNT_COUNT p.val ≠ 0 → s.table p.val table.val = some x → x.closing = none →
    Runs (.hmkPin (.vf p) table fe) s (((s.wr F.HMK_STATUS_DONE p.val 0).wr F.HMK_STATUS_STATUS p.val hmkOk).startOp .hmk
      p.val p.val fe (s.rd F.HMK_COUNT_COUNT p.val)
      (.hmk hmkPin table.val (s.rd F.HMK_FIRST_ROW p.val) (s.rd F.HMK_COUNT_COUNT p.val))) ∧
    Runs (.hmkUnpin (.vf p) table fe) s (((s.wr F.HMK_STATUS_DONE p.val 0).wr F.HMK_STATUS_STATUS p.val hmkOk).startOp .hmk
      p.val p.val fe (s.rd F.HMK_COUNT_COUNT p.val)
      (.hmk hmkUnpin table.val (s.rd F.HMK_FIRST_ROW p.val) (s.rd F.HMK_COUNT_COUNT p.val)))) ∧
  (∀ (s : State) (p : Fin 16) (fe : Option Nat), s.reaches (.vf p) → s.op? .hmk p.val = none →
    Starts (.hmkUnpinAll (.vf p) fe) s .hmk p.val 1) ∧
  (∀ (s : State) (fn : Fn) (fe : Option Nat), s.reaches fn → s.op? .ep fn.idx = none →
    s.rd F.EP_STATE_STATE fn.idx = epReady → s.rd F.EP_STATE_PUB fn.idx ≠ 0xFFFFFFFE →
    Runs (.epPublish fn fe) s ((s.wr F.EP_STATE_STATE fn.idx epPublishing).startOp .ep fn.idx fn.idx fe 1 .publish)) ∧
  (∀ (s : State) (fn : Fn) (fe : Option Nat), s.reaches fn → s.op? .ep fn.idx = none →
    s.rd F.EP_STATE_STATE fn.idx = epReady → s.rd F.EP_STATE_JNL_LOST fn.idx = 0 →
    Starts (.epAbandon fn fe) s .ep fn.idx (s.rd F.EP_JNL_SIZE_USED fn.idx)) ∧
  (∀ (s : State) (t cand : Fin 8) (fe : Option Nat), s.ready = true → s.op? .twr t.val = none →
    s.rdi F.TWR_WEAK_VALID t.val cand.val ≠ 0 →
    Runs (.twrRepair .pf t cand fe) s (((s.twStatus t.val twOk).wr F.TWR_CMD_STATUS_COPIED t.val 0).startOp .twr t.val 16 fe
      33 (.repair cand.val (32 * t.val + s.rdi F.TWR_WEAK_VAULT t.val cand.val)))) ∧
  (∀ (s : State) (fe : Option Nat) (image : List Byte) (cpl : Cpl), s.ready = true → s.op? .asy 0 = none →
    s.assay.runs.any (fun r => r.store == s.assay.spare && s.assay.force != some r.store) = false →
    Starts (.asyLoad .pf fe image cpl) s .asy 0 (numAt image 8 4)) ∧
  (∀ (s : State) (image : List Byte) (cpl : Cpl) (leafOk : Bool), s.ready = true → s.op? .trust 0 = none →
    Starts (.cwTrustLoad .pf image cpl leafOk) s .trust 0 1)

/-- RESUME of an operation, halted or not, while the power state is ACTIVE (R428, R430): it goes on, and the fence that the
command names, when it is ARMED, joins those that the operation's end signals. That the fence joins them is the model's
(notes/assumptions/14.md). -/
def Obligations.ResumeContinuesAHaltedOperation : Prop :=
  ∀ (s s1 : State) (fe f : Option Nat) (o : LongOp), s.pwrActive = true →
    (∀ fn : Fn, s.reaches fn →
      (s.op? .pln fn.idx = some o → s.takeFence fn.idx fe ⟨.pln, fn.idx⟩ = (f, s1) →
        Runs (.plnResume fn fe) s (s1.setOp { o with halted := false, fences := f.toList ++ o.fences })) ∧
      (s.op? .mob fn.idx = some o → s.takeFence fn.idx fe ⟨.mob, fn.idx⟩ = (f, s1) →
        Runs (.mobResume fn fe) s (s1.setOp { o with halted := false, fences := f.toList ++ o.fences })) ∧
      (s.op? .tbl fn.idx = some o → s.takeFence fn.idx fe ⟨.tbl, fn.idx⟩ = (f, s1) →
        Runs (.tblResume fn fe) s (s1.setOp { o with halted := false, fences := f.toList ++ o.fences })) ∧
      (s.op? .ep fn.idx = some o → s.takeFence fn.idx fe ⟨.ep, fn.idx⟩ = (f, s1) →
        Runs (.epResume fn fe) s (s1.setOp { o with halted := false, fences := f.toList ++ o.fences }))) ∧
    (∀ p : Fin 16, s.reaches (.vf p) → s.op? .hmk p.val = some o → s.takeFence p.val fe ⟨.hmk, p.val⟩ = (f, s1) →
      Runs (.hmkResume (.vf p) fe) s (s1.setOp { o with halted := false, fences := f.toList ++ o.fences })) ∧
    (∀ (fn : Fn) (c : Fin 256), s.ready = true → s.ownerOf .context c.val = fn.idx → s.op? .inv c.val = some o →
      s.takeFence fn.idx fe ⟨.inv, c.val⟩ = (f, s1) →
      Runs (.invResume fn c fe) s (s1.setOp { o with halted := false, fences := f.toList ++ o.fences })) ∧
    (s.ready = true → s.op? .rv 0 = some o → s.takeFence 16 fe ⟨.rv, 0⟩ = (f, s1) →
      Runs (.rvResume .pf fe) s (s1.setOp { o with halted := false, fences := f.toList ++ o.fences })) ∧
    (∀ t : Fin 8, s.ready = true → s.op? .twr t.val = some o → s.takeFence 16 fe ⟨.twr, t.val⟩ = (f, s1) →
      Runs (.twrResume .pf t fe) s (s1.setOp { o with halted := false, fences := f.toList ++ o.fences }))

/-- ABORT ends an operation at once: what its rule leaves is left, the fences that wait on it signal E_ABORTED (R139, R153,
R181, R220, R276, R428), and then the ABORT's own fence signals E_NONE. The outcome of the ABORT's own fence is the model's
(notes/assumptions/24.md). -/
def Obligations.AbortEndsAnOperation : Prop :=
  ∀ (s : State) (fe : Option Nat) (o : LongOp),
    (∀ fn : Fn, s.reaches fn →
      (s.op? .pln fn.idx = some o → Runs (.plnAbort fn fe) s
        (((s.plnStatus fn.idx plAborted 0).endOp o (some .aborted)).doneFence fn.idx fe ⟨.pln, fn.idx⟩ none)) ∧
      (s.op? .mob fn.idx = some o → Runs (.mobAbort fn fe) s
        ((((s.dropInval o).wr F.MOB_STATUS_STATUS fn.idx mobAborted).endOp o (some .aborted)).doneFence fn.idx fe
          ⟨.mob, fn.idx⟩ none)) ∧
      (s.op? .tbl fn.idx = some o → Runs (.tblAbort fn fe) s
        (((s.tblUndo o).endOp o (some .aborted)).doneFence fn.idx fe ⟨.tbl, fn.idx⟩ none)) ∧
      (s.op? .ep fn.idx = some o → Runs (.epAbort fn fe) s
        (((s.epUndo o).endOp o (some .aborted)).doneFence fn.idx fe ⟨.ep, fn.idx⟩ none))) ∧
    (∀ p : Fin 16, s.reaches (.vf p) → s.op? .hmk p.val = some o → Runs (.hmkAbort (.vf p) fe) s
      (((s.wr F.HMK_STATUS_STATUS p.val hmkAborted).endOp o (some .aborted)).doneFence p.val fe ⟨.hmk, p.val⟩ none)) ∧
    (∀ (fn : Fn) (c : Fin 256), s.ready = true → s.ownerOf .context c.val = fn.idx → s.op? .inv c.val = some o →
      Runs (.invAbort fn c fe) s
        (((s.dropInval o).endOp o (some .aborted)).doneFence fn.idx fe ⟨.inv, c.val⟩ none)) ∧
    (s.ready = true → s.op? .rv 0 = some o → Runs (.rvAbort .pf fe) s
      (((s.rvStatus plAborted 0 0).endOp o (some .aborted)).doneFence 16 fe ⟨.rv, 0⟩ none)) ∧
    (∀ t : Fin 8, s.ready = true → s.op? .twr t.val = some o → Runs (.twrAbort .pf t fe) s
      (((s.twStatus t.val twAborted).endOp o (some .aborted)).doneFence 16 fe ⟨.twr, t.val⟩ none))

/-- One step of an operation that is running commits that operation's own step, of at least one item; a halted one stands
(R427, R428). -/
def Obligations.LongOperationStepsOnlyWhileRunning : Prop :=
  ∀ (s : State) (o : LongOp) (n : Nat) (pt : HostTable), s.ops.find? (fun x => decide (x.sel = o.sel)) = some o →
    (s.opRuns o = true → Runs (.longOpStep o.sel n pt) s (s.opStep o (max 1 n) pt)) ∧
    (s.opRuns o = false → Runs (.longOpStep o.sel n pt) s s)

/-- A request that interrupts long operations leaves none of them running but those that nothing halts, those that resume
themselves, and a polder's zeroing that has not begun (R428, Table — Long operations). -/
def Obligations.InterruptingRequestHaltsOperations : Prop :=
  ∀ (s : State) (o : LongOp), o ∈ s.haltOps.ops → neverHalts o.sel.kind = false → selfResuming o.sel.kind = false →
    s.zeroWaits o = false → o.halted = true

/-- The commands on pending faults (R146 to R148), and the end of an invalidation's drain (R150). -/
def Obligations.FaultCommandsComplete : Prop :=
  (∀ (s : State) (fn : Fn) (c : Fin 256) (id : Nat) (pt : HostTable) (f : PFault), s.ready = true →
    s.ownerOf .context c.val = fn.idx → s.fault? c.val id = some f →
    Runs (.fltRetry fn c id pt) s (s.retryFault pt f) ∧
    Runs (.fltFail fn c id) s (f.runs.foldl (fun t r => t.failRun r .faultUnserviced) (s.dropFault f))) ∧
  (∀ (s : State) (fn : Fn) (c : Fin 256) (pt : HostTable), s.ready = true → s.ownerOf .context c.val = fn.idx →
    Runs (.fltRetryAll fn c pt) s ((s.faultsOf c.val).foldl (fun t f => t.retryFault pt f) s)) ∧
  (∀ (s : State) (c : Fin 256) (id : Nat) (pt : HostTable) (f : PFault), s.fault? c.val id = some f → f.retry = true →
    Runs (.faultFill c id pt) s ((s.walkFault pt f).settleFault { f with retry := false })) ∧
  (∀ (s : State) (id : Nat) (r : Run), s.run? id = some r → r.steps.any StepSt.stands = true →
    s.allowance r ≤ s.stalledSoFar r →
    Runs (.faultAllowanceExpiry id) s (s.failRun id (s.withDue id .faultUnserviced))) ∧
  (∀ (s : State) (c : Fin 256) (op : LongOp) (page pages : Nat) (todo : List (Nat × Nat × Nat)),
    s.op? .inv c.val = some op → op.task = .inval .drain page pages todo → s.opRuns op = true →
    s.drainRuns c.val page pages = [] →
    Runs (.invDrainEnd c) s ((s.flush c.val page pages).setOp
      { op with task := .inval .flush page pages (s.flushParts c.val page pages) }))

/-- A fault number that is not pending is counted in STALE by RETRY and by FAIL, which do nothing else (R148). -/
def Obligations.StaleFaultNumberIsCounted : Prop :=
  ∀ (s : State) (fn : Fn) (c : Fin 256) (id : Nat) (pt : HostTable), s.ready = true → s.ownerOf .context c.val = fn.idx →
    s.fault? c.val id = none →
    Runs (.fltRetry fn c id pt) s (s.bump F.FLT_PENDING_STALE c.val 1) ∧
    Runs (.fltFail fn c id) s (s.bump F.FLT_PENDING_STALE c.val 1)

/-- A COMMIT of a staged frame that every plan in force fits, or one that drops the plans that do not, takes its fence and
arms the switch, with the plans that wait for it; the fence of a COMMIT that it replaces signals (R183, R187). A DISCARD drops
the staged frame, lets the plans that wait for it go on, and signals its fence. The events of a frame's edge follow: the
boundary (R533), the sample point (R35), the first frame after a reset (R188), and the changes that apply while no frame is
in force (R208, R396). -/
def Obligations.FrameCommandsAndEventsComplete : Prop :=
  (∀ (s s1 : State) (f : Frame) (drop : Bool) (fe fence : Option Nat) (b : Nat), s.ready = true → s.op? .rv 0 = none →
    s.stagedFrame = some f → (drop = true ∨ s.unfit f = none) → s.takeFence 16 fe ⟨.rv, 0⟩ = (fence, s1) →
    b = s1.switchAt (fun _ => true) →
    Runs (.rvCommit .pf drop fe) s (State.signalOpt { (s1.rvStatus 0 0 0).armStaged b with
      frameArmed := some { boundary := b, dropUnfit := drop, fence := fence } } (s1.frameArmed >>= (·.fence)) none)) ∧
  (∀ (s : State) (f : Frame) (fe : Option Nat), s.ready = true → s.op? .rv 0 = none → s.stagedFrame = some f →
    s.frameArmed = none →
    Runs (.rvDiscard .pf fe) s
      (((List.range 17).foldl (fun t o => t.releasePlan o) ({ s with stagedFrame := none } : State)).doneFence 16 fe
        ⟨.rv, 0⟩ none)) ∧
  (∀ (s : State) (lv k : Nat), s.beforeBoundary 0 = true → s.boundaryDone ≠ s.tick → s.sampled = some (lv, k) →
    Runs .frameBoundary s
      ((((s.switches.applyLevel lv).applyTier k).boundaryFails (k != s.tier) (lv != s.level)).boundaryRest)) ∧
  (∀ (s : State), s.beforeBoundary 64 = true → s.sampled = none →
    Ends .samplePoint s (fun t => t.sampled = some (s.nextLevel, s.rawTier))) ∧
  (∀ (s s1 s2 : State) (a : Armed), s.frame = none → s.frameArmed = some a → a.boundary ≤ s.tick →
    s1 = (match s.pendLevel with | some (lv, n) => if n ≤ s.tick then s.applyLevel lv else s | none => s) →
    s2 = (match s1.pendTier with | some (k, n) => if n ≤ s1.tick then s1.applyTier k else s1 | none => s1) →
    Runs .firstFrameStart s (State.switches { s2 with pendLevel := none, pendTier := none }).boundaryRest) ∧
  (∀ (s : State) (lv t : Nat), s.frame = none → s.pendLevel = some (lv, t) → t ≤ s.tick →
    Runs .levelApplyNoFrame s (State.applyLevel { s with pendLevel := none } lv)) ∧
  (∀ (s : State) (k t : Nat), s.frame = none → s.pendTier = some (k, t) → t ≤ s.tick →
    Runs .tierApplyNoFrame s (State.applyTier { s with pendTier := none } k))

/-- After a WARM or COLD reset no frame is in force, and with none in force the Reeve admits no run: a window is no window.
The first COMMIT arms its switch for the first tick that is a multiple of 64 and at least 64 ticks away (R188). -/
def Obligations.NoFrameAdmitsNoRun : Prop :=
  (∀ (s : State) (cause : Nat), (s.warmReset cause).frame = none ∧ s.coldReset.frame = none) ∧
  (∀ (s : State) (fn : Fn) (lode : Nat), s.frame = none → Runs (.admissionWindow fn lode) s s) ∧
  (∀ (s : State) (q : Nat → Bool), s.frame = none → s.switchAt q % 64 = 0 ∧ s.tick + 64 ≤ s.switchAt q ∧
    ∀ n, n % 64 = 0 → s.tick + 64 ≤ n → s.switchAt q ≤ n)

/-- The window of a lode takes the head run of each queue, in turn; a head run that may be admitted, has a free instance
and meets no failure of R172 is admitted, and one that meets one fails with the lowest code (R171, R172). A queued run
whose MAX_WAIT has passed fails with E_ADMISSION_TIMEOUT (R173). -/
def Obligations.WindowAdmitsOrFailsTheHeadRun : Prop :=
  (∀ (s : State) (fn : Fn) (lode : Nat) (f : Frame) (p : Plan) (l : Lode), s.frame = some f → s.planOf fn.idx = some p →
    p.lode lode = some l → s.windowDue fn.idx lode l = true →
    Runs (.admissionWindow fn lode) s
      ((List.range 1024).foldl (fun t q =>
        match t.runs.find? (fun r => r.queue == q && r.phase == .queued) with
        | some r => if r.owner = fn.idx ∧ r.lode = lode then t.windowOf r p l else t
        | none => t)
        ({ s with winAt := SMap.put 0 s.winAt (65536 * fn.idx + lode) (s.tick + 1) } : State))) ∧
  (∀ (s : State) (r : Run) (p : Plan) (l : Lode) (inst : Nat), s.mayAdmit r l = true →
    s.freeInst r.owner r.lode l = some inst →
    p.updateLode l = false ∨ (s.updateBusy r.owner = false ∧ s.retPinned r.owner = false) →
    (s.admitCodes r p l = [] → s.windowOf r p l = s.admitRun r p l inst) ∧
    (∀ e, Err.lowest (s.admitCodes r p l) = some e → s.windowOf r p l =
      State.failRun (if (s.admitCodes r p l).contains .faultPinned
        then s.faultRecord r (s.jnlFault r.owner).2 0 (s.jnlFault r.owner).1 false false else s) r.id e)) ∧
  (∀ (s : State) (id : Nat) (r : Run) (l : Lode), s.run? id = some r → s.runLode r = some l → r.phase = .queued →
    r.accepted + l.maxWait ≤ s.tick → Runs (.admissionTimeout id) s (s.failRun id .admissionTimeout))

/-- A step of an admitted run starts at its planned tick (R174) and completes once its work is done (R178). With its last
step, a run of an OPEN polder ends at once (R176); one of a SEALED polder is held, and ends at its planned end (R175). -/
def Obligations.StepEventsComplete : Prop :=
  (∀ (s : State) (id i : Nat) (r : Run) (p : Plan) (x : PStep), s.run? id = some r → r.phase = .admitted →
    s.runPlan r = some p → s.stepOf r i = some x → r.steps[i]? = some .waiting → s.tick = r.admittedAt + x.start →
    r.stop = none →
    Runs (.stepStart id i) s
      (((s.modRun id (fun q => q.setStep i (.running s.tick))).slabStart r i x).slabConflict r p i x)) ∧
  (∀ (s s1 : State) (id i t0 : Nat) (r q : Run) (p : Plan) (l : Lode) (x : PStep), s.run? id = some r →
    r.phase = .admitted → s.runPlan r = some p → s.runLode r = some l → s.stepOf r i = some x →
    r.steps[i]? = some (.worked t0) → workOver r p l i x = true → r.late.any (fun y => y.1 == i) = false →
    r.stop = none → s1 = ((s.modRun id (fun q => q.setStep i .complete)).stepCounts r p x i t0).dropPaths r x →
    s1.run? id = some q →
    (q.steps.all (fun y => decide (y = .complete)) = false → Runs (.stepComplete id i) s s1) ∧
    (q.steps.all (fun y => decide (y = .complete)) = true → s.isSealed r.owner = true →
      Runs (.stepComplete id i) s (s1.modRun id (fun q => { q with phase := .releasing }))) ∧
    (q.steps.all (fun y => decide (y = .complete)) = true → s.isSealed r.owner = false →
      Runs (.stepComplete id i) s ((s1.countP r.owner 56 (s.plannedEnd r - s.tick)).completeRun id))) ∧
  (∀ (s : State) (id : Nat) (r : Run), s.run? id = some r → r.phase = .releasing → s.plannedEnd r ≤ s.tick →
    Runs (.runRelease id) s (s.completeRun id))

/-- A step that has not completed at its planned end takes its run out: the run has failed (R177). -/
def Obligations.MissedDeadlineEndsTheRun : Prop :=
  ∀ (s : State) (id i : Nat) (r : Run) (p : Plan) (l : Lode) (x : PStep), s.run? id = some r → s.runPlan r = some p →
    s.runLode r = some l → s.stepOf r i = some x → r.phase = .admitted →
    r.admittedAt + x.start + x.duration ≤ s.tick → stepOver r.steps[i]? = false → x.eng ≠ some .causeway → r.late = [] →
    Ends (.stepDeadline id i) s (fun t => t.run? id = none)


/-- A Punch step hashes its bags and ends its work when it meets no failure, and signals every failure that it meets at its
planned end (R235). A gather step whose Punch step has done its work and whose rows are all there adds its parts; the last of
the gather steps of a bag set finishes the pooling (R241); one that stalled while it finished goes on from its bag (R146).
When a weir has no slot left for one of a step's accesses, the step does that work in a later tick (R203). -/
def Obligations.PunchAndGatherStepsComplete : Prop :=
  (∀ (s s1 : State) (id i : Nat) (f : Flaw) (a : Act) (d : List Byte) (out : PunchOut), f ≠ .uncorrectable →
    StepReady s id i .punch a → (s.noted a f).descOf a = (.bytes d, s1) →
    out = s1.punchAll a (bagSet d) (bagBounds a (bagSet d)) →
    (out.codes = [] → Runs (.punchHash id i f) s (s.unlessDenied
      (((out.st.modRun a.run.id (fun r => { r with trunc := r.trunc || decide (0 < out.trunc) })).setData a.run.id
          { a.run.dataOf a.idx with bags := out.bags }).workDone a))) ∧
    (out.codes ≠ [] → Runs (.punchHash id i f) s
      (s.unlessDenied (out.codes.foldl (fun u e => u.late a.run.id a.idx e) out.st)))) ∧
  (∀ (s s1 s2 : State) (id i : Nat) (ev ev' : GatherEv) (a : Act) (x : PStep) (y : StepSt) (d : List Byte) (g : GatherOut)
      (bags : List (List (Nat × Nat))),
    StepReady s id i .vault a → a.plan.punchOf a.lode a.step = some x → a.run.steps[a.step.dep0]? = some y →
    (y = .complete ∨ ∃ t, y = .worked t) → s.descOf a = (.bytes d, s1) → (a.run.dataOf a.idx).limit ≠ 1 →
    bags = (a.run.dataOf a.step.dep0).bags → g = s1.gatherAll a ev bags → g.fail = none → g.gone = false →
    s2 = g.st.countP a.run.owner 75 g.rows → ev' = residueHits a g.parts (s2.codeBags a bags) ev → ev'.residue = [] →
    (a.siblings.all (fun z => a.doneStep z.2) = false → Runs (.gatherPool id i ev) s (s.unlessDenied
      ((s2.setData a.run.id { a.run.dataOf a.idx with parts := g.parts }).workDone a))) ∧
    (a.siblings.all (fun z => a.doneStep z.2) = true → ev'.finisher = false → Runs (.gatherPool id i ev) s (s.unlessDenied
      ((s2.setData a.run.id { a.run.dataOf a.idx with parts := g.parts }).finishFrom a (bagSet d) bags
        (g.parts ++ a.siblings.flatMap (fun z => (a.run.dataOf z.2).parts)) 0)))) ∧
  (∀ (s s1 : State) (id i : Nat) (ev : GatherEv) (a : Act) (x : PStep) (y : StepSt) (d : List Byte),
    StepReady s id i .vault a → a.plan.punchOf a.lode a.step = some x → a.run.steps[a.step.dep0]? = some y →
    (y = .complete ∨ ∃ t, y = .worked t) → s.descOf a = (.bytes d, s1) → (a.run.dataOf a.idx).limit = 1 →
    Runs (.gatherPool id i ev) s (s.unlessDenied (s1.finishFrom a (bagSet d) (a.run.dataOf a.step.dep0).bags
      (a.run.dataOf a.idx).parts (a.run.dataOf a.idx).next)))

/-- A Ladle step that passes its checks moves its bytes in 64-byte units from the element that it stands at, and counts them,
for each of its four operations (R168, R170); an output step whose run still holds its berth writes it and ends its work, and
one of a run without output only ends it (R166). The next unit of a Ladle is moved before those after it, and the step's work
is done at the end of the range (R168). When a weir has no slot left for one of a step's accesses, the step does that work in
a later tick (R203). -/
def Obligations.LadleAndOutputStepsComplete : Prop :=
  (∀ (s s1 s2 : State) (id i : Nat) (f : Flaw) (a : Act) (b : List Byte) (r : Run) (n o : Nat), f ≠ .uncorrectable →
    StepReady s id i .ladle a → (s.noted a f).descOf a = (.bytes b, s1) → s1.ladleCodes a (ladleDesc b) = [] →
    o = (a.run.dataOf i).next → n = ((ladleDesc b).bytes - o) / 64 → s2 = s1.ladleLoop a (ladleDesc b) (n + 1) o →
    s2.run? id = some r → r.steps[i]? = some (.worked a.start) →
    ∀ c, ((ladleDesc b).op = 0 ∧ c = .ladleCopy id i f) ∨ ((ladleDesc b).op = 1 ∧ c = .ladleFill id i f) ∨
      ((ladleDesc b).op = 2 ∧ c = .ladleZero id i f) ∨ ((ladleDesc b).op = 3 ∧ c = .ladleLoad id i f) →
      Runs c s (s.unlessDenied ((s2.count (768 + 8 * (6 + (a.step.lane - 0x120)) + 1) n).countP a.run.owner 103 n))) ∧
  (∀ (s s1 s2 : State) (id i : Nat) (a : Act) (d b : List Byte), StepReady s id i .host a → s.descOf a = (.bytes d, s1) →
    (a.run.noOutput = true → Runs (.outputWrite id i) s (s.unlessDenied (s1.workDone a))) ∧
    (a.run.noOutput = false → a.run.outHeld = true → s1.bme a.run.owner = true →
      s1.get a ((outDesc d).src + a.off) (outDesc d).bytes = (.bytes b, s2) →
      Runs (.outputWrite id i) s (s.unlessDenied ((s2.outWrite a b).workDone a)))) ∧
  (∀ (s s1 s2 : State) (a : Act) (d : LadleDesc) (n o : Nat) (b : List Byte), o < d.bytes →
    (d.op = 0 → s.stallKind a (a.ladleSrc d + o) false = none) → s.stallKind a (a.ladleDst d + o) true = none →
    s.ladleUnit a d o = (.bytes b, s1) → s1.put a (a.ladleDst d + o) b = (none, s2) →
    s.ladleLoop a d (n + 1) o = s2.ladleLoop a d n (o + 64) ∧
    (d.bytes ≤ o + 64 → s.ladleLoop a d (n + 1) o = s2.workDone a))

/-- An Anvil step of each path whose operands are read writes its tiles to Mere, or gives them to the finished-tile queue
(R294 to R297, R309). When the two sums of a tile of an INTEGER job differ, the tiles before it are delivered and the run
fails with E_RESIDUE (R314, R315). A push moves one tile into a queue of 15 or fewer, the last one ending the step's work,
and a full queue holds the Anvil for the tick. When a weir has no slot left for one of a step's accesses, the step does that
work in a later tick (R203). -/
def Obligations.AnvilStepsComplete : Prop :=
  (∀ (s s1 s2 s3 : State) (id i : Nat) (f : Flaw) (a : Act) (b : List Byte) (x : AnvilIn) (hit : Option (Nat × Nat)),
    f ≠ .uncorrectable → StepReady s id i .anvil a → (s.noted a f).descOf a = (.bytes b, s1) →
    SMap.get none s1.avJobs (a.step.lane - 0x100) = none → s1.anvilIn a (anvilDesc b) = (.ok x, s2) →
    ∀ c, ((anvilDesc b).path = 0 ∧ c = .anvilInteger id i f hit) ∨
        ((anvilDesc b).path = 1 ∧ hit = none ∧ c = .anvilExpand id i f) ∨
        ((anvilDesc b).path = 2 ∧ hit = none ∧ c = .anvilProductTable id i f) →
      ((anvilDesc b).queue = false → (anvilDesc b).mismatch x hit = none →
        s2.tilesOut a (anvilDesc b) x (anvilDesc b).order = (none, s3) → Runs c s (s.unlessDenied (s3.workDone a))) ∧
      (∀ j e v, (anvilDesc b).queue = false → (anvilDesc b).mismatch x hit = some (j, e, v) →
        s2.tilesOut a (anvilDesc b) x ((anvilDesc b).order.take j) = (none, s3) →
        Runs c s (s.unlessDenied (s3.anvilMismatch a j e v))) ∧
      (∀ good, (anvilDesc b).queue = true →
        good = (match (anvilDesc b).mismatch x hit with
          | some y => (anvilDesc b).order.take y.1
          | none => (anvilDesc b).order) →
        Runs c s (s.unlessDenied { s2 with avJobs := SMap.put none s2.avJobs (a.step.lane - 0x100) (some
          { run := id, step := i, tiles := good.map (fun y => (anvilDesc b).tile x y.1 y.2)
            bad := (anvilDesc b).mismatch x hit }) }))) ∧
  (∀ (s : State) (t : Fin 8) (j : AvJob) (a : Act), SMap.get none s.avJobs t.val = some j →
    s.workNow? j.run j.step = some a →
    (∀ tile rest s1, j.tiles = tile :: rest → (SMap.get [] s.tiles t.val).length < 16 →
      s1 = (State.countP (State.count { s with
        tiles := SMap.put [] s.tiles t.val (SMap.get [] s.tiles t.val ++ [{ run := j.run, elems := tile }])
        avJobs := SMap.put none s.avJobs t.val
          (if rest.isEmpty && j.bad.isNone then none else some { j with tiles := rest }) }
        (512 + 32 * t.val + 7) 1) a.run.owner 97 1) →
      Runs (.anvilTilePush t) s (if rest.isEmpty && j.bad.isNone then s1.workDone a else s1)) ∧
    (∀ tile rest, j.tiles = tile :: rest → 16 ≤ (SMap.get [] s.tiles t.val).length →
      Runs (.anvilTilePush t) s ((s.bump F.AV_QUEUE_HOLDS t.val 1).count (512 + 32 * t.val + 9) 1)) ∧
    (∀ n e v, j.tiles = [] → j.bad = some (n, e, v) → Runs (.anvilTilePush t) s (s.anvilMismatch a n e v)))

/-- A Tarn step on a slab whose checks pass reads its window, appends to it, empties it, or pins or releases its lines (R347
to R349); one whose checks fail signals every failure at its planned end (R347). APPEND_BEAM gathers the parents' entries
(R350). A Riddle step whose rows, priors and identifiers are read writes the K records of highest rank (R355 to R357). That a
step which changes a slab writes nothing in its first tick is the model's (notes/assumptions/126.md). When a weir has no slot
left for one of a step's accesses, the step does that work in a later tick (R203). -/
def Obligations.TarnAndRiddleStepsComplete : Prop :=
  (∀ (s s1 s2 s3 s4 s5 : State) (id i : Nat) (f : Flaw) (bad : List Nat) (a : Act) (bs : List Byte) (d : TarnDesc) (b : Slab)
      (h : SlabHdr) (gs : List Nat) (ranges : Slab → Option SlabHdr → List (Nat × Nat)),
    f ≠ .uncorrectable → StepReady s id i .tarn a → (s.noted a f).descOf a = (.bytes bs, s1) → tarnDesc bs = d →
    s1.slabOpen a d bad ranges = (.ok (b, h, gs), s2) → s3 = s2.tarnItems a gs.length →
    (d.op = 0 → ranges = (fun b h => (List.range b.layers).flatMap (fun l =>
        (h.elim [] (windowSlots d b)).map (fun i => (b.slot l i, 4 * b.kv)))) →
      s3.put a (d.out + a.off) (leBytes 4 (windowSlots d b h).length ++ leBytes 4 0 ++ leBytes 8 h.seq ++ leBytes 48 0) =
        (none, s4) →
      s4.windowLayers a bad d b (windowSlots d b h) (List.range b.layers) = ([], s5) →
      Runs (.windowRead id i f bad) s (s.unlessDenied (s5.workDone a))) ∧
    (d.op = 3 → a.start < s.tick → ranges = (fun _ _ => []) →
      s3.slabUnpin a b { h with count := 0, head := 0, hot := false } = ([], s4) →
      Runs (.evict id i f bad) s (s.unlessDenied (s4.workDone a))) ∧
    (d.op = 5 → ranges = (fun _ _ => []) → s3.slabUnpin a b { h with hot := false } = ([], s4) →
      Runs (.tarnUnpin id i f bad) s (s.unlessDenied (s4.workDone a))) ∧
    (∀ ok, d.op = 4 → ranges = (fun b _ => [(b.base, b.size)]) →
      (s3.slabLines a b).foldl (fun x l => match x.2.1 with
        | some _ => x
        | none => let (o, e, t) := x.2.2.slabPinLine a bad a.run.owner l; (x.1 && o, e, t)) (true, none, s3) = (ok, none, s4) →
      s4.slabWrite a b.base { h with hot := ok }.bytes = (none, s5) →
      Runs (.tarnPin id i f bad) s (s.unlessDenied (s5.workDone a))) ∧
    (∀ src rows (h1 : SlabHdr), d.op = 1 → a.start < s.tick →
      ranges = (fun b h => (List.range b.layers).flatMap (fun l =>
        (h.elim [] (newSlots d b)).map (fun i => (b.slot l i, 4 * b.kv)))) →
      h1 = { h with head := (h.head + d.newEv) % b.cap, count := min (h.count + d.newEv) b.cap, seq := h.seq + d.newEv } →
      s3.get a (d.src + a.off) (d.newEv * b.layers * (4 * b.kv)) = (.bytes src, s4) →
      rows = ((newSlots d b h).zipIdx).flatMap (fun x => (List.range b.layers).map (fun l =>
        (b.slot l x.1, slice src ((x.2 * b.layers + l) * (4 * b.kv)) (4 * b.kv)))) →
      s4.slabRows a (rows ++ [(b.base, h1.bytes)]) = (none, s5) →
      Runs (.appendHistory id i f bad) s (s.unlessDenied (s5.workDone a)))) ∧
  (∀ (s s1 s2 : State) (id i : Nat) (f : Flaw) (bad : List Nat) (a : Act) (bs : List Byte) (d : TarnDesc) (es : List Err)
      (ranges : Slab → Option SlabHdr → List (Nat × Nat)),
    f ≠ .uncorrectable → StepReady s id i .tarn a → (s.noted a f).descOf a = (.bytes bs, s1) → tarnDesc bs = d →
    s1.slabOpen a d bad ranges = (.error es, s2) →
    (ranges = (fun _ _ => []) → d.op = 3 → a.start < s.tick → Runs (.evict id i f bad) s (s.unlessDenied (s2.lateAll a es))) ∧
    (ranges = (fun _ _ => []) → d.op = 5 → Runs (.tarnUnpin id i f bad) s (s.unlessDenied (s2.lateAll a es))) ∧
    (ranges = (fun b _ => [(b.base, b.size)]) → d.op = 4 →
      Runs (.tarnPin id i f bad) s (s.unlessDenied (s2.lateAll a es))) ∧
    (ranges = (fun b h => (List.range b.layers).flatMap (fun l =>
        (h.elim [] (windowSlots d b)).map (fun i => (b.slot l i, 4 * b.kv)))) → d.op = 0 →
      Runs (.windowRead id i f bad) s (s.unlessDenied (s2.lateAll a es))) ∧
    (ranges = (fun b h => (List.range b.layers).flatMap (fun l =>
        (h.elim [] (newSlots d b)).map (fun i => (b.slot l i, 4 * b.kv)))) → d.op = 1 → a.start < s.tick →
      Runs (.appendHistory id i f bad) s (s.unlessDenied (s2.lateAll a es)))) ∧
  (∀ (s s1 s2 s3 s4 : State) (id i : Nat) (f : Flaw) (a : Act) (bs sel : List Byte) (d : TarnDesc)
      (recs : List (Nat × Nat × Nat)) (cs : List (Nat × Nat × Nat)) (bss : List (List Byte)),
    f ≠ .uncorrectable → StepReady s id i .tarn a → (s.noted a f).descOf a = (.bytes bs, s1) → tarnDesc bs = d → d.op = 2 →
    s1.get a (d.sel + a.off) (8 * d.beams) = (.bytes sel, s2) →
    recs = (List.range d.beams).map (fun b => (b, numAt sel (8 * b + 4) 2, numAt sel (8 * b + 6) 2)) →
    (∀ r ∈ recs, r.2.1 < d.beams) → cs = recs.flatMap (fun r => d.copies a.off r.1 r.2.1) →
    s2.getList a (cs.map (fun c => (c.1, c.2.1))) [] = (.ok bss, s3) →
    s3.putRows a (List.zipWith (fun c b => (c.2.2, b)) cs bss ++
      recs.map (fun r => (d.out + a.off + d.tokAt r.1 d.pos, leBytes 2 r.2.2))) = (none, s4) →
    Runs (.appendBeam id i f) s (s.unlessDenied (s4.workDone a))) ∧
  (∀ (s s1 s2 s3 s4 : State) (id i : Nat) (f : Flaw) (a : Act) (bs : List Byte) (r : RidDesc) (rs ids : List (List Byte))
      (sc : List Nat) (best : List (Nat × Nat)),
    f ≠ .uncorrectable → StepReady s id i .riddle a → (s.noted a f).descOf a = (.bytes bs, s1) → ridDesc bs = r →
    s1.getList a ((r.priorVa + a.off, if r.prior = 2 then 8 * r.beams else 0) ::
      (if r.beam then (List.range r.beams).map (fun b => (r.inVa + a.off + b * r.inStride, r.n * r.eb))
        else [(r.inVa + a.off, r.n * r.eb)])) [] = (.ok rs, s2) →
    sc = r.scores rs.tail (rs.headD []) → best = topK r.k sc.zipIdx →
    s2.getList a (if r.withId then best.map (fun x => (r.idVa + a.off + 8 * x.2, 8)) else []) [] = (.ok ids, s3) →
    s3.put a (r.out + a.off) ((best.zipIdx).flatMap (fun x => r.record x.1 (ids.getD x.2 []))) = (none, s4) →
    ∀ c, (r.beam = false ∧ c = .riddleTopk id i f) ∨ (r.beam = true ∧ c = .riddleBeam id i f) →
      Runs c s (s.unlessDenied ((((s4.bump F.RD_STATUS_NAN_SCORES (a.step.lane - 0x11A) (sc.countP isNan32)).count
        (768 + 8 * (2 + (a.step.lane - 0x11A)) + 1) r.c).countP a.run.owner 101 r.c).workDone a)))

/-- A Solder step distributes its batch (R264) and applies one entry at each command, by the operation that the entry
names (R269); the last entry ends the step's work. A remote step sends its requests from where it stands (R380 to R382),
and at its end tick fails with the lowest code of the requests that are not answered well, each one without an answer counted
as late (R385, R386). When a weir has no slot left for one of a step's accesses, the step does that work in a later tick
(R203). -/
def Obligations.UpdateAndRemoteStepsComplete : Prop :=
  (∀ (s s1 : State) (id i : Nat) (a : Act) (d h body : List Byte) (es : List UpdEntry), StepReady s id i .solder a →
    a.run.data.any (fun x => x.step == i) = false → s.descOf a = (.bytes d, s1) → a.batch (updDesc d) = some (h, body) →
    s1.distribute a (updDesc d) body (numAt h 0 4) 0 [] = (es, none) → es ≠ [] →
    Runs (.solderUpdate id i) s (s.unlessDenied (s1.setData id { step := i, limit := es.length }))) ∧
  (∀ (s s1 s2 : State) (id i n : Nat) (a : Act) (d h body : List Byte) (x : UpdEntry) (t : TableSlot)
      (d1 : StepData), d1 = { a.run.dataOf i with next := (a.run.dataOf i).next + 1, applied := (a.run.dataOf i).applied + 1 } →
    StepReady s id i .solder a → (a.run.dataOf i).next < (a.run.dataOf i).limit → s.descOf a = (.bytes d, s1) →
    a.batch (updDesc d) = some (h, body) → s1.head? a body (a.run.dataOf i).next 0 = some (x, t, n) →
    (a.run.dataOf i).stopped.contains (x.vault / 32) = false → s1.applyEntry a h body x t = (none, false, s2) →
    ∀ c, (x.op = 0 ∧ c = .updateAssign id i) ∨ (x.op = 1 ∧ c = .updateAdd id i) ∨ (x.op = 2 ∧ c = .updateSgd id i) ∨
      (x.op = 3 ∧ c = .updateAdagradRow id i) →
      ((a.run.dataOf i).next + 1 < (a.run.dataOf i).limit →
        Runs c s (s.unlessDenied (s2.setData id d1))) ∧
      ((a.run.dataOf i).next + 1 = (a.run.dataOf i).limit →
        Runs c s (s.unlessDenied ((s2.setData id d1).solderEnd a)))) ∧
  (∀ (s s1 : State) (id i : Nat) (a : Act) (b : List Byte) (g : GrantRef), StepReady s id i .causeway a →
    s.descOf a = (.bytes b, s1) → a.grantRef = some g →
    ∀ c, ((remDesc b).push = false ∧ c = .remoteGather id i) ∨ ((remDesc b).push = true ∧ c = .remotePush id i) →
      Runs c s (s.unlessDenied (State.sendReqs a (remDesc b) g ((remDesc b).reqs * 4096 + 1) s1 (a.run.dataOf a.idx).next
        (a.run.dataOf a.idx).limit ((a.run.dataOf a.idx).stopped.headD 0) (a.run.dataOf a.idx).applied))) ∧
  (∀ (s s1 : State) (id i : Nat) (a : Act) (mine : List Request), s.act? id i = some a → a.step.eng = some .causeway →
    a.deadline ≤ s.tick →
    mine = s.requests.filter (fun q => q.run == a.run.id && q.step == a.idx) →
    s1 = (mine.filter (·.open_)).foldl (fun t q => (t.lateRcvd q.port).countP q.owner 131 1) s →
    Runs (.remoteDeadline id i) s (s1.failRun a.run.id ((Err.lowest
      (mine.filterMap (·.err) ++ (if (mine.filter (·.open_)).isEmpty then [] else [.remoteLate]) ++
        ((a.run.late.filter (fun x => x.1 == a.idx)).map (·.2)))).getD .remoteLate)))

/-- An uncorrectable error in an engine's own storage fails the run with E_POISON and marks the engine, for every engine
that has the error as an event (R439); a Tarn's slab operation signals the failure at its planned end (R347). -/
def Obligations.UncorrectableEngineErrorFailsTheRun : Prop :=
  ∀ (s : State) (id i : Nat) (e : Eng) (a : Act), StepReady s id i e a →
    (∀ c, (e = .punch ∧ c = .punchHash id i .uncorrectable) ∨
        (e = .ladle ∧ (c = .ladleCopy id i .uncorrectable ∨ c = .ladleFill id i .uncorrectable ∨
          c = .ladleZero id i .uncorrectable ∨ c = .ladleLoad id i .uncorrectable)) ∨
        (e = .anvil ∧ ((∃ hit, c = .anvilInteger id i .uncorrectable hit) ∨ c = .anvilExpand id i .uncorrectable ∨
          c = .anvilProductTable id i .uncorrectable)) ∨
        (e = .tarn ∧ c = .appendBeam id i .uncorrectable) ∨
        (e = .riddle ∧ (c = .riddleTopk id i .uncorrectable ∨ c = .riddleBeam id i .uncorrectable)) →
      Runs c s (s.unlessDenied
        ((s.failRun a.run.id .poison).mark a.step.lane { cause := 3, polder := a.cperPolder }))) ∧
    (∀ c bad, e = .tarn → c = .windowRead id i .uncorrectable bad ∨ c = .appendHistory id i .uncorrectable bad ∨
        c = .evict id i .uncorrectable bad ∨ c = .tarnPin id i .uncorrectable bad ∨
        c = .tarnUnpin id i .uncorrectable bad →
      Runs c s (s.unlessDenied
        ((s.late a.run.id a.idx .poison).mark a.step.lane { cause := 3, polder := a.cperPolder })))

/-- The prologue of a Planisher step loads its program (R317, R321). NOP, LOOP, CLRF and STF move the program on (R322,
R328, R333), and POP takes the run's oldest tile out of the Anvil's queue (R334). A load whose 16 rows are read writes the
governed elements of its tile, by the element format of each opcode; a store writes the bytes that its mask governs, and
marks its tile with the flags of the stored elements; a Q4 store under MERGE whose mask parts a byte first reads its rows
(R325, R327, R328). -/
def Obligations.PlanisherControlAndMemoryInstructionsComplete : Prop :=
  (∀ (s s1 : State) (id i : Nat) (a : Act) (d : List Byte), StepReady s id i .planisher a →
    SMap.get none s.pls (a.step.lane - 0x108) = none → s.descOf a = (.bytes d, s1) →
    Runs (.planisherPrologue id i) s (s.unlessDenied
      { s1 with pls := SMap.put none s1.pls (a.step.lane - 0x108) (some (plStart id i d a.off)) })) ∧
  (∀ (s : State) (t : Fin 8) (p : Pl) (w : Nat) (a : Act), PlReady s t p w a →
    (plOp w = 0x00 → Runs (.nop t) s (s.plDone t.val (plOp w) a p)) ∧
    (plOp w = 0x01 → Runs (.loop t) s (s.plDone t.val (plOp w) a { p with
      loops := (plLoopLv w, p.pc + 1, p.pc + 1 + plBody w, plCount w - 1) :: p.loops
      lc := p.lc.set (plLoopLv w) 0 })) ∧
    (plOp w = 0x02 → Runs (.clrf t) s (s.plDone t.val (plOp w) a
      { p with flags := if bitAt (plArg w) 0 then List.replicate 64 0 else p.flags.set (p.dst w) 0 })) ∧
    (∀ s1, plOp w = 0x03 → s.put a (p.rowVa w 0) (p.flags.map (BitVec.ofNat 8)) = (none, s1) →
      Runs (.stf t) s (s1.plDone t.val (plOp w) a p)) ∧
    (∀ f x q, plOp w = 0x1F → f ≠ .uncorrectable → takeTile a.run.id (SMap.get [] s.tiles t.val) = some (x, q) →
      Runs (.pop t f) s (State.plDone { s with tiles := SMap.put [] s.tiles t.val q } t.val (plOp w) a
        (p.put w (p.dst w) (fun e => (x.elems.getD e 0, nanFlag (x.elems.getD e 0)))))) ∧
    (∀ f, plOp w = 0x1F → f ≠ .uncorrectable → takeTile a.run.id (SMap.get [] s.tiles t.val) = none →
      Runs (.pop t f) s ((((s.bump F.AV_QUEUE_EMPTY_POPS t.val 1).count (devCnt 12) 1).countP a.run.owner 52 1).plFail
        t.val p.run .deadline))) ∧
  (∀ (s s1 : State) (t : Fin 8) (p : Pl) (w : Nat) (a : Act) (f : Flaw) (rows : List (List Byte)), PlReady s t p w a →
    f ≠ .uncorrectable →
    s.getList a ((List.range 16).map (fun r => (p.rowVa w r, plRowBytes (plOp w)))) [] = (.ok rows, s1) →
    ∀ c, (plOp w = 0x10 ∧ c = .ldF32 t f) ∨ (plOp w = 0x11 ∧ c = .ldBf16 t f) ∨ (plOp w = 0x12 ∧ c = .ldQ8 t f) ∨
      (plOp w = 0x13 ∧ c = .ldQ4 t f) ∨ (plOp w = 0x14 ∧ c = .ldE4m3 t f) ∨ (plOp w = 0x15 ∧ c = .ldE5m2 t f) →
      Runs c s (s1.plDone t.val (plOp w) a (p.put w (p.dst w) (fun e => loadElem (plOp w) (rows.getD (e / 32) []) (e % 32))))) ∧
  (∀ (s s0 s1 : State) (t : Fin 8) (p : Pl) (w : Nat) (a : Act) (f : Flaw) (part : Bool) (rows : List (List Byte)),
    PlReady s t p w a → f ≠ .uncorrectable →
    part = (plOp w == 0x1B && !plZ w && (List.range 256).any (fun j => p.governs w (2 * j) != p.governs w (2 * j + 1))) →
    (part = true → s.getList a ((List.range 16).map (fun r => (p.rowVa w r, 16))) [] = (.ok rows, s0)) →
    (part = false → rows = [] ∧ s0 = s) →
    s0.putRows a ((List.range 16).flatMap (fun r =>
      byteRuns (p.rowVa w r) (storeRow (plOp w) p w (p.dst w) r (rows.getD r [])))) = (none, s1) →
    ∀ c, (plOp w = 0x18 ∧ c = .stF32 t f) ∨ (plOp w = 0x19 ∧ c = .stBf16 t f) ∨ (plOp w = 0x1A ∧ c = .stQ8 t f) ∨
      (plOp w = 0x1B ∧ c = .stQ4 t f) ∨ (plOp w = 0x1C ∧ c = .stE4m3 t f) ∨ (plOp w = 0x1D ∧ c = .stE5m2 t f) →
      ∀ fl, fl = (List.range 512).foldl (fun acc e => if p.governs w e then
          bitsOr 3 acc (storeBits (plOp w) (p.el (p.dst w) e)).2 else acc) (p.flags.getD (p.dst w) 0) →
        Runs c s (s1.plDone t.val (plOp w) a { p with flags := p.flags.set (p.dst w) fl }))

/-- Each arithmetic instruction writes, in every governed element of its destination tile, the result of its operation on
the elements of its operands, and marks the tile with the flags (R326, R328, R330, R331, R333). -/
def Obligations.PlanisherArithmeticCompletes : Prop :=
  ∀ (s : State) (t : Fin 8) (p : Pl) (w : Nat) (a : Act) (f : Flaw), PlReady s t p w a → f ≠ .uncorrectable →
    (∀ c g, (plOp w = 0x20 ∧ c = .fadd t f ∧ g = fadd) ∨ (plOp w = 0x21 ∧ c = .fsub t f ∧ g = fsub) ∨
        (plOp w = 0x22 ∧ c = .fmul t f ∧ g = fmul) ∨ (plOp w = 0x24 ∧ c = .fmax t f ∧ g = fmax) ∨
        (plOp w = 0x25 ∧ c = .fmin t f ∧ g = fmin) →
      Runs c s (s.plDone t.val (plOp w) a (p.put w (p.dst w) (fun e =>
        (g (p.el (p.sa w) e) (p.b w e), arithFlags (g (p.el (p.sa w) e) (p.b w e)) [p.el (p.sa w) e, p.b w e]))))) ∧
    (∀ c g, (plOp w = 0x26 ∧ c = .fabs t f ∧ g = fabs) ∨ (plOp w = 0x27 ∧ c = .fneg t f ∧ g = fneg) ∨
        (plOp w = 0x28 ∧ c = .frcp t f ∧ g = frcp) ∨ (plOp w = 0x29 ∧ c = .frsq t f ∧ g = frsq) ∨
        (plOp w = 0x2A ∧ c = .fexp2 t f ∧ g = fexp2) ∨ (plOp w = 0x2B ∧ c = .flog2 t f ∧ g = flog2) ∨
        (plOp w = 0x2C ∧ c = .ftanh t f ∧ g = ftanh) ∨ (plOp w = 0x2D ∧ c = .fsigm t f ∧ g = fsigm) →
      Runs c s (s.plDone t.val (plOp w) a (p.put w (p.dst w) (fun e =>
        (g (p.el (p.sa w) e), arithFlags (g (p.el (p.sa w) e)) [p.el (p.sa w) e]))))) ∧
    (plOp w = 0x23 → Runs (.fma t f) s (s.plDone t.val (plOp w) a (p.put w (p.dst w) (fun e =>
      (ffma (p.el (p.sa w) e) (p.b w e) (p.el (p.dst w) e), arithFlags (ffma (p.el (p.sa w) e) (p.b w e) (p.el (p.dst w) e))
        [p.el (p.sa w) e, p.b w e, p.el (p.dst w) e]))))) ∧
    (∀ c g, (plOp w = 0x40 ∧ c = .iadd t f ∧ g = (fun x y => x + y : Int → Int → Int)) ∨
        (plOp w = 0x41 ∧ c = .isub t f ∧ g = (fun x y => x - y : Int → Int → Int)) ∨
        (plOp w = 0x42 ∧ c = .imul t f ∧ g = (fun x y => x * y : Int → Int → Int)) ∨
        (plOp w = 0x43 ∧ c = .imax t f ∧ g = (max : Int → Int → Int)) ∨
        (plOp w = 0x44 ∧ c = .imin t f ∧ g = (min : Int → Int → Int)) →
      Runs c s (s.plDone t.val (plOp w) a (p.put w (p.dst w) (fun e =>
        (wrap32 (g (sext 32 (p.el (p.sa w) e)) (sext 32 (p.b w e))), 0))))) ∧
    (plOp w = 0x45 → Runs (.ishr t f) s (s.plDone t.val (plOp w) a (p.put w (p.dst w) (fun e =>
      (wrap32 (sext 32 (p.el (p.sa w) e) / 2 ^ (plArg w % 32)), 0)))))

/-- Comparisons and mask logic write masks (R328; the bits that a scalar gives a mask instruction are the model's,
notes/assumptions/41.md); SEL, MOV and the conversions write a tile (R290 to R292); a reduction
writes the result of its tree to every element of its row or column (R332). -/
def Obligations.PlanisherMaskAndConversionInstructionsComplete : Prop :=
  ∀ (s : State) (t : Fin 8) (p : Pl) (w : Nat) (a : Act) (f : Flaw), PlReady s t p w a → f ≠ .uncorrectable →
    (plOp w = 0x30 → plArg w % 8 < 6 → Runs (.fcmp t f) s (s.plDone t.val (plOp w) a (p.putMask w (fun e =>
      condBit (plArg w % 8) (cmpFv (fp32 (p.el (p.sa w) e)) (fp32 (p.b w e)))
        (!isNan32 (p.el (p.sa w) e) && !isNan32 (p.b w e)))))) ∧
    (plOp w = 0x30 → plArg w % 8 = 6 →
      Runs (.fcmp t f) s (s.plDone t.val (plOp w) a (p.putMask w (fun e => isNan32 (p.el (p.sa w) e))))) ∧
    (plOp w = 0x31 → Runs (.icmp t f) s (s.plDone t.val (plOp w) a (p.putMask w (fun e =>
      condBit (plArg w % 8) (sext 32 (p.el (p.sa w) e) - sext 32 (p.b w e)) true)))) ∧
    (∀ c g, (plOp w = 0x38 ∧ c = .mkand t ∧ g = and) ∨ (plOp w = 0x39 ∧ c = .mkor t ∧ g = or) →
      Runs c s (s.plDone t.val (plOp w) a (p.putMask w (fun e => g (p.aMask w e) (p.bMask w e))))) ∧
    (plOp w = 0x3A → Runs (.mknot t) s (s.plDone t.val (plOp w) a (p.putMask w (fun e =>
      !p.aMask w e)))) ∧
    (plOp w = 0x3B → Runs (.mkrange t) s (s.plDone t.val (plOp w) a (p.putMask w (fun e =>
      decide (bitsOf (plArg w) 0 4 ≤ e / 32) && decide (e / 32 ≤ bitsOf (plArg w) 4 4) &&
      decide (bitsOf (plArg w) 8 5 ≤ e % 32) && decide (e % 32 ≤ bitsOf (plArg w) 16 5))))) ∧
    (plOp w = 0x3C → Runs (.sel t f) s (s.plDone t.val (plOp w) a (p.put (w - 2 ^ 26 * plMask w) (p.dst w) (fun e =>
      let v := if p.governs w e then p.el (p.sa w) e else p.b w e
      (v, nanFlag v))))) ∧
    (plOp w = 0x3D → Runs (.mov t f) s (s.plDone t.val (plOp w) a (p.put w (p.dst w) (fun e => (p.b w e, nanFlag (p.b w e)))))) ∧
    (∀ c (g : Nat → Conv), (plOp w = 0x48 ∧ c = .cvtif t f ∧ g = (fun x => { bits := cvtif x })) ∨
        (plOp w = 0x49 ∧ c = .cvtfi t f ∧ g = cvtfi) ∨
        (plOp w = 0x4A ∧ c = .qnt8 t f ∧ g = (fun x => quantF x (p.sc.getD (plSc w) 0) 127)) ∨
        (plOp w = 0x4B ∧ c = .qnt8s t f ∧ g = (fun x => quantS x (sext 8 (plArg w)) 127)) ∨
        (plOp w = 0x4C ∧ c = .qnt4 t f ∧ g = (fun x => quantF x (p.sc.getD (plSc w) 0) 7)) ∨
        (plOp w = 0x4D ∧ c = .qnt4s t f ∧ g = (fun x => quantS x (sext 8 (plArg w)) 7)) →
      Runs c s (s.plDone t.val (plOp w) a (p.put w (p.dst w) (fun e =>
        ((g (p.el (p.sa w) e)).bits, convFlags (g (p.el (p.sa w) e)) false))))) ∧
    (plOp w = 0x4E → Runs (.frbf t f) s (s.plDone t.val (plOp w) a (p.put w (p.dst w) (fun e =>
      let c := toBf16 (fp32 (p.el (p.sa w) e))
      (toFp32 (bf16 c.bits), convFlags c (isNan32 (toFp32 (bf16 c.bits)))))))) ∧
    (∀ c g, (plOp w = 0x50 ∧ c = .rsum t f ∧ g = fadd) ∨ (plOp w = 0x51 ∧ c = .rmax t f ∧ g = fmax) →
      Runs c s (s.plDone t.val (plOp w) a (p.put w (p.dst w) (fun e => ((List.range 16).map (fun r =>
        treeFold g 5 ((List.range 32).map (fun k => (p.el (p.sa w) (32 * r + k), 0))))).getD (e / 32) (0, 0))))) ∧
    (∀ c g, (plOp w = 0x52 ∧ c = .csum t f ∧ g = fadd) ∨ (plOp w = 0x53 ∧ c = .cmax t f ∧ g = fmax) →
      Runs c s (s.plDone t.val (plOp w) a (p.put w (p.dst w) (fun e => ((List.range 32).map (fun k =>
        treeFold g 4 ((List.range 16).map (fun r => (p.el (p.sa w) (32 * r + k), 0))))).getD (e % 32) (0, 0)))))


/-- The timed events of the part complete: the halving of the sketches (R248), the temperature sample (R205), the end of
the advisory hold-off (R209), a thermal trip (R210), the Patina sample and the daily point (R454, R456), and the write of
the next dump record (R471). -/
def Obligations.TimedEventsComplete : Prop :=
  (∀ s : State, s.tick ≠ 0 → s.tick % 65536 = 0 → s.halved ≠ s.tick →
    Runs .sketchHalving s { s with
      sketch := (s.sketch.map (fun e => (e.1, e.2 / 2))).filter (fun e => e.2 != 0)
      halved := s.tick }) ∧
  (∀ (s s1 s2 s3 : State) (rs : List (List (Option Nat))) (base : Nat),
    s1 = (List.range 8).foldl (fun t i => t.stackSample i ((rs[i]?).getD [])) s →
    s2 = (s1.wr F.PWR_TEMP_BASE_MAX 0 (tempCode base)).wr F.PLD_COND_ADVISORY 16 (if s1.advisory = 0 then 0 else 1) →
    s3 = (if s2.advisory ≠ s2.advSet ∧ s2.advFree = true then s2.raiseAdvisory else s2) →
    (s3.ready = false ∨ s3.rawTier = s.rawTier → Runs (.tempSample rs base) s s3) ∧
    (s3.ready = true → s3.rawTier ≠ s.rawTier → Runs (.tempSample rs base) s s3.tierArrives)) ∧
  (∀ s : State, s.advNs.isSome = true → s.advFree = true → s.advisory ≠ s.advSet →
    Runs .advisoryHoldoffEnd s s.raiseAdvisory) ∧
  (∀ (s : State) (k : Nat), Ends (.thermalTrip k) s (fun t => t.board.trip = true ∧ t.board.coldNext = true ∧
    t.patina.trips = s.patina.trips ++ [(k, s.ns)] ∧ t.bank = s.bank)) ∧
  (∀ (s s1 s2 : State) (ro bond eye amps : List (Option Nat)) (p1 p2 p3 : Patina), s.mgcRuns = true →
    s1 = (List.range 8).foldl (fun t i => t.cycleMon i) s →
    p1 = (((s1.patina.baseMon 0 ro 8).baseMon 2 bond 8).baseMon 3 eye 13).chargeMon amps →
    p2 = (List.range 256).foldl (fun q v =>
      q.setScore 1 v (score (48 - s1.rdi F.TWR_VSTAT_SPARE_LEFT (v / 32) (v % 32)) 48)) p1 →
    p3 = (List.range 8).foldl (fun q t => q.setScore 5 t (score (SMap.get 0 q.cycles t) 50000)) p2 →
    s2 = (State.showScores { s1 with patina := p3 }).wr F.PAT_STATUS_BAD_MON 0
      (b2n (badMon ro 8) + 4 * b2n (badMon bond 8) + 8 * b2n (badMon eye 13) + 16 * b2n (badMon amps 5)) →
    Runs (.patinaSample ro bond eye amps) s (s2.bump F.PAT_STATUS_SAMPLES 0 1).testLife) ∧
  (∀ (s : State) (p : Patina), s.mgcRuns = true → p = { s.patina with
      days := s.patina.days + 1
      points := (s.patina.days + 1, s.rd F.PAT_INDEX_INDEX 0) :: s.patina.points } →
    Runs .dailyPoint s (State.patLifeUpdate { s with patina := p })) ∧
  (∀ (s : State) (o : Nat) (t : List Nat), s.dumpTodo = o :: t →
    Runs .dumpWrite s (State.dumpTo { s with dumpTodo := t } o))

/-- A BACKGROUND tick of a lane, or any tick of it while no frame is in force, serves the lane's turn and counts (R433, R435,
R541); RETIRE takes a vault out (R222); a sweep or a test queues Assay runs when a pack is in force, its fence waiting for
them, and so does the interval of INTERVAL seconds (R450); an ENGINE reset starts on an engine when none is under way
(R419). -/
def Obligations.TowerAndAssayCommandsComplete : Prop :=
  (∀ (s s1 : State) (l : Nat) (output : List Byte), s.ready = true → isEngineLane l = true → s.pwr ≠ pwStandby →
    s.frame = none ∨ s.kindNow l = .background → (l < 0x100 → s.retired l = false) →
    s1 = { s with bgTicks := SMap.put 0 s.bgTicks l (SMap.get 0 s.bgTicks l + 1) } → s1.overrun l = none →
    Runs (.backgroundTick l output) s ((s1.serveTurn l (SMap.get 0 s.bgTicks l % 8) output).countBg l)) ∧
  (∀ (s : State) (t : Fin 8) (v : Fin 32) (fe : Option Nat), s.ready = true → s.opBusy .twr t.val = false →
    s.retired (32 * t.val + v.val) = false →
    Runs (.twrRetire .pf t v fe) s
      (((s.wr F.TWR_CMD_STATUS_STATUS t.val 0).retireVault (32 * t.val + v.val)).doneFence 16 fe ⟨.twr, t.val⟩ none)) ∧
  (∀ (s s1 s2 : State) (fe f : Option Nat) (ls : List Nat), s.ready = true → s.opBusy .asy 0 = false →
    s.assay.force.isSome = true → ls = engineLanes.filter (fun l => !(s.wr F.ASY_STATUS_STATUS 0 0).benched l) →
    s1 = ls.foldl (fun t l => t.schedule l) (s.wr F.ASY_STATUS_STATUS 0 0) → s1.takeFence 16 fe ⟨.asy, 0⟩ = (f, s2) →
    (f = none → Runs (.asySweep .pf fe) s s2) ∧
    (∀ n, f = some n → ls = [] → Runs (.asySweep .pf fe) s (s2.signal n none)) ∧
    (∀ n, f = some n → ls ≠ [] → Runs (.asySweep .pf fe) s
      { s2 with assay := { s2.assay with sweeps := s2.assay.sweeps ++ [(n, ls)] } })) ∧
  (∀ (s s2 : State) (b i l : Nat) (fe f : Option Nat), s.ready = true → s.opBusy .asy 0 = false →
    s.assay.force.isSome = true → engineLane b i = some l → s.benched l = false →
    ((s.wr F.ASY_STATUS_STATUS 0 0).schedule l).takeFence 16 fe ⟨.asy, 0⟩ = (f, s2) →
    (f = none → Runs (.asyTest .pf b i fe) s s2) ∧
    (∀ n, f = some n → Runs (.asyTest .pf b i fe) s
      { s2 with assay := { s2.assay with tests := s2.assay.tests ++ [(n, l)] } })) ∧
  (∀ (s s1 : State) (n : Nat), s.ready = true → n = s.rd F.ASY_CFG_INTERVAL 0 * 1000000000 → n ≠ 0 →
    s.assay.sweepNs + n ≤ s.ns →
    s1 = { s with assay := { s.assay with sweepNs := s.assay.sweepNs + (s.ns - s.assay.sweepNs) / n * n } } →
    (s.assay.force.isSome = true → Runs .assaySweepInterval s
      ((engineLanes.filter (fun l => !s1.benched l)).foldl (fun t l => t.schedule l) s1)) ∧
    (s.assay.force = none → Runs .assaySweepInterval s s1)) ∧
  (∀ (s s1 : State) (b i l : Nat) (fe f : Option Nat), s.ready = true → s.engReset = none → engineLane b i = some l →
    s.takeFence 16 fe ⟨.twr, 8⟩ = (f, s1) → Runs (.rstEngine .pf b i fe) s
      { (s1.wr F.RST_ENGINE_STATUS_BUSY 0 1).wr F.RST_ENGINE_STATUS_BG_TICKS 0 0 with engReset := some (l, 0, f) })


/-- Each event that Table — Link states lists for a port in a state moves it as the table says (R365 to R367), and the
authentication of a session ends in KEYED or, when a condition of R369 holds, in quarantine (R368, R369, R371). -/
def Obligations.LinkStateEventsComplete : Prop :=
  (∀ (s : State) (n : Fin 12), s.cwSt n = cwDown → s.portEff n = true → s.portUsable n = true →
    Ends (.linkEnable n) s (fun t => t.cwSt n = cwSeek)) ∧
  (∀ (s : State) (n : Fin 12), s.cwSt n = cwSeek → Ends (.signalDetect n) s (fun t => t.cwSt n = cwTrain)) ∧
  (∀ (s : State) (n : Fin 12), s.cwSt n = cwSeek → (s.port n).since + 1000000000 ≤ s.ns →
    Ends (.seekRetry n) s (fun t => t.cwSt n = cwSeek ∧ (t.port n).since = s.ns)) ∧
  (∀ (s : State) (n number : Fin 12) (peer : BitVec 8) (domain : BitVec 16) (rtt : Nat), s.cwSt n = cwTrain →
    (domain.toNat = s.rd F.CW_ID_DOMAIN 0 → Runs (.trainComplete n peer domain number rtt) s
      ((s.helloIn n peer.toNat domain.toNat number).trained n peer.toNat rtt)) ∧
    (domain.toNat ≠ s.rd F.CW_ID_DOMAIN 0 →
      Runs (.trainComplete n peer domain number rtt) s ((s.helloIn n peer.toNat domain.toNat number).helloBad n) ∧
      Runs (.helloMismatch n peer domain number) s ((s.helloIn n peer.toNat domain.toNat number).helloBad n))) ∧
  (∀ (s : State) (n : Fin 12) (peer rtt : Nat), peer < 2 ^ 8 → ceilDiv rtt 2 < 2 ^ 16 → s.devId ≥ peer →
    (s.trained n peer rtt).cwSt n = cwAuth ∧ (s.trained n peer rtt).rd F.CW_STATE_LAT_NS n = ceilDiv rtt 2 ∧
    (s.trained n peer rtt).rd F.CW_STATE_PEER n = peer ∧ ((s.trained n peer rtt).port n).credits = [64, 64, 64, 64] ∧
    ((s.trained n peer rtt).port n).anchors = trustAnchors s.trust) ∧
  (∀ (s : State) (n : Fin 12), s.cwSt n = cwTrain → (s.port n).since + 500000000 ≤ s.ns →
    Runs (.trainTimeout n) s (((s.cwMove n cwSeek).bump F.CW_CNT_LINK_TRAIN_TIMEOUTS n 1).countRetrain n)) ∧
  (∀ (s : State) (n : Fin 12), s.cwSt n = cwAuth ∨ s.cwSt n = cwKeyed → (s.port n).since + 200000000 ≤ s.ns →
    Runs (.authTimeout n) s (((s.cwMove n cwSeek).cwDiscard n).countRetrain n)) ∧
  (∀ (s : State) (n : Fin 12) (x : Session), s.cwSt n = cwAuth →
    (s.authentic n x = true → Ends (.spdmSessionEstablished n x) s (fun t => t.cwSt n = cwKeyed ∧ (t.port n).txSn = 0 ∧
      (t.port n).rxSn = 0 ∧ (t.port n).txKey = x.txKey ∧ (t.port n).rxKey = x.rxKey)) ∧
    (s.authentic n x = false → ∀ c, c = .spdmSessionEstablished n x ∨ c = .authFailure n x →
      Runs c s ((s.bumpSat F.CW_CNT_HOSTILE_AUTH_FAIL n 0 1).quarantine n qcAuth))) ∧
  (∀ (s : State) (n : Fin 12) (b body : List Byte), s.cwSt n = cwKeyed → s.flitFit n b = true →
    s.flitOpen n b = some body →
    Ends (.firstFlitVerified n b) s (fun t => t.cwSt n = cwUp ∧ (t.port n).keepNs = s.ns))

/-- In the states that take flits, a data flit whose CRC, header and tag are right and whose SEQ is the expected one is
accepted, and one that is damaged is NAKed (R361 to R363); each control flit has its effect, and a damaged one is a NAK cause
(R361, R363, R364). A burst of uncorrectable codewords or missing keep-alives retrain the link (R367), keep-alives go out
(R364), and a key update starts the flits of a key again while SN goes on (R370). -/
def Obligations.FlitEventsComplete : Prop :=
  (∀ (s : State) (n : Fin 12) (b body : List Byte), s.cwSt n = cwAuth ∨ s.cwSt n = cwKeyed ∨ s.cwSt n = cwUp →
    (s.flitFit n b = false → Runs (.dataFlitReceived n b) s (s.sendNak n)) ∧
    (s.flitFit n b = true → s.flitOpen n b = some body → bitsOf (flitHdr b) 20 12 = (s.port n).rxSn % 4096 →
      (s.port n).held.getD (bitsOf (flitHdr b) 0 2) 0 < 64 →
      Runs (.dataFlitReceived n b) s ((s.linkUp n).acceptFlit n (flitHdr b) body)) ∧
    (s.flitFit n b = true → s.flitOpen n b = none → bitsOf (flitHdr b) 20 12 = (s.port n).rxSn % 4096 →
      Runs (.dataFlitReceived n b) s ((s.hostile n F.CW_CNT_HOSTILE_TAG_FAIL).sendNak n))) ∧
  (∀ (s : State) (n : Fin 12) (b : List Byte) (h : Nat), s.cwSt n = cwAuth ∨ s.cwSt n = cwKeyed ∨ s.cwSt n = cwUp →
    h = flitHdr b →
    (ctrlOk b = true → ctrlHdrOk kindIdle h = true → bitsOf h 8 22 = 0 → Runs (.controlFlitIdle n b) s s) ∧
    (ctrlOk b = true → ctrlSeqOk kindAck h = true → Runs (.controlFlitAck n b) s (s.rxAck n (seqPoint h))) ∧
    (ctrlOk b = true → ctrlSeqOk kindNak h = true → Runs (.controlFlitNak n b) s (s.rxNak n (seqPoint h))) ∧
    (ctrlOk b = true → ctrlHdrOk kindCredit (h - bitsOf h 20 10 * 2 ^ 20) = true → bitsOf h 8 12 = 0 →
      Runs (.controlFlitCredit n b) s (s.rxCredit n h)) ∧
    (ctrlOk b = false → ∀ c, c = .controlFlitIdle n b ∨ c = .controlFlitAck n b ∨ c = .controlFlitNak n b ∨
      c = .controlFlitCredit n b → Runs c s (s.sendNak n))) ∧
  (∀ (s : State) (n : Fin 12) (k : Nat), s.cwSt n = cwTrain ∨ s.cwSt n = cwAuth ∨ s.cwSt n = cwKeyed ∨ s.cwSt n = cwUp →
    (8 ≤ k → Runs (.fecBurst n k) s (((s.bump F.CW_CNT_LINK_UNCORR_BURSTS n 1).count (portCnt n 5) k).retrain n)) ∧
    (k < 8 → Runs (.fecBurst n k) s (s.count (portCnt n 5) k))) ∧
  (∀ (s : State) (n : Fin 12), s.cwSt n = cwUp → (s.port n).keepSent + 1000000 ≤ s.ns →
    Runs (.keepaliveSend n) s ((s.modPort n (fun p => { p with keepSent := s.ns })).say n keepAliveMsg)) ∧
  (∀ (s : State) (n : Fin 12), s.cwSt n = cwUp → (s.port n).keepNs + 10000000 ≤ s.ns →
    Runs (.keepaliveMissing n) s (s.retrain n)) ∧
  (∀ (s : State) (n : Fin 12) (key salt : List Byte), s.cwSt n = cwKeyed ∨ s.cwSt n = cwUp →
    Runs (.keyUpdate n true key salt) s
      (s.modPort n (fun p => { p with txKey := key, txSalt := salt, keyFlits := 0 })) ∧
    Runs (.keyUpdate n false key salt) s (s.modPort n (fun p => { p with rxKey := key, rxSalt := salt })))

/-- RETRAIN and PORT_RESET (R365, R420), the end of a second for SLOW (R387), the grant commands (R376, R377), transit
(R372, R374), and the service of requests and responses (R374, R382 to R385): a request is checked or, without budget,
dropped; an answer leaves by the port on which its request came; a response that is as its request asks closes it. -/
def Obligations.CausewayCommandsComplete : Prop :=
  (∀ (s : State) (n : Fin 12), s.ready = true → s.cwSt n = cwUp →
    Runs (.cwRetrain .pf n) s ((s.cwMove n cwTrain).cwDiscard n)) ∧
  (∀ (s : State) (n : Fin 12), s.ready = true → s.cwSt n ≠ cwQuar →
    Ends (.cwPortReset .pf n) s (fun t => t.cwSt n = cwDown)) ∧
  (∀ (s : State) (n : Fin 12), (s.port n).lateSec + 1 ≤ s.ns / 1000000000 →
    Ends (.slowUpdate n) s (fun t => (t.port n).lateSec = s.ns / 1000000000 ∧
      (t.port n).lateBase = s.rd F.CW_CNT_SVC_LATE_RCVD n ∧
      (s.lateGrowth n < s.rd F.CW_POLICY_SLOW_LIMIT n ∨ (s.port n).lateSec + 1 < s.ns / 1000000000 →
        t.rd F.CW_STATE_SLOW n = 0) ∧
      (s.rd F.CW_POLICY_SLOW_LIMIT n ≤ s.lateGrowth n → s.ns / 1000000000 = (s.port n).lateSec + 1 →
        t.rd F.CW_STATE_SLOW n = s.rd F.CW_STATE_SLOW n))) ∧
  (∀ s : State, s.ready = true →
    s.grantCheck (s.grant (s.rd F.CW_GNT_SEL_SLOT 0)) (grantW s.gntWords) = 0 →
    Ends (.cwGntWrite .pf) s (fun t => t.grant (s.rd F.CW_GNT_SEL_SLOT 0) =
      { words := s.gntWords, st := gValid, suspended := false })) ∧
  (∀ s : State, s.ready = true → (s.grant (s.rd F.CW_GNT_SEL_SLOT 0)).st = gValid →
    s.reserved (s.rd F.CW_GNT_SEL_SLOT 0) = 0 →
    Ends (.cwGntRevoke .pf) s (fun t => (t.grant (s.rd F.CW_GNT_SEL_SLOT 0)).st = gRevoked)) ∧
  (∀ s : State, s.ready = true → Runs (.cwGntRead .pf) s (((List.range 8).foldl (fun t i => t.wri F.CW_GNT_W_WORD 0 i
    ((s.grant (s.rd F.CW_GNT_SEL_SLOT 0)).words.getD i 0)) s).wr F.CW_GNT_STATUS_STATUS 0 0)) ∧
  (∀ (s s1 : State) (n : Fin 12) (i : Nat) (x : Transit) (b : List Byte), s.nextTransit n = some (i, x) →
    s.cwSt x.out = cwUp → SMap.get 0 (s.port n).mid x.flit.key < 2 →
    s1 = (State.freeBuf { s with transit := s.transit.eraseIdx i } n x.flit.vc 1).modPort n
      (fun p => { p with mid := SMap.put 0 p.mid x.flit.key (if x.flit.last then 0 else 1) }) →
    (if SMap.get 0 (s.port n).mid x.flit.key = 0 ∧ reqVc x.flit.vc = true
      then hopHeader (s.rd F.CW_STATE_LAT_NS n) (s.ns - x.ns) x.flit.body else some x.flit.body) = some b →
    Runs (.flitForward n) s
      ((s1.sendFlit x.out x.flit.vc x.flit.last x.flit.dst x.flit.src b).count (portCnt x.out 6) 1)) ∧
  (∀ (s s1 : State) (n : Fin 12) (m : Msg), s.asleep = false → s.takeMsg n reqVc = some (m, s1) →
    (∀ b, hopHeader (s1.rd F.CW_STATE_LAT_NS n) 0 m.body = some b → Runs (.requestIngress n) s (s1.ingressChecks m b)) ∧
    (hopHeader (s1.rd F.CW_STATE_LAT_NS n) 0 m.body = none →
      Runs (.requestIngress n) s (s1.bump F.CW_CNT_SVC_NO_ROUTE n 1))) ∧
  (∀ (s s1 : State) (n : Fin 12) (tag i st len : Nat) (ev : GatherEv) (v : Service) (data : List Byte), s.asleep = false →
    s.services.findIdx? (fun v => v.port == n.val && v.tag == tag &&
      decide (v.done ≤ s.tick) && (v.status == 0 || decide (s.kindNow (0x140 + n.val) = .service))) = some i →
    s.services[i]? = some v → s.cwSt n = cwUp → s.respFlits v ≤ (s.port n).credits.getD 1 0 →
    (s.port n).retry.length + s.respFlits v ≤ 256 → s.canSend n 1 = true →
    ({ s with services := s.services.eraseIdx i } : State).serve v ev = (st, len, data, s1) →
    Runs (.requestServiceComplete n tag ev) s ((State.sendMsg n 1 v.src 64
      (if v.status ≠ 0 then s1 else if st = 0 then s1.countP (grantW (s.grant v.slot).words).polder 132 1
        else (s1.count (portCnt n 8) 1).countP (grantW (s.grant v.slot).words).polder 133 1)
      (leBytes 4 tag ++ leBytes 2 st ++ leBytes 2 len ++ leBytes 8 0 ++ data)).settleGrant v.slot)) ∧
  (∀ (s s1 s2 : State) (n : Fin 12) (m : Msg) (q : Request) (r : Run), s.takeMsg n (· == 1) = some (m, s1) →
    s2 = s1.count (portCnt n 9) 1 →
    s2.requests.find? (fun q => q.open_ && q.tag == numAt m.body 0 4) = some q →
    bitsOf (numAt m.body 4 4) 0 4 = 0 → numAt m.body 6 2 = q.len → s2.run? q.run = some r →
    (∀ s3, q.push = true → s3 = (s2.closeReq q none).countP q.owner 129 1 → s3.act? q.run q.step = none →
      Runs (.responseReceived n) s s3) ∧
    (∀ s3 s4, q.push = false → s.respHole q = (false, none) → 16 + q.len ≤ m.body.length →
      s2.writeVa r.ctx q.dst (slice m.body 16 q.len) false (.run r.id r.owner) = (none, s3) →
      s4 = (s3.closeReq q none).countP q.owner 129 1 → s4.act? q.run q.step = none →
      Runs (.responseReceived n) s s4) ∧
    (∀ s3 s4 a b, q.push = true → s3 = (s2.closeReq q none).countP q.owner 129 1 → s3.act? q.run q.step = some a →
      s3.descOf a = (.bytes b, s4) → Runs (.responseReceived n) s (s4.remoteCheck a (remDesc b))))

/-- A legal write of `PWR_REQ` (R397): the request's STATE and LEVEL are taken together, and a state that is left for less
than ACTIVE halts the long operations (R428). An illegal change of STATE is recorded and changes nothing. The moves between
power states that no write makes follow (R397, R399), the removal of power (R391), and the reports of the regulators (R395,
R403). That every tick serves as a boundary while no frame is in force is the model's (notes/assumptions/125.md). -/
def Obligations.PowerRequestsAndEventsComplete : Prop :=
  (∀ (s : State) (l : Fin 4), s.ready = true →
    Runs (.pwrReqLevel .pf l) s (s.setLevelMaster F.PWR_REQ_LEVEL l.val)) ∧
  (∀ (s s0 : State) (l : Fin 4) (c : Instr) (r st : Nat), s.ready = true → s.rd F.PWR_REQ_STATE 0 ≠ r →
    pwrNext s.pwr r = some st → s0 = (if s.pwr = pwStandby then { s with turn := 0 } else s) →
    (r = 0 ∧ c = .pwrReqActive .pf l →
      Runs c s (((s0.wr F.PWR_REQ_STATE 0 r).pwrMove st).setLevelMaster F.PWR_REQ_LEVEL l.val)) ∧
    ((r = 1 ∧ c = .pwrReqStandby .pf l) ∨ (r = 2 ∧ c = .pwrReqRetain .pf l) ∨ (r = 3 ∧ c = .pwrReqOff .pf l) →
      Runs c s (((s0.wr F.PWR_REQ_STATE 0 r).pwrMove st).setLevelMaster F.PWR_REQ_LEVEL l.val).haltOps)) ∧
  (∀ (s : State) (l : Fin 4) (c : Instr) (r : Nat), s.ready = true → s.rd F.PWR_REQ_STATE 0 ≠ r → pwrNext s.pwr r = none →
    (r = 0 ∧ c = .pwrReqActive .pf l) ∨ (r = 1 ∧ c = .pwrReqStandby .pf l) ∨ (r = 2 ∧ c = .pwrReqRetain .pf l) ∨
      (r = 3 ∧ c = .pwrReqOff .pf l) → Runs c s (s.illegal .power 0 0x040)) ∧
  (∀ s : State, s.pwr = pwStandbyPending → s.quiet = true → s.atBoundary = true →
    Ends .standbyEntry s (fun t => t.pwr = pwStandby)) ∧
  (∀ s : State, s.pwr = pwWaking → Ends .wakeComplete s (fun t => t.pwr = pwActive)) ∧
  (∀ s : State, s.pwr = pwRetainPending → s.board.retain = false → s.quiet = true → s.atBoundary = true →
    Ends .retainEntry s (fun t => t.board.retain = true ∧ t.board.coreEn = false ∧ t.board.planes = false ∧ t.phase = 0)) ∧
  (∀ s : State, s.pwr = pwOffPending → s.quiet = true → s.atBoundary = true →
    Ends .offReadyEntry s (fun t => t.pwr = pwOffReady ∧ t.rd F.PWR_STATUS_READY_FOR_OFF 0 = 1)) ∧
  (∀ (s : State) (c : Instr), c = .powerRemoval ∨ (c = .railRemoval ∧ s.pwr = pwOffReady) →
    Ends c s (fun t => t.board.aon = false ∧ t.ready = false ∧ t.vault = [] ∧ t.mere = [] ∧ t.bank = s.bank ∧
      t.patina = s.patina)) ∧
  (∀ s : State, s.board.retain = true → s.board.coreEn = true → s.board.pwrGood = true →
    Runs .retainExit s (State.beginReset { s with link := if s.board.perst then .l0 else .down } 6).restart) ∧
  (∀ s : State, s.mgcRuns = true → s.rail = s.effLevel → s.rd F.PWR_STATUS_RAIL_OK 0 ≠ 1 →
    (s.ready = true → Runs .railOkRise s (s.wr F.PWR_STATUS_RAIL_OK 0 1).levelArrives) ∧
    (s.ready = false → Runs .railOkRise s (s.wr F.PWR_STATUS_RAIL_OK 0 1))) ∧
  (∀ (s : State) (rs : List Nat), s.mgcRuns = true → s.reports < 999 →
    Ends (.boardPowerReport (rs.map some)) s (fun t => t.rd F.PWR_BOARD_POWER 0 = min 65535 (rs.sum / 125) ∧
      t.rd F.PWR_BOARD_STALE 0 = 0 ∧ t.reports = s.reports + 1 ∧ t.energyUj = (s.energyUj + rs.sum) % 1000))

/-- Each cause of a reset performs the reset that Table — Resets gives it (R38, R409, R410, R414, R421, R478). A pending
request is taken when no reset is in progress, and at once when none is; RST_CMD with SCOPE 0 to 2 is the host's last order
(R31), SCOPE 3 leaves the field, and MGC with SCOPE 2 is absorbed (R411). A VF FLR clears the VF's MSI-X table and PBA in a
FREE polder too. -/
def Obligations.ResetsComplete : Prop :=
  (∀ (s : State) (c : Instr), c = .coldReset ∨ c = .warmReset → s.board.aon = true → s.resetting = false →
    0 < max (s.rd F.JCT_RESET_HOST_SCOPE 0) (s.rd F.JCT_RESET_MGC_SCOPE 0) → Runs c s (s.beginReset 5).restart) ∧
  (∀ (s : State) (c : Instr), c = .coldReset ∨ c = .warmReset → s.resetting = true → Runs c s s) ∧
  (∀ (s : State) (n : Nat), max (s.rd F.JCT_RESET_HOST_SCOPE 0) (s.rd F.JCT_RESET_MGC_SCOPE 0) < 2 →
    s.beginReset n = s.warmReset n) ∧
  (∀ (s : State) (n : Nat), max (s.rd F.JCT_RESET_HOST_SCOPE 0) (s.rd F.JCT_RESET_MGC_SCOPE 0) = 2 →
    s.beginReset n = s.coldReset) ∧
  (∀ s : State, s.board.cold = false → s.phase = phRestore ∨ s.phase = phZero → Runs .warmReady s s.goReady) ∧
  (∀ s s1 : State, s.board.aon = true → s.board.perst = true →
    s1 = { s with board := { s.board with perst := false }, link := .down } →
    (s.board.retain = false → Runs .perstNAssert s (s1.beginReset 2)) ∧
    (s.board.retain = true → Runs .perstNAssert s { s1 with board := { s1.board with coreEn := true } })) ∧
  (∀ s : State, s.board.planes = true → Runs .hotReset s (s.beginReset 3).restart ∧ Runs .pfFlr s (s.beginReset 4).restart) ∧
  (∀ (s : State) (p : Fin 16), s.ready = true →
    Runs (.vfFlr p) s (State.functionReset { s with
      msix := SMap.clear (fun k => k / 4096 == p.val) s.msix
      pba := SMap.clear (fun k => k / 4096 == p.val) s.pba } p.val false)) ∧
  (∀ (s : State) (k : Fin 4), s.board.planes = true →
    (k.val < 3 → Ends (.rstCmdScope .pf k) s (fun t => t.rd F.JCT_RESET_HOST_SCOPE 0 = k.val)) ∧
    (k.val = 3 → Runs (.rstCmdScope .pf k) s s ∧ Runs (.rstCmdMgc .pf k) s s.mgcReset) ∧
    (k.val < 2 → Runs (.rstCmdMgc .pf k) s (s.wr F.JCT_RESET_HOST_SCOPE 0 k.val).mgcReset) ∧
    (k.val = 2 → Runs (.rstCmdMgc .pf k) s (s.wr F.JCT_RESET_HOST_SCOPE 0 2))) ∧
  (∀ s : State, s.mgc.up = true → Ends .mgcWatchdogExpiry s (fun t => t.mgc.up = false ∧ t.mgc.held = [] ∧
    t.eventReceiver = none ∧ t.bank = s.bank))

/-- The events of a start (R476, R498, R501 to R510): each does what Table — Start does in the phase in which it comes, and
one that does not fit the phase changes nothing. A training attempt has 45 ms, a start 400 ms. A legal write of `PMX_SBn`
that moves a pin's function or polarity parks the pin, one to a parked pin is queued, any other applies at once, and an
illegal one is an illegal value (R520, R521); the end of the park gives the pin its settings (R522); an edge on an unparked
FRAME_SYNC_IN pin is recorded (R526). -/
def Obligations.StartUpAndPinEventsComplete : Prop :=
  (∀ s : State,
    (s.board.aon = true → Runs .vddAonPowerUp s s) ∧
    (s.board.aon = false → Runs .vddAonPowerUp s
      (State.coldValues { s.powerOff with board := { s.powerOff.board with aon := true, coreEn := true } }))) ∧
  (∀ (s s1 : State) (k : Fin 16),
    (s.board.aon = false ∨ s.board.pwrGood = true → Runs (.pwrGoodRise k) s s) ∧
    (s.board.aon = true → s.board.pwrGood = false →
      s1 = { s with board := { s.board with pwrGood := true, strapped := true } } →
      (s.board.strapped = false → s.board.coldNext = false →
        Runs (.pwrGoodRise k) s ((s1.wr F.RST_BOOT_STRAPS 0 k.val).setPhase phMgcBoot)) ∧
      (s.board.strapped = false → s.board.coldNext = true → Runs (.pwrGoodRise k) s
        (((s1.wr F.RST_BOOT_STRAPS 0 k.val).setPhase phMgcBoot).wr F.JCT_RESET_MGC_SCOPE 0 2)) ∧
      (s.board.strapped = true → s.board.coldNext = false → Runs (.pwrGoodRise k) s s1) ∧
      (s.board.strapped = true → s.board.coldNext = true →
        Runs (.pwrGoodRise k) s (s1.wr F.JCT_RESET_MGC_SCOPE 0 2)))) ∧
  (∀ s : State,
    (s.board.pwrGood = false → Runs .pwrGoodFall s s) ∧
    (s.board.pwrGood = true → s.board.coreEn = false →
      Runs .pwrGoodFall s { s with board := { s.board with pwrGood := false } }) ∧
    (s.board.pwrGood = true → s.board.coreEn = true → Runs .pwrGoodFall s (State.setPhase { s with
      board := { s.board with pwrGood := false, planes := false, coldNext := true, trip := false }
      runs := [], ended := [], ops := [] } phRails))) ∧
  (∀ s : State,
    (s.board.aon = false ∨ s.board.perst = true → Runs .perstNRelease s s) ∧
    (s.board.aon = true → s.board.perst = false → Runs .perstNRelease s
      { s with board := { s.board with perst := true, perstNs := s.ns }, link := .l0 })) ∧
  (∀ s : State, (s.mayStart = true → Runs .planesStart s s.planesGo) ∧ (s.mayStart = false → Runs .planesStart s s)) ∧
  (∀ (s : State) (t : Fin 8),
    (s.phase = phTrain → s.trainOf t.val < 2 → s.trainSince t.val ≤ trainNsMax →
      ((s.setTrain t.val 2).board.train.all (· == 2) = true →
        Runs (.stackTrainDone t) s ((s.setTrain t.val 2).setPhase phZero)) ∧
      ((s.setTrain t.val 2).board.train.all (· == 2) = false → Runs (.stackTrainDone t) s (s.setTrain t.val 2))) ∧
    (s.phase ≠ phTrain ∨ 2 ≤ s.trainOf t.val ∨ trainNsMax < s.trainSince t.val → Runs (.stackTrainDone t) s s)) ∧
  (∀ (s s1 : State) (t : Fin 8),
    (s.phase ≠ phTrain ∨ s.trainSince t.val < trainNsMax ∨ 2 ≤ s.trainOf t.val → Runs (.trainAttemptTimeout t) s s) ∧
    (s.phase = phTrain → trainNsMax ≤ s.trainSince t.val →
      (s.trainOf t.val = 0 → Runs (.trainAttemptTimeout t) s
        (State.wr { s with board := { s.board with
            train := s.board.train.set t.val 1, trainNs := s.board.trainNs.set t.val s.ns } }
          F.RST_BOOT_TRAIN_RETRY 0 (setBit (s.rd F.RST_BOOT_TRAIN_RETRY 0) t.val))) ∧
      (s.trainOf t.val = 1 →
        s1 = ((s.setTrain t.val 3).wr F.RST_BOOT_TRAIN_FAIL 0 (setBit (s.rd F.RST_BOOT_TRAIN_FAIL 0) t.val)).startFails 3 →
        Runs (.trainAttemptTimeout t) s (State.setFault
          { s1 with patina := { s1.patina with trainFails := s1.patina.trainFails ++ [(t.val, s1.ns)] } }
          F.JCT_HEALTH_FAULT_DATA 1)))) ∧
  (∀ s : State,
    (s.board.cold = true → s.phase = phZero → Runs .coldZeroDone s s.goReady) ∧
    (s.board.cold = false ∨ s.phase ≠ phZero → Runs .coldZeroDone s s)) ∧
  (∀ s : State,
    (s.board.perst = true → s.phase < phReady → s.board.perstNs + 400000000 ≤ s.ns →
      Runs .startTimeout s ((s.startFails 4).setFault F.JCT_HEALTH_FAULT_DATA 1)) ∧
    (s.board.perst = false ∨ phReady ≤ s.phase ∨ s.ns < s.board.perstNs + 400000000 → Runs .startTimeout s s)) ∧
  (∀ (s s1 : State) (a b : Bool),
    (s.board.aon = false ∨ s.board.strapped = false ∨ s.mgc.up = true → Runs (.mgcBoot a b) s s) ∧
    (s.board.aon = true → s.board.strapped = true → s.mgc.up = false →
      s1 = (if s.board.planes then s else s.pinsStart) →
      (bitAt (s1.rd F.RST_BOOT_STRAPS 0) 3 = true → Runs (.mgcBoot a b) s (s1.romRecovery 2)) ∧
      (bitAt (s1.rd F.RST_BOOT_STRAPS 0) 3 = false →
        (∀ i, s1.bootSlot a b = some i → Runs (.mgcBoot a b) s (s1.firmwareRuns i)) ∧
        (s1.bootSlot a b = none → Runs (.mgcBoot a b) s (s1.romRecovery 1))))) ∧
  (∀ (s s1 : State) (n : Fin 8) (v : Word), s.ready = true →
    (s.pmxLegal n.val v.toNat = false → Runs (.pmxWrite .pf n v) s (s.illegal .pinmux 0 (0x040 + 8 * n.val))) ∧
    (s.pmxLegal n.val v.toNat = true →
      s1 = (pmxFields.foldl (fun (t : State) (f : Fld) => t.wri f 0 n.val (bitsOf v.toNat f.lo f.width)) s).wri
        F.PMX_SB_CUR_FUNC 0 n.val (bitsOf v.toNat 0 4) →
      (s.rdi F.PMX_SB_PARKED 0 n.val = 1 → Runs (.pmxWrite .pf n v) s (s1.wri F.PMX_SB_QUEUED 0 n.val 1)) ∧
      (s.rdi F.PMX_SB_PARKED 0 n.val ≠ 1 →
        (s.rdi F.PMX_SB_FUNC 0 n.val ≠ bitsOf v.toNat 0 4 ∨ s.rdi F.PMX_SB_POL 0 n.val ≠ bitsOf v.toNat 4 1 →
          Runs (.pmxWrite .pf n v) s (s1.wri F.PMX_SB_PARKED 0 n.val 1)) ∧
        (s.rdi F.PMX_SB_FUNC 0 n.val = bitsOf v.toNat 0 4 → s.rdi F.PMX_SB_POL 0 n.val = bitsOf v.toNat 4 1 →
          Runs (.pmxWrite .pf n v) s { s1 with parkPull := SMap.put 0 s1.parkPull n.val (bitsOf v.toNat 5 2) })))) ∧
  (∀ (s s1 : State) (n : Fin 8),
    (s.rdi F.PMX_SB_PARKED 0 n.val = 1 → s.mgc.up = true ∨ s.board.planes = true →
      s1 = (s.wri F.PMX_SB_PARKED 0 n.val 0).wri F.PMX_SB_QUEUED 0 n.val 0 →
      Runs (.parkEnd n) s { s1 with parkPull := SMap.put 0 s1.parkPull n.val (s1.rdi F.PMX_SB_PULL 0 n.val) }) ∧
    (s.rdi F.PMX_SB_PARKED 0 n.val ≠ 1 ∨ (s.mgc.up = false ∧ s.board.planes = false) → Runs (.parkEnd n) s s)) ∧
  (∀ s : State,
    (∀ n : Fin 8, s.rdi F.PMX_SB_CUR_FUNC 0 n.val = 7 → s.rdi F.PMX_SB_PARKED 0 n.val = 0 → Runs .frameSyncInEdge s
      ((s.wr F.PMX_SYNC_IN_TICK 0 (low32 s.tick)).bump F.PMX_SYNC_IN_COUNT 0 1)) ∧
    ((∀ n : Fin 8, s.rdi F.PMX_SB_CUR_FUNC 0 n.val = 7 → s.rdi F.PMX_SB_PARKED 0 n.val ≠ 0) →
      Runs .frameSyncInEdge s s))

/-- A mailbox command of the right length finds the mailbox free and the MGC running its firmware, and is answered (R485,
R486, R490 to R492); the effecters write what they name when the value is legal (R399, R401, R482). -/
def Obligations.MailboxAndEffecterCommandsComplete : Prop :=
  (∀ (s s1 : State) (op : Nat), s.ready = true → s.rd F.MBX_STATUS_BUSY 0 = 0 → s.mgcRuns = true →
    s1 = [(F.MBX_STATUS_BUSY, 1), (F.MBX_STATUS_DONE, 0), (F.MBX_STATUS_OP, op),
      (F.MBX_STATUS_GEN, s.rd F.JCT_RESET_GEN_MGMT 0)].foldl (fun (t : State) (p : Fld × Nat) => t.wr p.1 0 p.2) s →
    (op = 1 → Runs (.mbxGetInfo .pf 0 .done) s s1.mbxGetInfo) ∧
    (op = 2 → Runs (.mbxStrike .pf 224 .done) s
      (s1.strikeCmd.2.mbxAnswer s1.strikeCmd.1.1 (leBytes 8 s1.strikeCmd.1.2))) ∧
    (op = 3 → Runs (.mbxAuthHold .pf 224 .done) s s1.authHold) ∧
    (op = 4 → Runs (.mbxLogRead .pf 8 .done) s s1.logRead) ∧
    (op = 5 → Runs (.mbxPackRead .pf 8 .done) s s1.packRead) ∧
    (op = 6 → Runs (.mbxPatinaRead .pf 8 .done) s s1.patinaRead)) ∧
  (∀ s : State, s.mgcRuns = true →
    (∀ v, s.bank.value hmCap ≤ v → v ≤ 3 →
      Runs (.effecterMgcCeiling v) s ((s.setLevelMaster F.JCT_CEIL_MGC_CEIL v).pldm 2 cmdNumeric [ccOk])) ∧
    (s.board.retain = true → Ends (.effecterLeaveRetain 2) s (fun t => t.board.coreEn = true)) ∧
    (∀ k, 1 ≤ k → k ≤ 3 → Ends (.effecterResetScope k) s (fun t => t.rd F.JCT_RESET_MGC_SCOPE 0 = k - 1)) ∧
    (∀ x, statesOk x 12 = true → Runs (.effecterPortEnable x) s ((s.mgcPorts x).pldm 2 cmdStates [ccOk])) ∧
    (∀ p : Fin 16, s.pst p.val ≠ pFree →
      Runs (.effecterZeroOrder ((List.range 16).map (fun q => if q = p.val then some 2 else none))) s
        ((s.zeroOrder p.val).pldm 2 cmdStates [ccOk])) ∧
    (∀ k, k = 1 ∨ k = 2 →
      Runs (.effecterFault k) s ((s.setFault F.JCT_HEALTH_FAULT_MGC (k - 1)).pldm 2 cmdStates [ccOk])))

/-- The MGC answers MCTP control and PLDM Types 0 and 2 while it is up, Type 2 while it runs its firmware (R477, R479,
R481). Codes and field values are the model's (notes/assumptions/55.md). -/
def Obligations.MctpAndPldmMonitoringCommandsComplete : Prop :=
  (∀ s : State, s.mgc.up = true →
    (∀ e b, 8 ≤ e → e < 255 → Ends (.mctpSetEndpointId b 0 e) s (fun t => t.mgc.eid b = e)) ∧
    (∀ b, Runs (.mctpGetEndpointId b) s (s.emit (.reply protoMctp 2 [0, s.mgc.eid b, 0, 0]))) ∧
    Runs (.mctpGetVersionSupport 0) s (s.emit (.reply protoMctp 4 [0, 1, 0xF1F3FF00])) ∧
    Runs .mctpGetMessageTypeSupport s (s.emit (.reply protoMctp 5 [0, 3, 0x00, 0x01, 0x05])) ∧
    Runs .pldmGetTid s (s.pldm 0 2 [ccOk, s.mgc.tid]) ∧
    (∀ k, 0 < k → k < 255 → Ends (.pldmSetTid k) s (fun t => t.mgc.tid = k)) ∧
    (∀ k, k ∈ s.pldmTypes → Runs (.pldmGetPldmVersion k) s (s.fresh.2.pldm 0 3 [ccOk, s.fresh.1]) ∧
      Runs (.pldmGetPldmCommands k) s (s.pldm 0 5 [ccOk, ((pldmCommands k).map (fun c => 2 ^ c)).sum])) ∧
    Runs .pldmGetPldmTypes s (s.pldm 0 4 [ccOk, (s.pldmTypes.map (fun t => 2 ^ t)).sum])) ∧
  (∀ s : State, s.mgcRuns = true →
    (∀ (h kind id : Nat), 0 < h → pdrs[h - 1]? = some (kind, id) → Runs (.pldmGetPdr h) s
      (s.fresh.2.pldm 2 0x51 [ccOk, if h < pdrs.length then h + 1 else 0, kind, id, s.fresh.1])) ∧
    Runs .pldmGetPdrRepositoryInfo s (s.fresh.2.pldm 2 0x50 [ccOk, 0, pdrs.length, s.fresh.1]) ∧
    (∀ id v, s.numericSensor id = some (true, v) → Runs (.pldmGetSensorReading id) s (s.pldm 2 0x11 [ccOk, 0, v])) ∧
    (∀ id v, s.stateSensor id = some v → Runs (.pldmGetStateSensorReadings id) s (s.pldm 2 0x21 [ccOk, 1, 0, v])) ∧
    (∀ r, Ends (.pldmSetEventReceiver r) s (fun t => t.eventReceiver = r)))

/-- A firmware update goes through its states (R483), and activation makes the slot written the preferred one; a cancel
leaves the preferred slot (R484). -/
def Obligations.FirmwareUpdateCommandsComplete : Prop :=
  ∀ s : State, s.mgc.up = true →
    Runs .pldmQueryDeviceIdentifiers s (s.fresh.2.pldm 5 0x01 [ccOk, s.fresh.1]) ∧
    Runs .pldmGetFirmwareParameters s (s.pldm 5 0x02
      [ccOk, compFirmware, compPack, s.mgc.preferred, (s.mgc.slot 0).version, (s.mgc.slot 1).version]) ∧
    (∀ n, s.mgc.upd.state = upIdle → 32 ≤ n →
      Runs (.pldmRequestUpdate n) s ((s.setUpd { update0 with state := upLearn }).pldm 5 0x10 [ccOk, min 512 n])) ∧
    (s.mgc.upd.state = upLearn → Ends (.pldmPassComponentTable compFirmware true) s
      (fun t => t.mgc.upd.state = upReady ∧ t.mgc.upd.comps = s.mgc.upd.comps ++ [compFirmware])) ∧
    (∀ k n, s.mgc.upd.state = upReady → k ∈ s.mgc.upd.comps → 0 < n → Ends (.pldmUpdateComponent k n) s
      (fun t => t.mgc.upd.state = upDownload ∧ t.mgc.upd.comp = k ∧ t.mgc.upd.size = n ∧ t.mgc.upd.data = [])) ∧
    (∀ bs, s.mgc.upd.state = upDownload → s.mgc.upd.data.length < s.mgc.upd.size →
      bs.length = min 512 (s.mgc.upd.size - s.mgc.upd.data.length) →
      Ends (.pldmRequestFirmwareData bs) s (fun t => t.mgc.upd.data = s.mgc.upd.data ++ bs)) ∧
    (s.mgc.upd.state = upDownload → s.mgc.upd.data.length = s.mgc.upd.size →
      Ends .pldmTransferComplete s (fun t => t.mgc.upd.state = upVerify)) ∧
    (∀ v n, s.mgc.upd.state = upVerify → s.mgc.upd.comp = compFirmware → s.bank.value hmSecurity ≤ v →
      Ends (.pldmVerifyComplete true v n) s (fun t => t.mgc.upd.state = upApply ∧ t.mgc.preferred = s.mgc.preferred ∧
        t.mgc.slots = s.mgc.slots.set s.spareSlot ⟨v, n, some s.mgc.upd.data⟩)) ∧
    (∀ v n b, s.mgc.upd.state = upVerify → s.mgc.upd.comp = compPack → packCrcOk s.mgc.upd.data = true →
      Ends (.pldmVerifyComplete b v n) s (fun t => t.mgc.upd.state = upApply ∧ t.mgc.slots = s.mgc.slots)) ∧
    (s.mgc.upd.state = upApply → s.mgc.upd.comp = compPack →
      Ends .pldmApplyComplete s (fun t => t.mgc.upd.state = upReady ∧ t.mgc.pack = s.mgc.upd.data)) ∧
    (s.mgc.upd.state = upReady → s.mgc.upd.comps = [] → s.mgc.upd.applied = true → s.mgc.recovery = false →
      Ends (.pldmActivateFirmware false) s (fun t => t.mgc.preferred = s.spareSlot ∧ t.mgc.upd = update0)) ∧
    Runs .pldmGetStatus s (s.pldm 5 0x1B [ccOk, s.mgc.upd.state, s.mgc.upd.comp, s.mgc.upd.data.length]) ∧
    (s.mgc.upd.state = upDownload ∨ s.mgc.upd.state = upVerify ∨ s.mgc.upd.state = upApply →
      Ends .pldmCancelUpdateComponent s (fun t => t.mgc.upd.state = upReady ∧ t.mgc.preferred = s.mgc.preferred)) ∧
    (s.mgc.upd.state = upLearn ∨ s.mgc.upd.state = upReady →
      Ends .pldmCancelUpdate s (fun t => t.mgc.upd = update0 ∧ t.mgc.preferred = s.mgc.preferred))

/-- The SPDM requests of R479 and R480 on each binding, each in the phase of the negotiation that it needs. The codes are
the model's (notes/assumptions/55.md). -/
def Obligations.SpdmRequestsComplete : Prop :=
  ∀ (s : State) (d : Bool), s.mgcRuns = true →
    Ends (.spdmGetVersion d) s (fun t => (t.spdm d).phase = 1 ∧ (t.spdm d).sessions = []) ∧
    (1 ≤ (s.spdm d).phase → Ends (.spdmGetCapabilities d) s (fun t => 2 ≤ (t.spdm d).phase)) ∧
    (2 ≤ (s.spdm d).phase → Ends (.spdmNegotiateAlgorithms d 0x80 0x2 0x10 0x2) s (fun t => (t.spdm d).phase = 3)) ∧
    (3 ≤ (s.spdm d).phase →
      Runs (.spdmGetDigests d) s (s.spdmSay d 0x01 [1, ofLe (sha384 Config.certChain)]) ∧
      Runs (.spdmGetCertificate d 0) s (s.spdmSay d 0x02 (0 :: Config.certChain.map BitVec.toNat)) ∧
      Runs (.spdmChallenge d 0) s (s.spdmFree d 0x03 [0]) ∧
      Runs (.spdmGetMeasurements d 0) s (s.spdmFree d 0x60 [4]) ∧
      (∀ i, 1 ≤ i → i ≤ 4 → Runs (.spdmGetMeasurements d i) s
        (s.spdmFree d 0x60 [i, ofLe (sha384 (s.measured i))])) ∧
      (∀ k, (s.spdm d).sessions.any (fun x => x.1 == k) = false →
        Ends (.spdmKeyExchange d 0 k) s (fun t => (t.spdm d).sessions = (s.spdm d).sessions ++ [(k, false)])) ∧
      (∀ k, (k, false) ∈ (s.spdm d).sessions →
        Ends (.spdmFinish d k true) s (fun t => (k, true) ∈ (t.spdm d).sessions)) ∧
      (∀ k, (k, true) ∈ (s.spdm d).sessions →
        Runs (.spdmHeartbeat d k) s (s.spdmSay d 0x68 []) ∧
        (∀ n, Runs (.spdmKeyUpdate d k 1 n) s (s.spdmSay d 0x69 [1, n])) ∧
        Ends (.spdmEndSession d k) s (fun t => ∀ x ∈ (t.spdm d).sessions, x.1 ≠ k)))


/-- A refusal of a strike at check 3 or check 4 appends one log entry with OUTCOME REFUSED_LIMIT or REFUSED_VALUE, and
STRIKE the count plus 1; no setting's value and no strike count changes (R494). -/
def Obligations.LoggedRefusalChangesNoSetting : Prop :=
  ∀ (s t : State) (k j old new i : Nat) (claim ok : Bool) (row : Option (List Byte)) (oc : Nat),
    (s.strike k j claim old new ok row = (.limit i, t) ∧ oc = 1) ∨ (s.strike k j claim old new ok row = (.value i, t) ∧ oc = 2) →
    (∃ e : LogEntry, t.bank.log = s.bank.log ++ [e] ∧ e.outcome = oc ∧ e.setting = k ∧ e.target = j ∧
      e.strike = s.bank.strikes k j + 1) ∧
    (∀ k' j', t.bank.strikes k' j' = s.bank.strikes k' j') ∧ (∀ k', t.bank.value k' = s.bank.value k') ∧
    t.bank.ownerKey = s.bank.ownerKey ∧ ∀ j', t.bank.signer j' = s.bank.signer j'

/-- What a write leaves in memory, and what it leaves alone: a byte that was written reads back, and every other byte of
the vaults and of Mere reads as before; a write that fails changes no byte (R192, R213, R538). -/
def Obligations.MemoryReadsBackAndKeepsTheRest : Prop :=
  (∀ (m : SMap Byte) (k : Nat) (bs : List Byte), readMem (writeMem m k bs) k bs.length = bs ∧
    ∀ j, j < k ∨ k + bs.length ≤ j → SMap.get 0 (writeMem m k bs) j = SMap.get 0 m j) ∧
  (∀ (s t : State) (w : Who) (a v l : Nat) (bs : List Byte), s.locate a = some (v, l) → s.writeVault w a bs = (none, t) →
    readMem t.vault (vaultKey v l) bs.length = bs ∧ t.mere = s.mere ∧
    ∀ j, j < vaultKey v l ∨ vaultKey v l + bs.length ≤ j → SMap.get 0 t.vault j = SMap.get 0 s.vault j) ∧
  (∀ (s t : State) (o : Nat) (bs : List Byte), s.writeMere o bs = (none, t) →
    readMem t.mere o bs.length = bs ∧ t.vault = s.vault ∧
    ∀ j, j < o ∨ o + bs.length ≤ j → SMap.get 0 t.mere j = SMap.get 0 s.mere j) ∧
  (∀ (s t : State) (w : Who) (a : Nat) (bs : List Byte) (e : Err),
    s.writeVault w a bs = (some e, t) ∨ s.writeMere a bs = (some e, t) → t.vault = s.vault ∧ t.mere = s.mere)

/-- FRAME. A Planisher instruction that writes a tile changes no other tile, no mask, no loop counter, no scalar and no
other tile's flags; an element that the mask does not govern keeps its value, or becomes 0 under ZERO, and sets no flag
(R327, R333). One that writes a mask changes no tile, no flag and no other mask. -/
def Obligations.PlanisherWritesOnlyItsDestination : Prop :=
  (∀ (p : Pl) (w tile e : Nat) (f : Nat → Nat × Nat), e < 512 →
    (p.put w tile f).el tile e = (if p.governs w e then (f e).1 else if plZ w then 0 else p.el tile e) ∧
    (∀ n, n ≠ tile → (p.put w tile f).el n e = p.el n e)) ∧
  (∀ (p : Pl) (w tile : Nat) (f : Nat → Nat × Nat),
    (p.put w tile f).masks = p.masks ∧ (p.put w tile f).lc = p.lc ∧ (p.put w tile f).sc = p.sc ∧
    (p.put w tile f).pc = p.pc ∧ (p.put w tile f).loops = p.loops ∧
    (∀ n, n ≠ tile → (p.put w tile f).flags[n]? = p.flags[n]?) ∧
    ((∀ e, e < 512 → p.governs w e = true → (f e).2 = 0) → p.flags.getD tile 0 < 8 →
      (p.put w tile f).flags.getD tile 0 = p.flags.getD tile 0)) ∧
  (∀ (p : Pl) (w e : Nat) (f : Nat → Bool), e < 512 → p.dst w < p.masks.length →
    bitAt ((p.putMask w f).mask (p.dst w)) e =
      (if p.governs w e then f e else if plZ w then false else bitAt (p.mask (p.dst w)) e) ∧
    (p.putMask w f).tiles = p.tiles ∧ (p.putMask w f).flags = p.flags ∧
    ∀ n, n ≠ p.dst w → (p.putMask w f).mask n = p.mask n)

/-- FRAME. A message that only asks for something changes nothing of the part but what it sends out and the model's counter
of free values: the queries of MCTP control, of PLDM and of TDISP, and the SPDM requests that open no session. -/
def Obligations.QueriesChangeNothing : Prop :=
  ∀ (c : Instr) (s t : State), c.isQuery = true → Runs c s t → { t with out := s.out, free := s.free } = s

/-- FRAME. The commands that store nothing leave every byte of the vaults and of Mere, and what their codes say of it:
the link, the flits, the hasps, the fence word, the mailbox, the power requests, the power reports, the Planisher's
register instructions, and the management messages. -/
def Obligations.CommandsThatStoreNothingLeaveMemory : Prop :=
  ∀ (c : Instr) (s t : State), c.storesNothing = true → Runs c s t →
    t.vault = s.vault ∧ t.mere = s.mere ∧ t.vaultEcc = s.vaultEcc ∧ t.mereEcc = s.mereEcc

/-- A command leaves the queue of waiting commands as it is, in every state. -/
def Obligations.CommandsLeaveTheQueue : Prop :=
  ∀ (c : Instr) (s t : State), Runs c s t → t.pending = s.pending

/-- INVARIANT. Every step keeps both memories in canonical form: rising addresses, and no listed byte that reads 0 anyway. -/
def Obligations.EveryStepKeepsMemoryCanonical : Prop :=
  ∀ s t : State, s.memWf = true → step s = .next t → t.memWf = true

/-- The invariants hold after reset: canonical memory, an empty queue, an empty log; and what the spec gives for reset of
the fields that decide what may happen: phase, power state, frame, tick, polder states and their locks. -/
def Obligations.ResetMeetsTheInvariants : Prop :=
  State.reset.memWf = true ∧ State.reset.pending = [] ∧ State.reset.bank.log = [] ∧ State.reset.ready = false ∧
  State.reset.pwr = pwActive ∧ State.reset.frame = none ∧ State.reset.tick = 0 ∧ State.reset.runs = [] ∧
  (∀ p : Fin 16, State.reset.pst p.val = pFree ∧ State.reset.tdisp p.val = 0) ∧
  (∀ n : Fin 12, State.reset.cwSt n.val = cwDown) ∧ (∀ n : Fin 64, State.reset.hspState n.val = hspFree) ∧
  (∀ f : Nat, State.reset.fence f = .armed)

/-- INVARIANT. Nothing that was struck into the Hallmark bank is ever taken back: every step, from every state, leaves the
log a continuation of what it was, and no strike count falls (R487, R495). -/
def Obligations.HallmarkLogOnlyGrows : Prop :=
  ∀ s t : State, step s = .next t → LogGrows s t ∧ ∀ k j, s.bank.strikes k j ≤ t.bank.strikes k j
end

