-- ==== Sys2Proof/Laws/Sparse.lean ====
section
/-! SUPPORT. The laws of sparse tables: a read after a write, and the canonical form that every operation keeps. -/

namespace Sys2Proof.Machine
open Sys2Proof

variable {α : Type}

@[simp] theorem SMap.get_nil (d : α) (k : Nat) : SMap.get d [] k = d := rfl

@[simp] theorem SMap.get_drop_same (d : α) (m : SMap α) (k : Nat) : SMap.get d (m.drop k) k = d := by
  induction m with
  | nil => rfl
  | cons e t ih =>
    obtain ⟨k', v⟩ := e
    by_cases h : k' = k <;> simp [SMap.drop, SMap.get, h, ih]

theorem SMap.get_drop_ne (d : α) (m : SMap α) {k j : Nat} (h : j ≠ k) : SMap.get d (m.drop k) j = SMap.get d m j := by
  induction m with
  | nil => rfl
  | cons e t ih =>
    obtain ⟨k', v⟩ := e
    by_cases hk : k' = k
    · subst hk; simp [SMap.drop, SMap.get, ih, Ne.symm h]
    · simp [SMap.drop, SMap.get, hk, ih]

theorem SMap.get_place_ne (d : α) (m : SMap α) (v : α) {k j : Nat} (h : j ≠ k) :
    SMap.get d (SMap.place k v m) j = SMap.get d m j := by
  induction m with
  | nil => simp [SMap.place, SMap.get, Ne.symm h]
  | cons e t ih =>
    obtain ⟨k', v'⟩ := e
    by_cases hk : k < k'
    · simp [SMap.place, SMap.get, hk, Ne.symm h]
    · simp [SMap.place, SMap.get, hk, ih]

theorem SMap.get_place_drop (d : α) (m : SMap α) (k : Nat) (v : α) : SMap.get d (SMap.place k v (m.drop k)) k = v := by
  induction m with
  | nil => simp [SMap.drop, SMap.place, SMap.get]
  | cons e t ih =>
    obtain ⟨k', v'⟩ := e
    by_cases hk : k' = k
    · simp [SMap.drop, hk, ih]
    · by_cases hl : k < k' <;> simp [SMap.drop, SMap.place, SMap.get, hk, hl, ih]

/-- A read after a write to the same key gives the value written. -/
@[simp] theorem SMap.get_put_same [DecidableEq α] (d : α) (m : SMap α) (k : Nat) (v : α) :
    SMap.get d (SMap.put d m k v) k = v := by
  by_cases h : v = d
  · simp [SMap.put, h]
  · simp [SMap.put, h, SMap.get_place_drop]

/-- A write leaves every other key alone. -/
theorem SMap.get_put_ne [DecidableEq α] (d : α) (m : SMap α) (v : α) {k j : Nat} (h : j ≠ k) :
    SMap.get d (SMap.put d m k v) j = SMap.get d m j := by
  by_cases hv : v = d
  · simp [SMap.put, hv, SMap.get_drop_ne d m h]
  · simp [SMap.put, hv, SMap.get_place_ne d _ v h, SMap.get_drop_ne d m h]

theorem SMap.get_put [DecidableEq α] (d : α) (m : SMap α) (k j : Nat) (v : α) :
    SMap.get d (SMap.put d m k v) j = if j = k then v else SMap.get d m j := by
  by_cases h : j = k
  · subst h; simp
  · simp [h, SMap.get_put_ne d m v h]

theorem SMap.rising_mono {m : SMap α} {a b : Nat} (h : b ≤ a) (hm : SMap.rising a m = true) : SMap.rising b m = true := by
  cases m with
  | nil => rfl
  | cons e t =>
    simp only [SMap.rising, Bool.and_eq_true, decide_eq_true_eq] at hm ⊢
    exact ⟨by omega, hm.2⟩

theorem SMap.rising_filter (p : Nat × α → Bool) {m : SMap α} {a : Nat} (hm : SMap.rising a m = true) :
    SMap.rising a (m.filter p) = true := by
  induction m generalizing a with
  | nil => rfl
  | cons e t ih =>
    simp only [SMap.rising, Bool.and_eq_true, decide_eq_true_eq] at hm
    cases hp : p e
    · rw [List.filter_cons_of_neg (by simp [hp])]
      exact ih (SMap.rising_mono (by omega) hm.2)
    · rw [List.filter_cons_of_pos hp]
      simp [SMap.rising, hm.1, ih hm.2]

theorem SMap.drop_eq_filter (k : Nat) (m : SMap α) : m.drop k = m.filter (fun e => e.1 != k) := by
  induction m with
  | nil => rfl
  | cons e t ih =>
    obtain ⟨k', v⟩ := e
    by_cases h : k' = k
    · rw [List.filter_cons_of_neg (by simp [h])]; simp [SMap.drop, h, ih]
    · rw [List.filter_cons_of_pos (by simp [h])]; simp [SMap.drop, h, ih]

theorem SMap.rising_place {m : SMap α} {a k : Nat} (v : α) (hk : a ≤ k) (hm : SMap.rising a (m.drop k) = true) :
    SMap.rising a (SMap.place k v (m.drop k)) = true := by
  have hne : ∀ e ∈ m.drop k, e.1 ≠ k := by
    intro e he; rw [SMap.drop_eq_filter] at he; simpa using (List.mem_filter.1 he).2
  generalize m.drop k = l at hm hne
  induction l generalizing a with
  | nil => simp [SMap.place, SMap.rising, hk]
  | cons e t ih =>
    simp only [SMap.rising, Bool.and_eq_true, decide_eq_true_eq] at hm
    have := hne e (by simp)
    by_cases hl : k < e.1
    · simp [SMap.place, SMap.rising, hl, hk, hm.2]
    · simp only [SMap.place, hl, if_false, SMap.rising, Bool.and_eq_true, decide_eq_true_eq]
      exact ⟨hm.1, ih (by omega) hm.2 (fun x hx => hne x (List.mem_cons_of_mem _ hx))⟩

variable [DecidableEq α]

/-- A filter keeps the canonical form. -/
theorem SMap.wf_filter (d : α) (p : Nat × α → Bool) {m : SMap α} (h : SMap.wf d m = true) : SMap.wf d (m.filter p) = true := by
  simp only [SMap.wf, Bool.and_eq_true] at h ⊢
  refine ⟨SMap.rising_filter p h.1, ?_⟩
  rw [List.all_eq_true] at h ⊢
  exact fun e he => h.2 e (List.mem_of_mem_filter he)

/-- Dropping a key keeps the canonical form. -/
theorem SMap.wf_drop (d : α) (k : Nat) {m : SMap α} (h : SMap.wf d m = true) : SMap.wf d (m.drop k) = true := by
  rw [SMap.drop_eq_filter]; exact SMap.wf_filter d _ h

/-- Clearing keys keeps the canonical form. -/
theorem SMap.wf_clear (d : α) (q : Nat → Bool) {m : SMap α} (h : SMap.wf d m = true) : SMap.wf d (m.clear q) = true :=
  SMap.wf_filter d _ h

omit [DecidableEq α] in
theorem SMap.mem_place {m : SMap α} {k : Nat} {v : α} {e : Nat × α} (h : e ∈ SMap.place k v m) : e = (k, v) ∨ e ∈ m := by
  induction m with
  | nil => simpa [SMap.place] using h
  | cons x t ih =>
    by_cases hl : k < x.1
    · simpa [SMap.place, hl] using h
    · simp only [SMap.place, hl, if_false, List.mem_cons] at h
      rcases h with h | h
      · exact Or.inr (by rw [h]; exact List.mem_cons_self)
      · rcases ih h with h | h <;> simp [h]

/-- A write keeps the canonical form. -/
theorem SMap.wf_put (d : α) (k : Nat) (v : α) {m : SMap α} (h : SMap.wf d m = true) : SMap.wf d (SMap.put d m k v) = true := by
  have hd := SMap.wf_drop d k h
  by_cases hv : v = d
  · simpa [SMap.put, hv] using hd
  · simp only [SMap.put, hv, if_false, SMap.wf, Bool.and_eq_true] at hd ⊢
    refine ⟨SMap.rising_place v (Nat.zero_le k) hd.1, ?_⟩
    rw [List.all_eq_true] at hd ⊢
    intro e he
    rcases SMap.mem_place he with rfl | he
    · simp [hv]
    · exact hd.2 e he

end Sys2Proof.Machine
end

