-- ==== Sys2Proof/Laws/State.lean ====
section
/-! SUPPORT. One lemma for each field of State under each basic update: what the update leaves alone. With them, reads of
register fields after writes. -/

namespace Sys2Proof.Machine
open Sys2Proof


/-! ## State.emit -/

@[simp] theorem State.emit_flds (s : State) (o : Out) : (s.emit o).flds = s.flds := rfl
@[simp] theorem State.emit_tick (s : State) (o : Out) : (s.emit o).tick = s.tick := rfl
@[simp] theorem State.emit_ns (s : State) (o : Out) : (s.emit o).ns = s.ns := rfl
@[simp] theorem State.emit_nsPart (s : State) (o : Out) : (s.emit o).nsPart = s.nsPart := rfl
@[simp] theorem State.emit_free (s : State) (o : Out) : (s.emit o).free = s.free := rfl
@[simp] theorem State.emit_fences (s : State) (o : Out) : (s.emit o).fences = s.fences := rfl
@[simp] theorem State.emit_own (s : State) (o : Out) : (s.emit o).own = s.own := rfl
@[simp] theorem State.emit_dirty (s : State) (o : Out) : (s.emit o).dirty = s.dirty := rfl
@[simp] theorem State.emit_zeroJobs (s : State) (o : Out) : (s.emit o).zeroJobs = s.zeroJobs := rfl
@[simp] theorem State.emit_polders (s : State) (o : Out) : (s.emit o).polders = s.polders := rfl
@[simp] theorem State.emit_runs (s : State) (o : Out) : (s.emit o).runs = s.runs := rfl
@[simp] theorem State.emit_ended (s : State) (o : Out) : (s.emit o).ended = s.ended := rfl
@[simp] theorem State.emit_returning (s : State) (o : Out) : (s.emit o).returning = s.returning := rfl
@[simp] theorem State.emit_nextRun (s : State) (o : Out) : (s.emit o).nextRun = s.nextRun := rfl
@[simp] theorem State.emit_plans (s : State) (o : Out) : (s.emit o).plans = s.plans := rfl
@[simp] theorem State.emit_stagedPlans (s : State) (o : Out) : (s.emit o).stagedPlans = s.stagedPlans := rfl
@[simp] theorem State.emit_planArmed (s : State) (o : Out) : (s.emit o).planArmed = s.planArmed := rfl
@[simp] theorem State.emit_frame (s : State) (o : Out) : (s.emit o).frame = s.frame := rfl
@[simp] theorem State.emit_stagedFrame (s : State) (o : Out) : (s.emit o).stagedFrame = s.stagedFrame := rfl
@[simp] theorem State.emit_frameArmed (s : State) (o : Out) : (s.emit o).frameArmed = s.frameArmed := rfl
@[simp] theorem State.emit_ops (s : State) (o : Out) : (s.emit o).ops = s.ops := rfl
@[simp] theorem State.emit_mobs (s : State) (o : Out) : (s.emit o).mobs = s.mobs := rfl
@[simp] theorem State.emit_holds (s : State) (o : Out) : (s.emit o).holds = s.holds := rfl
@[simp] theorem State.emit_faults (s : State) (o : Out) : (s.emit o).faults = s.faults := rfl
@[simp] theorem State.emit_lastFault (s : State) (o : Out) : (s.emit o).lastFault = s.lastFault := rfl
@[simp] theorem State.emit_rings (s : State) (o : Out) : (s.emit o).rings = s.rings := rfl
@[simp] theorem State.emit_msix (s : State) (o : Out) : (s.emit o).msix = s.msix := rfl
@[simp] theorem State.emit_pba (s : State) (o : Out) : (s.emit o).pba = s.pba := rfl
@[simp] theorem State.emit_coal (s : State) (o : Out) : (s.emit o).coal = s.coal := rfl
@[simp] theorem State.emit_bmeOff (s : State) (o : Out) : (s.emit o).bmeOff = s.bmeOff := rfl
@[simp] theorem State.emit_bars (s : State) (o : Out) : (s.emit o).bars = s.bars := rfl
@[simp] theorem State.emit_dStates (s : State) (o : Out) : (s.emit o).dStates = s.dStates := rfl
@[simp] theorem State.emit_link (s : State) (o : Out) : (s.emit o).link = s.link := rfl
@[simp] theorem State.emit_tables (s : State) (o : Out) : (s.emit o).tables = s.tables := rfl
@[simp] theorem State.emit_lines (s : State) (o : Out) : (s.emit o).lines = s.lines := rfl
@[simp] theorem State.emit_sketch (s : State) (o : Out) : (s.emit o).sketch = s.sketch := rfl
@[simp] theorem State.emit_halved (s : State) (o : Out) : (s.emit o).halved = s.halved := rfl
@[simp] theorem State.emit_cands (s : State) (o : Out) : (s.emit o).cands = s.cands := rfl
@[simp] theorem State.emit_jnlMap (s : State) (o : Out) : (s.emit o).jnlMap = s.jnlMap := rfl
@[simp] theorem State.emit_tiles (s : State) (o : Out) : (s.emit o).tiles = s.tiles := rfl
@[simp] theorem State.emit_avJobs (s : State) (o : Out) : (s.emit o).avJobs = s.avJobs := rfl
@[simp] theorem State.emit_avScale (s : State) (o : Out) : (s.emit o).avScale = s.avScale := rfl
@[simp] theorem State.emit_pls (s : State) (o : Out) : (s.emit o).pls = s.pls := rfl
@[simp] theorem State.emit_requests (s : State) (o : Out) : (s.emit o).requests = s.requests := rfl
@[simp] theorem State.emit_nextTag (s : State) (o : Out) : (s.emit o).nextTag = s.nextTag := rfl
@[simp] theorem State.emit_sentFrame (s : State) (o : Out) : (s.emit o).sentFrame = s.sentFrame := rfl
@[simp] theorem State.emit_grants (s : State) (o : Out) : (s.emit o).grants = s.grants := rfl
@[simp] theorem State.emit_services (s : State) (o : Out) : (s.emit o).services = s.services := rfl
@[simp] theorem State.emit_rates (s : State) (o : Out) : (s.emit o).rates = s.rates := rfl
@[simp] theorem State.emit_laneDone (s : State) (o : Out) : (s.emit o).laneDone = s.laneDone := rfl
@[simp] theorem State.emit_ports (s : State) (o : Out) : (s.emit o).ports = s.ports := rfl
@[simp] theorem State.emit_inbox (s : State) (o : Out) : (s.emit o).inbox = s.inbox := rfl
@[simp] theorem State.emit_transit (s : State) (o : Out) : (s.emit o).transit = s.transit := rfl
@[simp] theorem State.emit_trust (s : State) (o : Out) : (s.emit o).trust = s.trust := rfl
@[simp] theorem State.emit_faultQuar (s : State) (o : Out) : (s.emit o).faultQuar = s.faultQuar := rfl
@[simp] theorem State.emit_sampled (s : State) (o : Out) : (s.emit o).sampled = s.sampled := rfl
@[simp] theorem State.emit_pendLevel (s : State) (o : Out) : (s.emit o).pendLevel = s.pendLevel := rfl
@[simp] theorem State.emit_pendTier (s : State) (o : Out) : (s.emit o).pendTier = s.pendTier := rfl
@[simp] theorem State.emit_boundaryDone (s : State) (o : Out) : (s.emit o).boundaryDone = s.boundaryDone := rfl
@[simp] theorem State.emit_served (s : State) (o : Out) : (s.emit o).served = s.served := rfl
@[simp] theorem State.emit_lend (s : State) (o : Out) : (s.emit o).lend = s.lend := rfl
@[simp] theorem State.emit_lent (s : State) (o : Out) : (s.emit o).lent = s.lent := rfl
@[simp] theorem State.emit_denied (s : State) (o : Out) : (s.emit o).denied = s.denied := rfl
@[simp] theorem State.emit_coolSince (s : State) (o : Out) : (s.emit o).coolSince = s.coolSince := rfl
@[simp] theorem State.emit_tierHeld (s : State) (o : Out) : (s.emit o).tierHeld = s.tierHeld := rfl
@[simp] theorem State.emit_advNs (s : State) (o : Out) : (s.emit o).advNs = s.advNs := rfl
@[simp] theorem State.emit_advSet (s : State) (o : Out) : (s.emit o).advSet = s.advSet := rfl
@[simp] theorem State.emit_snap (s : State) (o : Out) : (s.emit o).snap = s.snap := rfl
@[simp] theorem State.emit_snapHdr (s : State) (o : Out) : (s.emit o).snapHdr = s.snapHdr := rfl
@[simp] theorem State.emit_dumpTodo (s : State) (o : Out) : (s.emit o).dumpTodo = s.dumpTodo := rfl
@[simp] theorem State.emit_dumpMissed (s : State) (o : Out) : (s.emit o).dumpMissed = s.dumpMissed := rfl
@[simp] theorem State.emit_counts (s : State) (o : Out) : (s.emit o).counts = s.counts := rfl
@[simp] theorem State.emit_bases (s : State) (o : Out) : (s.emit o).bases = s.bases := rfl
@[simp] theorem State.emit_vault (s : State) (o : Out) : (s.emit o).vault = s.vault := rfl
@[simp] theorem State.emit_mere (s : State) (o : Out) : (s.emit o).mere = s.mere := rfl
@[simp] theorem State.emit_vaultEcc (s : State) (o : Out) : (s.emit o).vaultEcc = s.vaultEcc := rfl
@[simp] theorem State.emit_mereEcc (s : State) (o : Out) : (s.emit o).mereEcc = s.mereEcc := rfl
@[simp] theorem State.emit_writeBacks (s : State) (o : Out) : (s.emit o).writeBacks = s.writeBacks := rfl
@[simp] theorem State.emit_rowCorr (s : State) (o : Out) : (s.emit o).rowCorr = s.rowCorr := rfl
@[simp] theorem State.emit_rowCand (s : State) (o : Out) : (s.emit o).rowCand = s.rowCand := rfl
@[simp] theorem State.emit_spare (s : State) (o : Out) : (s.emit o).spare = s.spare := rfl
@[simp] theorem State.emit_spareEcc (s : State) (o : Out) : (s.emit o).spareEcc = s.spareEcc := rfl
@[simp] theorem State.emit_repairs (s : State) (o : Out) : (s.emit o).repairs = s.repairs := rfl
@[simp] theorem State.emit_scrubAt (s : State) (o : Out) : (s.emit o).scrubAt = s.scrubAt := rfl
@[simp] theorem State.emit_scrubNs (s : State) (o : Out) : (s.emit o).scrubNs = s.scrubNs := rfl
@[simp] theorem State.emit_scrubPass (s : State) (o : Out) : (s.emit o).scrubPass = s.scrubPass := rfl
@[simp] theorem State.emit_marks (s : State) (o : Out) : (s.emit o).marks = s.marks := rfl
@[simp] theorem State.emit_benchedHist (s : State) (o : Out) : (s.emit o).benchedHist = s.benchedHist := rfl
@[simp] theorem State.emit_retiredHist (s : State) (o : Out) : (s.emit o).retiredHist = s.retiredHist := rfl
@[simp] theorem State.emit_cperCount (s : State) (o : Out) : (s.emit o).cperCount = s.cperCount := rfl
@[simp] theorem State.emit_eventReceiver (s : State) (o : Out) : (s.emit o).eventReceiver = s.eventReceiver := rfl
@[simp] theorem State.emit_board (s : State) (o : Out) : (s.emit o).board = s.board := rfl
@[simp] theorem State.emit_bank (s : State) (o : Out) : (s.emit o).bank = s.bank := rfl
@[simp] theorem State.emit_mgc (s : State) (o : Out) : (s.emit o).mgc = s.mgc := rfl
@[simp] theorem State.emit_patina (s : State) (o : Out) : (s.emit o).patina = s.patina := rfl
@[simp] theorem State.emit_assay (s : State) (o : Out) : (s.emit o).assay = s.assay := rfl
@[simp] theorem State.emit_bgTicks (s : State) (o : Out) : (s.emit o).bgTicks = s.bgTicks := rfl
@[simp] theorem State.emit_engReset (s : State) (o : Out) : (s.emit o).engReset = s.engReset := rfl
@[simp] theorem State.emit_temps (s : State) (o : Out) : (s.emit o).temps = s.temps := rfl
@[simp] theorem State.emit_swing (s : State) (o : Out) : (s.emit o).swing = s.swing := rfl
@[simp] theorem State.emit_rail (s : State) (o : Out) : (s.emit o).rail = s.rail := rfl
@[simp] theorem State.emit_dumpOver (s : State) (o : Out) : (s.emit o).dumpOver = s.dumpOver := rfl
@[simp] theorem State.emit_peak (s : State) (o : Out) : (s.emit o).peak = s.peak := rfl
@[simp] theorem State.emit_reports (s : State) (o : Out) : (s.emit o).reports = s.reports := rfl
@[simp] theorem State.emit_energyUj (s : State) (o : Out) : (s.emit o).energyUj = s.energyUj := rfl
@[simp] theorem State.emit_parkPull (s : State) (o : Out) : (s.emit o).parkPull = s.parkPull := rfl
@[simp] theorem State.emit_turn (s : State) (o : Out) : (s.emit o).turn = s.turn := rfl
@[simp] theorem State.emit_winAt (s : State) (o : Out) : (s.emit o).winAt = s.winAt := rfl
@[simp] theorem State.emit_pending (s : State) (o : Out) : (s.emit o).pending = s.pending := rfl

/-! ## State.count -/

@[simp] theorem State.count_flds (s : State) (k n : Nat) : (s.count k n).flds = s.flds := rfl
@[simp] theorem State.count_out (s : State) (k n : Nat) : (s.count k n).out = s.out := rfl
@[simp] theorem State.count_tick (s : State) (k n : Nat) : (s.count k n).tick = s.tick := rfl
@[simp] theorem State.count_ns (s : State) (k n : Nat) : (s.count k n).ns = s.ns := rfl
@[simp] theorem State.count_nsPart (s : State) (k n : Nat) : (s.count k n).nsPart = s.nsPart := rfl
@[simp] theorem State.count_free (s : State) (k n : Nat) : (s.count k n).free = s.free := rfl
@[simp] theorem State.count_fences (s : State) (k n : Nat) : (s.count k n).fences = s.fences := rfl
@[simp] theorem State.count_own (s : State) (k n : Nat) : (s.count k n).own = s.own := rfl
@[simp] theorem State.count_dirty (s : State) (k n : Nat) : (s.count k n).dirty = s.dirty := rfl
@[simp] theorem State.count_zeroJobs (s : State) (k n : Nat) : (s.count k n).zeroJobs = s.zeroJobs := rfl
@[simp] theorem State.count_polders (s : State) (k n : Nat) : (s.count k n).polders = s.polders := rfl
@[simp] theorem State.count_runs (s : State) (k n : Nat) : (s.count k n).runs = s.runs := rfl
@[simp] theorem State.count_ended (s : State) (k n : Nat) : (s.count k n).ended = s.ended := rfl
@[simp] theorem State.count_returning (s : State) (k n : Nat) : (s.count k n).returning = s.returning := rfl
@[simp] theorem State.count_nextRun (s : State) (k n : Nat) : (s.count k n).nextRun = s.nextRun := rfl
@[simp] theorem State.count_plans (s : State) (k n : Nat) : (s.count k n).plans = s.plans := rfl
@[simp] theorem State.count_stagedPlans (s : State) (k n : Nat) : (s.count k n).stagedPlans = s.stagedPlans := rfl
@[simp] theorem State.count_planArmed (s : State) (k n : Nat) : (s.count k n).planArmed = s.planArmed := rfl
@[simp] theorem State.count_frame (s : State) (k n : Nat) : (s.count k n).frame = s.frame := rfl
@[simp] theorem State.count_stagedFrame (s : State) (k n : Nat) : (s.count k n).stagedFrame = s.stagedFrame := rfl
@[simp] theorem State.count_frameArmed (s : State) (k n : Nat) : (s.count k n).frameArmed = s.frameArmed := rfl
@[simp] theorem State.count_ops (s : State) (k n : Nat) : (s.count k n).ops = s.ops := rfl
@[simp] theorem State.count_mobs (s : State) (k n : Nat) : (s.count k n).mobs = s.mobs := rfl
@[simp] theorem State.count_holds (s : State) (k n : Nat) : (s.count k n).holds = s.holds := rfl
@[simp] theorem State.count_faults (s : State) (k n : Nat) : (s.count k n).faults = s.faults := rfl
@[simp] theorem State.count_lastFault (s : State) (k n : Nat) : (s.count k n).lastFault = s.lastFault := rfl
@[simp] theorem State.count_rings (s : State) (k n : Nat) : (s.count k n).rings = s.rings := rfl
@[simp] theorem State.count_msix (s : State) (k n : Nat) : (s.count k n).msix = s.msix := rfl
@[simp] theorem State.count_pba (s : State) (k n : Nat) : (s.count k n).pba = s.pba := rfl
@[simp] theorem State.count_coal (s : State) (k n : Nat) : (s.count k n).coal = s.coal := rfl
@[simp] theorem State.count_bmeOff (s : State) (k n : Nat) : (s.count k n).bmeOff = s.bmeOff := rfl
@[simp] theorem State.count_bars (s : State) (k n : Nat) : (s.count k n).bars = s.bars := rfl
@[simp] theorem State.count_dStates (s : State) (k n : Nat) : (s.count k n).dStates = s.dStates := rfl
@[simp] theorem State.count_link (s : State) (k n : Nat) : (s.count k n).link = s.link := rfl
@[simp] theorem State.count_tables (s : State) (k n : Nat) : (s.count k n).tables = s.tables := rfl
@[simp] theorem State.count_lines (s : State) (k n : Nat) : (s.count k n).lines = s.lines := rfl
@[simp] theorem State.count_sketch (s : State) (k n : Nat) : (s.count k n).sketch = s.sketch := rfl
@[simp] theorem State.count_halved (s : State) (k n : Nat) : (s.count k n).halved = s.halved := rfl
@[simp] theorem State.count_cands (s : State) (k n : Nat) : (s.count k n).cands = s.cands := rfl
@[simp] theorem State.count_jnlMap (s : State) (k n : Nat) : (s.count k n).jnlMap = s.jnlMap := rfl
@[simp] theorem State.count_tiles (s : State) (k n : Nat) : (s.count k n).tiles = s.tiles := rfl
@[simp] theorem State.count_avJobs (s : State) (k n : Nat) : (s.count k n).avJobs = s.avJobs := rfl
@[simp] theorem State.count_avScale (s : State) (k n : Nat) : (s.count k n).avScale = s.avScale := rfl
@[simp] theorem State.count_pls (s : State) (k n : Nat) : (s.count k n).pls = s.pls := rfl
@[simp] theorem State.count_requests (s : State) (k n : Nat) : (s.count k n).requests = s.requests := rfl
@[simp] theorem State.count_nextTag (s : State) (k n : Nat) : (s.count k n).nextTag = s.nextTag := rfl
@[simp] theorem State.count_sentFrame (s : State) (k n : Nat) : (s.count k n).sentFrame = s.sentFrame := rfl
@[simp] theorem State.count_grants (s : State) (k n : Nat) : (s.count k n).grants = s.grants := rfl
@[simp] theorem State.count_services (s : State) (k n : Nat) : (s.count k n).services = s.services := rfl
@[simp] theorem State.count_rates (s : State) (k n : Nat) : (s.count k n).rates = s.rates := rfl
@[simp] theorem State.count_laneDone (s : State) (k n : Nat) : (s.count k n).laneDone = s.laneDone := rfl
@[simp] theorem State.count_ports (s : State) (k n : Nat) : (s.count k n).ports = s.ports := rfl
@[simp] theorem State.count_inbox (s : State) (k n : Nat) : (s.count k n).inbox = s.inbox := rfl
@[simp] theorem State.count_transit (s : State) (k n : Nat) : (s.count k n).transit = s.transit := rfl
@[simp] theorem State.count_trust (s : State) (k n : Nat) : (s.count k n).trust = s.trust := rfl
@[simp] theorem State.count_faultQuar (s : State) (k n : Nat) : (s.count k n).faultQuar = s.faultQuar := rfl
@[simp] theorem State.count_sampled (s : State) (k n : Nat) : (s.count k n).sampled = s.sampled := rfl
@[simp] theorem State.count_pendLevel (s : State) (k n : Nat) : (s.count k n).pendLevel = s.pendLevel := rfl
@[simp] theorem State.count_pendTier (s : State) (k n : Nat) : (s.count k n).pendTier = s.pendTier := rfl
@[simp] theorem State.count_boundaryDone (s : State) (k n : Nat) : (s.count k n).boundaryDone = s.boundaryDone := rfl
@[simp] theorem State.count_served (s : State) (k n : Nat) : (s.count k n).served = s.served := rfl
@[simp] theorem State.count_lend (s : State) (k n : Nat) : (s.count k n).lend = s.lend := rfl
@[simp] theorem State.count_lent (s : State) (k n : Nat) : (s.count k n).lent = s.lent := rfl
@[simp] theorem State.count_denied (s : State) (k n : Nat) : (s.count k n).denied = s.denied := rfl
@[simp] theorem State.count_coolSince (s : State) (k n : Nat) : (s.count k n).coolSince = s.coolSince := rfl
@[simp] theorem State.count_tierHeld (s : State) (k n : Nat) : (s.count k n).tierHeld = s.tierHeld := rfl
@[simp] theorem State.count_advNs (s : State) (k n : Nat) : (s.count k n).advNs = s.advNs := rfl
@[simp] theorem State.count_advSet (s : State) (k n : Nat) : (s.count k n).advSet = s.advSet := rfl
@[simp] theorem State.count_snap (s : State) (k n : Nat) : (s.count k n).snap = s.snap := rfl
@[simp] theorem State.count_snapHdr (s : State) (k n : Nat) : (s.count k n).snapHdr = s.snapHdr := rfl
@[simp] theorem State.count_dumpTodo (s : State) (k n : Nat) : (s.count k n).dumpTodo = s.dumpTodo := rfl
@[simp] theorem State.count_dumpMissed (s : State) (k n : Nat) : (s.count k n).dumpMissed = s.dumpMissed := rfl
@[simp] theorem State.count_bases (s : State) (k n : Nat) : (s.count k n).bases = s.bases := rfl
@[simp] theorem State.count_vault (s : State) (k n : Nat) : (s.count k n).vault = s.vault := rfl
@[simp] theorem State.count_mere (s : State) (k n : Nat) : (s.count k n).mere = s.mere := rfl
@[simp] theorem State.count_vaultEcc (s : State) (k n : Nat) : (s.count k n).vaultEcc = s.vaultEcc := rfl
@[simp] theorem State.count_mereEcc (s : State) (k n : Nat) : (s.count k n).mereEcc = s.mereEcc := rfl
@[simp] theorem State.count_writeBacks (s : State) (k n : Nat) : (s.count k n).writeBacks = s.writeBacks := rfl
@[simp] theorem State.count_rowCorr (s : State) (k n : Nat) : (s.count k n).rowCorr = s.rowCorr := rfl
@[simp] theorem State.count_rowCand (s : State) (k n : Nat) : (s.count k n).rowCand = s.rowCand := rfl
@[simp] theorem State.count_spare (s : State) (k n : Nat) : (s.count k n).spare = s.spare := rfl
@[simp] theorem State.count_spareEcc (s : State) (k n : Nat) : (s.count k n).spareEcc = s.spareEcc := rfl
@[simp] theorem State.count_repairs (s : State) (k n : Nat) : (s.count k n).repairs = s.repairs := rfl
@[simp] theorem State.count_scrubAt (s : State) (k n : Nat) : (s.count k n).scrubAt = s.scrubAt := rfl
@[simp] theorem State.count_scrubNs (s : State) (k n : Nat) : (s.count k n).scrubNs = s.scrubNs := rfl
@[simp] theorem State.count_scrubPass (s : State) (k n : Nat) : (s.count k n).scrubPass = s.scrubPass := rfl
@[simp] theorem State.count_marks (s : State) (k n : Nat) : (s.count k n).marks = s.marks := rfl
@[simp] theorem State.count_benchedHist (s : State) (k n : Nat) : (s.count k n).benchedHist = s.benchedHist := rfl
@[simp] theorem State.count_retiredHist (s : State) (k n : Nat) : (s.count k n).retiredHist = s.retiredHist := rfl
@[simp] theorem State.count_cperCount (s : State) (k n : Nat) : (s.count k n).cperCount = s.cperCount := rfl
@[simp] theorem State.count_eventReceiver (s : State) (k n : Nat) : (s.count k n).eventReceiver = s.eventReceiver := rfl
@[simp] theorem State.count_board (s : State) (k n : Nat) : (s.count k n).board = s.board := rfl
@[simp] theorem State.count_bank (s : State) (k n : Nat) : (s.count k n).bank = s.bank := rfl
@[simp] theorem State.count_mgc (s : State) (k n : Nat) : (s.count k n).mgc = s.mgc := rfl
@[simp] theorem State.count_patina (s : State) (k n : Nat) : (s.count k n).patina = s.patina := rfl
@[simp] theorem State.count_assay (s : State) (k n : Nat) : (s.count k n).assay = s.assay := rfl
@[simp] theorem State.count_bgTicks (s : State) (k n : Nat) : (s.count k n).bgTicks = s.bgTicks := rfl
@[simp] theorem State.count_engReset (s : State) (k n : Nat) : (s.count k n).engReset = s.engReset := rfl
@[simp] theorem State.count_temps (s : State) (k n : Nat) : (s.count k n).temps = s.temps := rfl
@[simp] theorem State.count_swing (s : State) (k n : Nat) : (s.count k n).swing = s.swing := rfl
@[simp] theorem State.count_rail (s : State) (k n : Nat) : (s.count k n).rail = s.rail := rfl
@[simp] theorem State.count_dumpOver (s : State) (k n : Nat) : (s.count k n).dumpOver = s.dumpOver := rfl
@[simp] theorem State.count_peak (s : State) (k n : Nat) : (s.count k n).peak = s.peak := rfl
@[simp] theorem State.count_reports (s : State) (k n : Nat) : (s.count k n).reports = s.reports := rfl
@[simp] theorem State.count_energyUj (s : State) (k n : Nat) : (s.count k n).energyUj = s.energyUj := rfl
@[simp] theorem State.count_parkPull (s : State) (k n : Nat) : (s.count k n).parkPull = s.parkPull := rfl
@[simp] theorem State.count_turn (s : State) (k n : Nat) : (s.count k n).turn = s.turn := rfl
@[simp] theorem State.count_winAt (s : State) (k n : Nat) : (s.count k n).winAt = s.winAt := rfl
@[simp] theorem State.count_pending (s : State) (k n : Nat) : (s.count k n).pending = s.pending := rfl

/-! ## State.wri -/

@[simp] theorem State.wri_out (s : State) (f : Fld) (i j v : Nat) : (s.wri f i j v).out = s.out := rfl
@[simp] theorem State.wri_tick (s : State) (f : Fld) (i j v : Nat) : (s.wri f i j v).tick = s.tick := rfl
@[simp] theorem State.wri_ns (s : State) (f : Fld) (i j v : Nat) : (s.wri f i j v).ns = s.ns := rfl
@[simp] theorem State.wri_nsPart (s : State) (f : Fld) (i j v : Nat) : (s.wri f i j v).nsPart = s.nsPart := rfl
@[simp] theorem State.wri_free (s : State) (f : Fld) (i j v : Nat) : (s.wri f i j v).free = s.free := rfl
@[simp] theorem State.wri_fences (s : State) (f : Fld) (i j v : Nat) : (s.wri f i j v).fences = s.fences := rfl
@[simp] theorem State.wri_own (s : State) (f : Fld) (i j v : Nat) : (s.wri f i j v).own = s.own := rfl
@[simp] theorem State.wri_dirty (s : State) (f : Fld) (i j v : Nat) : (s.wri f i j v).dirty = s.dirty := rfl
@[simp] theorem State.wri_zeroJobs (s : State) (f : Fld) (i j v : Nat) : (s.wri f i j v).zeroJobs = s.zeroJobs := rfl
@[simp] theorem State.wri_polders (s : State) (f : Fld) (i j v : Nat) : (s.wri f i j v).polders = s.polders := rfl
@[simp] theorem State.wri_runs (s : State) (f : Fld) (i j v : Nat) : (s.wri f i j v).runs = s.runs := rfl
@[simp] theorem State.wri_ended (s : State) (f : Fld) (i j v : Nat) : (s.wri f i j v).ended = s.ended := rfl
@[simp] theorem State.wri_returning (s : State) (f : Fld) (i j v : Nat) : (s.wri f i j v).returning = s.returning := rfl
@[simp] theorem State.wri_nextRun (s : State) (f : Fld) (i j v : Nat) : (s.wri f i j v).nextRun = s.nextRun := rfl
@[simp] theorem State.wri_plans (s : State) (f : Fld) (i j v : Nat) : (s.wri f i j v).plans = s.plans := rfl
@[simp] theorem State.wri_stagedPlans (s : State) (f : Fld) (i j v : Nat) : (s.wri f i j v).stagedPlans = s.stagedPlans := rfl
@[simp] theorem State.wri_planArmed (s : State) (f : Fld) (i j v : Nat) : (s.wri f i j v).planArmed = s.planArmed := rfl
@[simp] theorem State.wri_frame (s : State) (f : Fld) (i j v : Nat) : (s.wri f i j v).frame = s.frame := rfl
@[simp] theorem State.wri_stagedFrame (s : State) (f : Fld) (i j v : Nat) : (s.wri f i j v).stagedFrame = s.stagedFrame := rfl
@[simp] theorem State.wri_frameArmed (s : State) (f : Fld) (i j v : Nat) : (s.wri f i j v).frameArmed = s.frameArmed := rfl
@[simp] theorem State.wri_ops (s : State) (f : Fld) (i j v : Nat) : (s.wri f i j v).ops = s.ops := rfl
@[simp] theorem State.wri_mobs (s : State) (f : Fld) (i j v : Nat) : (s.wri f i j v).mobs = s.mobs := rfl
@[simp] theorem State.wri_holds (s : State) (f : Fld) (i j v : Nat) : (s.wri f i j v).holds = s.holds := rfl
@[simp] theorem State.wri_faults (s : State) (f : Fld) (i j v : Nat) : (s.wri f i j v).faults = s.faults := rfl
@[simp] theorem State.wri_lastFault (s : State) (f : Fld) (i j v : Nat) : (s.wri f i j v).lastFault = s.lastFault := rfl
@[simp] theorem State.wri_rings (s : State) (f : Fld) (i j v : Nat) : (s.wri f i j v).rings = s.rings := rfl
@[simp] theorem State.wri_msix (s : State) (f : Fld) (i j v : Nat) : (s.wri f i j v).msix = s.msix := rfl
@[simp] theorem State.wri_pba (s : State) (f : Fld) (i j v : Nat) : (s.wri f i j v).pba = s.pba := rfl
@[simp] theorem State.wri_coal (s : State) (f : Fld) (i j v : Nat) : (s.wri f i j v).coal = s.coal := rfl
@[simp] theorem State.wri_bmeOff (s : State) (f : Fld) (i j v : Nat) : (s.wri f i j v).bmeOff = s.bmeOff := rfl
@[simp] theorem State.wri_bars (s : State) (f : Fld) (i j v : Nat) : (s.wri f i j v).bars = s.bars := rfl
@[simp] theorem State.wri_dStates (s : State) (f : Fld) (i j v : Nat) : (s.wri f i j v).dStates = s.dStates := rfl
@[simp] theorem State.wri_link (s : State) (f : Fld) (i j v : Nat) : (s.wri f i j v).link = s.link := rfl
@[simp] theorem State.wri_tables (s : State) (f : Fld) (i j v : Nat) : (s.wri f i j v).tables = s.tables := rfl
@[simp] theorem State.wri_lines (s : State) (f : Fld) (i j v : Nat) : (s.wri f i j v).lines = s.lines := rfl
@[simp] theorem State.wri_sketch (s : State) (f : Fld) (i j v : Nat) : (s.wri f i j v).sketch = s.sketch := rfl
@[simp] theorem State.wri_halved (s : State) (f : Fld) (i j v : Nat) : (s.wri f i j v).halved = s.halved := rfl
@[simp] theorem State.wri_cands (s : State) (f : Fld) (i j v : Nat) : (s.wri f i j v).cands = s.cands := rfl
@[simp] theorem State.wri_jnlMap (s : State) (f : Fld) (i j v : Nat) : (s.wri f i j v).jnlMap = s.jnlMap := rfl
@[simp] theorem State.wri_tiles (s : State) (f : Fld) (i j v : Nat) : (s.wri f i j v).tiles = s.tiles := rfl
@[simp] theorem State.wri_avJobs (s : State) (f : Fld) (i j v : Nat) : (s.wri f i j v).avJobs = s.avJobs := rfl
@[simp] theorem State.wri_avScale (s : State) (f : Fld) (i j v : Nat) : (s.wri f i j v).avScale = s.avScale := rfl
@[simp] theorem State.wri_pls (s : State) (f : Fld) (i j v : Nat) : (s.wri f i j v).pls = s.pls := rfl
@[simp] theorem State.wri_requests (s : State) (f : Fld) (i j v : Nat) : (s.wri f i j v).requests = s.requests := rfl
@[simp] theorem State.wri_nextTag (s : State) (f : Fld) (i j v : Nat) : (s.wri f i j v).nextTag = s.nextTag := rfl
@[simp] theorem State.wri_sentFrame (s : State) (f : Fld) (i j v : Nat) : (s.wri f i j v).sentFrame = s.sentFrame := rfl
@[simp] theorem State.wri_grants (s : State) (f : Fld) (i j v : Nat) : (s.wri f i j v).grants = s.grants := rfl
@[simp] theorem State.wri_services (s : State) (f : Fld) (i j v : Nat) : (s.wri f i j v).services = s.services := rfl
@[simp] theorem State.wri_rates (s : State) (f : Fld) (i j v : Nat) : (s.wri f i j v).rates = s.rates := rfl
@[simp] theorem State.wri_laneDone (s : State) (f : Fld) (i j v : Nat) : (s.wri f i j v).laneDone = s.laneDone := rfl
@[simp] theorem State.wri_ports (s : State) (f : Fld) (i j v : Nat) : (s.wri f i j v).ports = s.ports := rfl
@[simp] theorem State.wri_inbox (s : State) (f : Fld) (i j v : Nat) : (s.wri f i j v).inbox = s.inbox := rfl
@[simp] theorem State.wri_transit (s : State) (f : Fld) (i j v : Nat) : (s.wri f i j v).transit = s.transit := rfl
@[simp] theorem State.wri_trust (s : State) (f : Fld) (i j v : Nat) : (s.wri f i j v).trust = s.trust := rfl
@[simp] theorem State.wri_faultQuar (s : State) (f : Fld) (i j v : Nat) : (s.wri f i j v).faultQuar = s.faultQuar := rfl
@[simp] theorem State.wri_sampled (s : State) (f : Fld) (i j v : Nat) : (s.wri f i j v).sampled = s.sampled := rfl
@[simp] theorem State.wri_pendLevel (s : State) (f : Fld) (i j v : Nat) : (s.wri f i j v).pendLevel = s.pendLevel := rfl
@[simp] theorem State.wri_pendTier (s : State) (f : Fld) (i j v : Nat) : (s.wri f i j v).pendTier = s.pendTier := rfl
@[simp] theorem State.wri_boundaryDone (s : State) (f : Fld) (i j v : Nat) : (s.wri f i j v).boundaryDone = s.boundaryDone := rfl
@[simp] theorem State.wri_served (s : State) (f : Fld) (i j v : Nat) : (s.wri f i j v).served = s.served := rfl
@[simp] theorem State.wri_lend (s : State) (f : Fld) (i j v : Nat) : (s.wri f i j v).lend = s.lend := rfl
@[simp] theorem State.wri_lent (s : State) (f : Fld) (i j v : Nat) : (s.wri f i j v).lent = s.lent := rfl
@[simp] theorem State.wri_denied (s : State) (f : Fld) (i j v : Nat) : (s.wri f i j v).denied = s.denied := rfl
@[simp] theorem State.wri_coolSince (s : State) (f : Fld) (i j v : Nat) : (s.wri f i j v).coolSince = s.coolSince := rfl
@[simp] theorem State.wri_tierHeld (s : State) (f : Fld) (i j v : Nat) : (s.wri f i j v).tierHeld = s.tierHeld := rfl
@[simp] theorem State.wri_advNs (s : State) (f : Fld) (i j v : Nat) : (s.wri f i j v).advNs = s.advNs := rfl
@[simp] theorem State.wri_advSet (s : State) (f : Fld) (i j v : Nat) : (s.wri f i j v).advSet = s.advSet := rfl
@[simp] theorem State.wri_snap (s : State) (f : Fld) (i j v : Nat) : (s.wri f i j v).snap = s.snap := rfl
@[simp] theorem State.wri_snapHdr (s : State) (f : Fld) (i j v : Nat) : (s.wri f i j v).snapHdr = s.snapHdr := rfl
@[simp] theorem State.wri_dumpTodo (s : State) (f : Fld) (i j v : Nat) : (s.wri f i j v).dumpTodo = s.dumpTodo := rfl
@[simp] theorem State.wri_dumpMissed (s : State) (f : Fld) (i j v : Nat) : (s.wri f i j v).dumpMissed = s.dumpMissed := rfl
@[simp] theorem State.wri_counts (s : State) (f : Fld) (i j v : Nat) : (s.wri f i j v).counts = s.counts := rfl
@[simp] theorem State.wri_bases (s : State) (f : Fld) (i j v : Nat) : (s.wri f i j v).bases = s.bases := rfl
@[simp] theorem State.wri_vault (s : State) (f : Fld) (i j v : Nat) : (s.wri f i j v).vault = s.vault := rfl
@[simp] theorem State.wri_mere (s : State) (f : Fld) (i j v : Nat) : (s.wri f i j v).mere = s.mere := rfl
@[simp] theorem State.wri_vaultEcc (s : State) (f : Fld) (i j v : Nat) : (s.wri f i j v).vaultEcc = s.vaultEcc := rfl
@[simp] theorem State.wri_mereEcc (s : State) (f : Fld) (i j v : Nat) : (s.wri f i j v).mereEcc = s.mereEcc := rfl
@[simp] theorem State.wri_writeBacks (s : State) (f : Fld) (i j v : Nat) : (s.wri f i j v).writeBacks = s.writeBacks := rfl
@[simp] theorem State.wri_rowCorr (s : State) (f : Fld) (i j v : Nat) : (s.wri f i j v).rowCorr = s.rowCorr := rfl
@[simp] theorem State.wri_rowCand (s : State) (f : Fld) (i j v : Nat) : (s.wri f i j v).rowCand = s.rowCand := rfl
@[simp] theorem State.wri_spare (s : State) (f : Fld) (i j v : Nat) : (s.wri f i j v).spare = s.spare := rfl
@[simp] theorem State.wri_spareEcc (s : State) (f : Fld) (i j v : Nat) : (s.wri f i j v).spareEcc = s.spareEcc := rfl
@[simp] theorem State.wri_repairs (s : State) (f : Fld) (i j v : Nat) : (s.wri f i j v).repairs = s.repairs := rfl
@[simp] theorem State.wri_scrubAt (s : State) (f : Fld) (i j v : Nat) : (s.wri f i j v).scrubAt = s.scrubAt := rfl
@[simp] theorem State.wri_scrubNs (s : State) (f : Fld) (i j v : Nat) : (s.wri f i j v).scrubNs = s.scrubNs := rfl
@[simp] theorem State.wri_scrubPass (s : State) (f : Fld) (i j v : Nat) : (s.wri f i j v).scrubPass = s.scrubPass := rfl
@[simp] theorem State.wri_marks (s : State) (f : Fld) (i j v : Nat) : (s.wri f i j v).marks = s.marks := rfl
@[simp] theorem State.wri_benchedHist (s : State) (f : Fld) (i j v : Nat) : (s.wri f i j v).benchedHist = s.benchedHist := rfl
@[simp] theorem State.wri_retiredHist (s : State) (f : Fld) (i j v : Nat) : (s.wri f i j v).retiredHist = s.retiredHist := rfl
@[simp] theorem State.wri_cperCount (s : State) (f : Fld) (i j v : Nat) : (s.wri f i j v).cperCount = s.cperCount := rfl
@[simp] theorem State.wri_eventReceiver (s : State) (f : Fld) (i j v : Nat) : (s.wri f i j v).eventReceiver = s.eventReceiver := rfl
@[simp] theorem State.wri_board (s : State) (f : Fld) (i j v : Nat) : (s.wri f i j v).board = s.board := rfl
@[simp] theorem State.wri_bank (s : State) (f : Fld) (i j v : Nat) : (s.wri f i j v).bank = s.bank := rfl
@[simp] theorem State.wri_mgc (s : State) (f : Fld) (i j v : Nat) : (s.wri f i j v).mgc = s.mgc := rfl
@[simp] theorem State.wri_patina (s : State) (f : Fld) (i j v : Nat) : (s.wri f i j v).patina = s.patina := rfl
@[simp] theorem State.wri_assay (s : State) (f : Fld) (i j v : Nat) : (s.wri f i j v).assay = s.assay := rfl
@[simp] theorem State.wri_bgTicks (s : State) (f : Fld) (i j v : Nat) : (s.wri f i j v).bgTicks = s.bgTicks := rfl
@[simp] theorem State.wri_engReset (s : State) (f : Fld) (i j v : Nat) : (s.wri f i j v).engReset = s.engReset := rfl
@[simp] theorem State.wri_temps (s : State) (f : Fld) (i j v : Nat) : (s.wri f i j v).temps = s.temps := rfl
@[simp] theorem State.wri_swing (s : State) (f : Fld) (i j v : Nat) : (s.wri f i j v).swing = s.swing := rfl
@[simp] theorem State.wri_rail (s : State) (f : Fld) (i j v : Nat) : (s.wri f i j v).rail = s.rail := rfl
@[simp] theorem State.wri_dumpOver (s : State) (f : Fld) (i j v : Nat) : (s.wri f i j v).dumpOver = s.dumpOver := rfl
@[simp] theorem State.wri_peak (s : State) (f : Fld) (i j v : Nat) : (s.wri f i j v).peak = s.peak := rfl
@[simp] theorem State.wri_reports (s : State) (f : Fld) (i j v : Nat) : (s.wri f i j v).reports = s.reports := rfl
@[simp] theorem State.wri_energyUj (s : State) (f : Fld) (i j v : Nat) : (s.wri f i j v).energyUj = s.energyUj := rfl
@[simp] theorem State.wri_parkPull (s : State) (f : Fld) (i j v : Nat) : (s.wri f i j v).parkPull = s.parkPull := rfl
@[simp] theorem State.wri_turn (s : State) (f : Fld) (i j v : Nat) : (s.wri f i j v).turn = s.turn := rfl
@[simp] theorem State.wri_winAt (s : State) (f : Fld) (i j v : Nat) : (s.wri f i j v).winAt = s.winAt := rfl
@[simp] theorem State.wri_pending (s : State) (f : Fld) (i j v : Nat) : (s.wri f i j v).pending = s.pending := rfl

/-! ## State.wr -/

@[simp] theorem State.wr_out (s : State) (f : Fld) (i v : Nat) : (s.wr f i v).out = s.out := rfl
@[simp] theorem State.wr_tick (s : State) (f : Fld) (i v : Nat) : (s.wr f i v).tick = s.tick := rfl
@[simp] theorem State.wr_ns (s : State) (f : Fld) (i v : Nat) : (s.wr f i v).ns = s.ns := rfl
@[simp] theorem State.wr_nsPart (s : State) (f : Fld) (i v : Nat) : (s.wr f i v).nsPart = s.nsPart := rfl
@[simp] theorem State.wr_free (s : State) (f : Fld) (i v : Nat) : (s.wr f i v).free = s.free := rfl
@[simp] theorem State.wr_fences (s : State) (f : Fld) (i v : Nat) : (s.wr f i v).fences = s.fences := rfl
@[simp] theorem State.wr_own (s : State) (f : Fld) (i v : Nat) : (s.wr f i v).own = s.own := rfl
@[simp] theorem State.wr_dirty (s : State) (f : Fld) (i v : Nat) : (s.wr f i v).dirty = s.dirty := rfl
@[simp] theorem State.wr_zeroJobs (s : State) (f : Fld) (i v : Nat) : (s.wr f i v).zeroJobs = s.zeroJobs := rfl
@[simp] theorem State.wr_polders (s : State) (f : Fld) (i v : Nat) : (s.wr f i v).polders = s.polders := rfl
@[simp] theorem State.wr_runs (s : State) (f : Fld) (i v : Nat) : (s.wr f i v).runs = s.runs := rfl
@[simp] theorem State.wr_ended (s : State) (f : Fld) (i v : Nat) : (s.wr f i v).ended = s.ended := rfl
@[simp] theorem State.wr_returning (s : State) (f : Fld) (i v : Nat) : (s.wr f i v).returning = s.returning := rfl
@[simp] theorem State.wr_nextRun (s : State) (f : Fld) (i v : Nat) : (s.wr f i v).nextRun = s.nextRun := rfl
@[simp] theorem State.wr_plans (s : State) (f : Fld) (i v : Nat) : (s.wr f i v).plans = s.plans := rfl
@[simp] theorem State.wr_stagedPlans (s : State) (f : Fld) (i v : Nat) : (s.wr f i v).stagedPlans = s.stagedPlans := rfl
@[simp] theorem State.wr_planArmed (s : State) (f : Fld) (i v : Nat) : (s.wr f i v).planArmed = s.planArmed := rfl
@[simp] theorem State.wr_frame (s : State) (f : Fld) (i v : Nat) : (s.wr f i v).frame = s.frame := rfl
@[simp] theorem State.wr_stagedFrame (s : State) (f : Fld) (i v : Nat) : (s.wr f i v).stagedFrame = s.stagedFrame := rfl
@[simp] theorem State.wr_frameArmed (s : State) (f : Fld) (i v : Nat) : (s.wr f i v).frameArmed = s.frameArmed := rfl
@[simp] theorem State.wr_ops (s : State) (f : Fld) (i v : Nat) : (s.wr f i v).ops = s.ops := rfl
@[simp] theorem State.wr_mobs (s : State) (f : Fld) (i v : Nat) : (s.wr f i v).mobs = s.mobs := rfl
@[simp] theorem State.wr_holds (s : State) (f : Fld) (i v : Nat) : (s.wr f i v).holds = s.holds := rfl
@[simp] theorem State.wr_faults (s : State) (f : Fld) (i v : Nat) : (s.wr f i v).faults = s.faults := rfl
@[simp] theorem State.wr_lastFault (s : State) (f : Fld) (i v : Nat) : (s.wr f i v).lastFault = s.lastFault := rfl
@[simp] theorem State.wr_rings (s : State) (f : Fld) (i v : Nat) : (s.wr f i v).rings = s.rings := rfl
@[simp] theorem State.wr_msix (s : State) (f : Fld) (i v : Nat) : (s.wr f i v).msix = s.msix := rfl
@[simp] theorem State.wr_pba (s : State) (f : Fld) (i v : Nat) : (s.wr f i v).pba = s.pba := rfl
@[simp] theorem State.wr_coal (s : State) (f : Fld) (i v : Nat) : (s.wr f i v).coal = s.coal := rfl
@[simp] theorem State.wr_bmeOff (s : State) (f : Fld) (i v : Nat) : (s.wr f i v).bmeOff = s.bmeOff := rfl
@[simp] theorem State.wr_bars (s : State) (f : Fld) (i v : Nat) : (s.wr f i v).bars = s.bars := rfl
@[simp] theorem State.wr_dStates (s : State) (f : Fld) (i v : Nat) : (s.wr f i v).dStates = s.dStates := rfl
@[simp] theorem State.wr_link (s : State) (f : Fld) (i v : Nat) : (s.wr f i v).link = s.link := rfl
@[simp] theorem State.wr_tables (s : State) (f : Fld) (i v : Nat) : (s.wr f i v).tables = s.tables := rfl
@[simp] theorem State.wr_lines (s : State) (f : Fld) (i v : Nat) : (s.wr f i v).lines = s.lines := rfl
@[simp] theorem State.wr_sketch (s : State) (f : Fld) (i v : Nat) : (s.wr f i v).sketch = s.sketch := rfl
@[simp] theorem State.wr_halved (s : State) (f : Fld) (i v : Nat) : (s.wr f i v).halved = s.halved := rfl
@[simp] theorem State.wr_cands (s : State) (f : Fld) (i v : Nat) : (s.wr f i v).cands = s.cands := rfl
@[simp] theorem State.wr_jnlMap (s : State) (f : Fld) (i v : Nat) : (s.wr f i v).jnlMap = s.jnlMap := rfl
@[simp] theorem State.wr_tiles (s : State) (f : Fld) (i v : Nat) : (s.wr f i v).tiles = s.tiles := rfl
@[simp] theorem State.wr_avJobs (s : State) (f : Fld) (i v : Nat) : (s.wr f i v).avJobs = s.avJobs := rfl
@[simp] theorem State.wr_avScale (s : State) (f : Fld) (i v : Nat) : (s.wr f i v).avScale = s.avScale := rfl
@[simp] theorem State.wr_pls (s : State) (f : Fld) (i v : Nat) : (s.wr f i v).pls = s.pls := rfl
@[simp] theorem State.wr_requests (s : State) (f : Fld) (i v : Nat) : (s.wr f i v).requests = s.requests := rfl
@[simp] theorem State.wr_nextTag (s : State) (f : Fld) (i v : Nat) : (s.wr f i v).nextTag = s.nextTag := rfl
@[simp] theorem State.wr_sentFrame (s : State) (f : Fld) (i v : Nat) : (s.wr f i v).sentFrame = s.sentFrame := rfl
@[simp] theorem State.wr_grants (s : State) (f : Fld) (i v : Nat) : (s.wr f i v).grants = s.grants := rfl
@[simp] theorem State.wr_services (s : State) (f : Fld) (i v : Nat) : (s.wr f i v).services = s.services := rfl
@[simp] theorem State.wr_rates (s : State) (f : Fld) (i v : Nat) : (s.wr f i v).rates = s.rates := rfl
@[simp] theorem State.wr_laneDone (s : State) (f : Fld) (i v : Nat) : (s.wr f i v).laneDone = s.laneDone := rfl
@[simp] theorem State.wr_ports (s : State) (f : Fld) (i v : Nat) : (s.wr f i v).ports = s.ports := rfl
@[simp] theorem State.wr_inbox (s : State) (f : Fld) (i v : Nat) : (s.wr f i v).inbox = s.inbox := rfl
@[simp] theorem State.wr_transit (s : State) (f : Fld) (i v : Nat) : (s.wr f i v).transit = s.transit := rfl
@[simp] theorem State.wr_trust (s : State) (f : Fld) (i v : Nat) : (s.wr f i v).trust = s.trust := rfl
@[simp] theorem State.wr_faultQuar (s : State) (f : Fld) (i v : Nat) : (s.wr f i v).faultQuar = s.faultQuar := rfl
@[simp] theorem State.wr_sampled (s : State) (f : Fld) (i v : Nat) : (s.wr f i v).sampled = s.sampled := rfl
@[simp] theorem State.wr_pendLevel (s : State) (f : Fld) (i v : Nat) : (s.wr f i v).pendLevel = s.pendLevel := rfl
@[simp] theorem State.wr_pendTier (s : State) (f : Fld) (i v : Nat) : (s.wr f i v).pendTier = s.pendTier := rfl
@[simp] theorem State.wr_boundaryDone (s : State) (f : Fld) (i v : Nat) : (s.wr f i v).boundaryDone = s.boundaryDone := rfl
@[simp] theorem State.wr_served (s : State) (f : Fld) (i v : Nat) : (s.wr f i v).served = s.served := rfl
@[simp] theorem State.wr_lend (s : State) (f : Fld) (i v : Nat) : (s.wr f i v).lend = s.lend := rfl
@[simp] theorem State.wr_lent (s : State) (f : Fld) (i v : Nat) : (s.wr f i v).lent = s.lent := rfl
@[simp] theorem State.wr_denied (s : State) (f : Fld) (i v : Nat) : (s.wr f i v).denied = s.denied := rfl
@[simp] theorem State.wr_coolSince (s : State) (f : Fld) (i v : Nat) : (s.wr f i v).coolSince = s.coolSince := rfl
@[simp] theorem State.wr_tierHeld (s : State) (f : Fld) (i v : Nat) : (s.wr f i v).tierHeld = s.tierHeld := rfl
@[simp] theorem State.wr_advNs (s : State) (f : Fld) (i v : Nat) : (s.wr f i v).advNs = s.advNs := rfl
@[simp] theorem State.wr_advSet (s : State) (f : Fld) (i v : Nat) : (s.wr f i v).advSet = s.advSet := rfl
@[simp] theorem State.wr_snap (s : State) (f : Fld) (i v : Nat) : (s.wr f i v).snap = s.snap := rfl
@[simp] theorem State.wr_snapHdr (s : State) (f : Fld) (i v : Nat) : (s.wr f i v).snapHdr = s.snapHdr := rfl
@[simp] theorem State.wr_dumpTodo (s : State) (f : Fld) (i v : Nat) : (s.wr f i v).dumpTodo = s.dumpTodo := rfl
@[simp] theorem State.wr_dumpMissed (s : State) (f : Fld) (i v : Nat) : (s.wr f i v).dumpMissed = s.dumpMissed := rfl
@[simp] theorem State.wr_counts (s : State) (f : Fld) (i v : Nat) : (s.wr f i v).counts = s.counts := rfl
@[simp] theorem State.wr_bases (s : State) (f : Fld) (i v : Nat) : (s.wr f i v).bases = s.bases := rfl
@[simp] theorem State.wr_vault (s : State) (f : Fld) (i v : Nat) : (s.wr f i v).vault = s.vault := rfl
@[simp] theorem State.wr_mere (s : State) (f : Fld) (i v : Nat) : (s.wr f i v).mere = s.mere := rfl
@[simp] theorem State.wr_vaultEcc (s : State) (f : Fld) (i v : Nat) : (s.wr f i v).vaultEcc = s.vaultEcc := rfl
@[simp] theorem State.wr_mereEcc (s : State) (f : Fld) (i v : Nat) : (s.wr f i v).mereEcc = s.mereEcc := rfl
@[simp] theorem State.wr_writeBacks (s : State) (f : Fld) (i v : Nat) : (s.wr f i v).writeBacks = s.writeBacks := rfl
@[simp] theorem State.wr_rowCorr (s : State) (f : Fld) (i v : Nat) : (s.wr f i v).rowCorr = s.rowCorr := rfl
@[simp] theorem State.wr_rowCand (s : State) (f : Fld) (i v : Nat) : (s.wr f i v).rowCand = s.rowCand := rfl
@[simp] theorem State.wr_spare (s : State) (f : Fld) (i v : Nat) : (s.wr f i v).spare = s.spare := rfl
@[simp] theorem State.wr_spareEcc (s : State) (f : Fld) (i v : Nat) : (s.wr f i v).spareEcc = s.spareEcc := rfl
@[simp] theorem State.wr_repairs (s : State) (f : Fld) (i v : Nat) : (s.wr f i v).repairs = s.repairs := rfl
@[simp] theorem State.wr_scrubAt (s : State) (f : Fld) (i v : Nat) : (s.wr f i v).scrubAt = s.scrubAt := rfl
@[simp] theorem State.wr_scrubNs (s : State) (f : Fld) (i v : Nat) : (s.wr f i v).scrubNs = s.scrubNs := rfl
@[simp] theorem State.wr_scrubPass (s : State) (f : Fld) (i v : Nat) : (s.wr f i v).scrubPass = s.scrubPass := rfl
@[simp] theorem State.wr_marks (s : State) (f : Fld) (i v : Nat) : (s.wr f i v).marks = s.marks := rfl
@[simp] theorem State.wr_benchedHist (s : State) (f : Fld) (i v : Nat) : (s.wr f i v).benchedHist = s.benchedHist := rfl
@[simp] theorem State.wr_retiredHist (s : State) (f : Fld) (i v : Nat) : (s.wr f i v).retiredHist = s.retiredHist := rfl
@[simp] theorem State.wr_cperCount (s : State) (f : Fld) (i v : Nat) : (s.wr f i v).cperCount = s.cperCount := rfl
@[simp] theorem State.wr_eventReceiver (s : State) (f : Fld) (i v : Nat) : (s.wr f i v).eventReceiver = s.eventReceiver := rfl
@[simp] theorem State.wr_board (s : State) (f : Fld) (i v : Nat) : (s.wr f i v).board = s.board := rfl
@[simp] theorem State.wr_bank (s : State) (f : Fld) (i v : Nat) : (s.wr f i v).bank = s.bank := rfl
@[simp] theorem State.wr_mgc (s : State) (f : Fld) (i v : Nat) : (s.wr f i v).mgc = s.mgc := rfl
@[simp] theorem State.wr_patina (s : State) (f : Fld) (i v : Nat) : (s.wr f i v).patina = s.patina := rfl
@[simp] theorem State.wr_assay (s : State) (f : Fld) (i v : Nat) : (s.wr f i v).assay = s.assay := rfl
@[simp] theorem State.wr_bgTicks (s : State) (f : Fld) (i v : Nat) : (s.wr f i v).bgTicks = s.bgTicks := rfl
@[simp] theorem State.wr_engReset (s : State) (f : Fld) (i v : Nat) : (s.wr f i v).engReset = s.engReset := rfl
@[simp] theorem State.wr_temps (s : State) (f : Fld) (i v : Nat) : (s.wr f i v).temps = s.temps := rfl
@[simp] theorem State.wr_swing (s : State) (f : Fld) (i v : Nat) : (s.wr f i v).swing = s.swing := rfl
@[simp] theorem State.wr_rail (s : State) (f : Fld) (i v : Nat) : (s.wr f i v).rail = s.rail := rfl
@[simp] theorem State.wr_dumpOver (s : State) (f : Fld) (i v : Nat) : (s.wr f i v).dumpOver = s.dumpOver := rfl
@[simp] theorem State.wr_peak (s : State) (f : Fld) (i v : Nat) : (s.wr f i v).peak = s.peak := rfl
@[simp] theorem State.wr_reports (s : State) (f : Fld) (i v : Nat) : (s.wr f i v).reports = s.reports := rfl
@[simp] theorem State.wr_energyUj (s : State) (f : Fld) (i v : Nat) : (s.wr f i v).energyUj = s.energyUj := rfl
@[simp] theorem State.wr_parkPull (s : State) (f : Fld) (i v : Nat) : (s.wr f i v).parkPull = s.parkPull := rfl
@[simp] theorem State.wr_turn (s : State) (f : Fld) (i v : Nat) : (s.wr f i v).turn = s.turn := rfl
@[simp] theorem State.wr_winAt (s : State) (f : Fld) (i v : Nat) : (s.wr f i v).winAt = s.winAt := rfl
@[simp] theorem State.wr_pending (s : State) (f : Fld) (i v : Nat) : (s.wr f i v).pending = s.pending := rfl

/-! ## State.fresh -/

@[simp] theorem State.fresh_flds (s : State) : (s.fresh.2).flds = s.flds := rfl
@[simp] theorem State.fresh_out (s : State) : (s.fresh.2).out = s.out := rfl
@[simp] theorem State.fresh_tick (s : State) : (s.fresh.2).tick = s.tick := rfl
@[simp] theorem State.fresh_ns (s : State) : (s.fresh.2).ns = s.ns := rfl
@[simp] theorem State.fresh_nsPart (s : State) : (s.fresh.2).nsPart = s.nsPart := rfl
@[simp] theorem State.fresh_fences (s : State) : (s.fresh.2).fences = s.fences := rfl
@[simp] theorem State.fresh_own (s : State) : (s.fresh.2).own = s.own := rfl
@[simp] theorem State.fresh_dirty (s : State) : (s.fresh.2).dirty = s.dirty := rfl
@[simp] theorem State.fresh_zeroJobs (s : State) : (s.fresh.2).zeroJobs = s.zeroJobs := rfl
@[simp] theorem State.fresh_polders (s : State) : (s.fresh.2).polders = s.polders := rfl
@[simp] theorem State.fresh_runs (s : State) : (s.fresh.2).runs = s.runs := rfl
@[simp] theorem State.fresh_ended (s : State) : (s.fresh.2).ended = s.ended := rfl
@[simp] theorem State.fresh_returning (s : State) : (s.fresh.2).returning = s.returning := rfl
@[simp] theorem State.fresh_nextRun (s : State) : (s.fresh.2).nextRun = s.nextRun := rfl
@[simp] theorem State.fresh_plans (s : State) : (s.fresh.2).plans = s.plans := rfl
@[simp] theorem State.fresh_stagedPlans (s : State) : (s.fresh.2).stagedPlans = s.stagedPlans := rfl
@[simp] theorem State.fresh_planArmed (s : State) : (s.fresh.2).planArmed = s.planArmed := rfl
@[simp] theorem State.fresh_frame (s : State) : (s.fresh.2).frame = s.frame := rfl
@[simp] theorem State.fresh_stagedFrame (s : State) : (s.fresh.2).stagedFrame = s.stagedFrame := rfl
@[simp] theorem State.fresh_frameArmed (s : State) : (s.fresh.2).frameArmed = s.frameArmed := rfl
@[simp] theorem State.fresh_ops (s : State) : (s.fresh.2).ops = s.ops := rfl
@[simp] theorem State.fresh_mobs (s : State) : (s.fresh.2).mobs = s.mobs := rfl
@[simp] theorem State.fresh_holds (s : State) : (s.fresh.2).holds = s.holds := rfl
@[simp] theorem State.fresh_faults (s : State) : (s.fresh.2).faults = s.faults := rfl
@[simp] theorem State.fresh_lastFault (s : State) : (s.fresh.2).lastFault = s.lastFault := rfl
@[simp] theorem State.fresh_rings (s : State) : (s.fresh.2).rings = s.rings := rfl
@[simp] theorem State.fresh_msix (s : State) : (s.fresh.2).msix = s.msix := rfl
@[simp] theorem State.fresh_pba (s : State) : (s.fresh.2).pba = s.pba := rfl
@[simp] theorem State.fresh_coal (s : State) : (s.fresh.2).coal = s.coal := rfl
@[simp] theorem State.fresh_bmeOff (s : State) : (s.fresh.2).bmeOff = s.bmeOff := rfl
@[simp] theorem State.fresh_bars (s : State) : (s.fresh.2).bars = s.bars := rfl
@[simp] theorem State.fresh_dStates (s : State) : (s.fresh.2).dStates = s.dStates := rfl
@[simp] theorem State.fresh_link (s : State) : (s.fresh.2).link = s.link := rfl
@[simp] theorem State.fresh_tables (s : State) : (s.fresh.2).tables = s.tables := rfl
@[simp] theorem State.fresh_lines (s : State) : (s.fresh.2).lines = s.lines := rfl
@[simp] theorem State.fresh_sketch (s : State) : (s.fresh.2).sketch = s.sketch := rfl
@[simp] theorem State.fresh_halved (s : State) : (s.fresh.2).halved = s.halved := rfl
@[simp] theorem State.fresh_cands (s : State) : (s.fresh.2).cands = s.cands := rfl
@[simp] theorem State.fresh_jnlMap (s : State) : (s.fresh.2).jnlMap = s.jnlMap := rfl
@[simp] theorem State.fresh_tiles (s : State) : (s.fresh.2).tiles = s.tiles := rfl
@[simp] theorem State.fresh_avJobs (s : State) : (s.fresh.2).avJobs = s.avJobs := rfl
@[simp] theorem State.fresh_avScale (s : State) : (s.fresh.2).avScale = s.avScale := rfl
@[simp] theorem State.fresh_pls (s : State) : (s.fresh.2).pls = s.pls := rfl
@[simp] theorem State.fresh_requests (s : State) : (s.fresh.2).requests = s.requests := rfl
@[simp] theorem State.fresh_nextTag (s : State) : (s.fresh.2).nextTag = s.nextTag := rfl
@[simp] theorem State.fresh_sentFrame (s : State) : (s.fresh.2).sentFrame = s.sentFrame := rfl
@[simp] theorem State.fresh_grants (s : State) : (s.fresh.2).grants = s.grants := rfl
@[simp] theorem State.fresh_services (s : State) : (s.fresh.2).services = s.services := rfl
@[simp] theorem State.fresh_rates (s : State) : (s.fresh.2).rates = s.rates := rfl
@[simp] theorem State.fresh_laneDone (s : State) : (s.fresh.2).laneDone = s.laneDone := rfl
@[simp] theorem State.fresh_ports (s : State) : (s.fresh.2).ports = s.ports := rfl
@[simp] theorem State.fresh_inbox (s : State) : (s.fresh.2).inbox = s.inbox := rfl
@[simp] theorem State.fresh_transit (s : State) : (s.fresh.2).transit = s.transit := rfl
@[simp] theorem State.fresh_trust (s : State) : (s.fresh.2).trust = s.trust := rfl
@[simp] theorem State.fresh_faultQuar (s : State) : (s.fresh.2).faultQuar = s.faultQuar := rfl
@[simp] theorem State.fresh_sampled (s : State) : (s.fresh.2).sampled = s.sampled := rfl
@[simp] theorem State.fresh_pendLevel (s : State) : (s.fresh.2).pendLevel = s.pendLevel := rfl
@[simp] theorem State.fresh_pendTier (s : State) : (s.fresh.2).pendTier = s.pendTier := rfl
@[simp] theorem State.fresh_boundaryDone (s : State) : (s.fresh.2).boundaryDone = s.boundaryDone := rfl
@[simp] theorem State.fresh_served (s : State) : (s.fresh.2).served = s.served := rfl
@[simp] theorem State.fresh_lend (s : State) : (s.fresh.2).lend = s.lend := rfl
@[simp] theorem State.fresh_lent (s : State) : (s.fresh.2).lent = s.lent := rfl
@[simp] theorem State.fresh_denied (s : State) : (s.fresh.2).denied = s.denied := rfl
@[simp] theorem State.fresh_coolSince (s : State) : (s.fresh.2).coolSince = s.coolSince := rfl
@[simp] theorem State.fresh_tierHeld (s : State) : (s.fresh.2).tierHeld = s.tierHeld := rfl
@[simp] theorem State.fresh_advNs (s : State) : (s.fresh.2).advNs = s.advNs := rfl
@[simp] theorem State.fresh_advSet (s : State) : (s.fresh.2).advSet = s.advSet := rfl
@[simp] theorem State.fresh_snap (s : State) : (s.fresh.2).snap = s.snap := rfl
@[simp] theorem State.fresh_snapHdr (s : State) : (s.fresh.2).snapHdr = s.snapHdr := rfl
@[simp] theorem State.fresh_dumpTodo (s : State) : (s.fresh.2).dumpTodo = s.dumpTodo := rfl
@[simp] theorem State.fresh_dumpMissed (s : State) : (s.fresh.2).dumpMissed = s.dumpMissed := rfl
@[simp] theorem State.fresh_counts (s : State) : (s.fresh.2).counts = s.counts := rfl
@[simp] theorem State.fresh_bases (s : State) : (s.fresh.2).bases = s.bases := rfl
@[simp] theorem State.fresh_vault (s : State) : (s.fresh.2).vault = s.vault := rfl
@[simp] theorem State.fresh_mere (s : State) : (s.fresh.2).mere = s.mere := rfl
@[simp] theorem State.fresh_vaultEcc (s : State) : (s.fresh.2).vaultEcc = s.vaultEcc := rfl
@[simp] theorem State.fresh_mereEcc (s : State) : (s.fresh.2).mereEcc = s.mereEcc := rfl
@[simp] theorem State.fresh_writeBacks (s : State) : (s.fresh.2).writeBacks = s.writeBacks := rfl
@[simp] theorem State.fresh_rowCorr (s : State) : (s.fresh.2).rowCorr = s.rowCorr := rfl
@[simp] theorem State.fresh_rowCand (s : State) : (s.fresh.2).rowCand = s.rowCand := rfl
@[simp] theorem State.fresh_spare (s : State) : (s.fresh.2).spare = s.spare := rfl
@[simp] theorem State.fresh_spareEcc (s : State) : (s.fresh.2).spareEcc = s.spareEcc := rfl
@[simp] theorem State.fresh_repairs (s : State) : (s.fresh.2).repairs = s.repairs := rfl
@[simp] theorem State.fresh_scrubAt (s : State) : (s.fresh.2).scrubAt = s.scrubAt := rfl
@[simp] theorem State.fresh_scrubNs (s : State) : (s.fresh.2).scrubNs = s.scrubNs := rfl
@[simp] theorem State.fresh_scrubPass (s : State) : (s.fresh.2).scrubPass = s.scrubPass := rfl
@[simp] theorem State.fresh_marks (s : State) : (s.fresh.2).marks = s.marks := rfl
@[simp] theorem State.fresh_benchedHist (s : State) : (s.fresh.2).benchedHist = s.benchedHist := rfl
@[simp] theorem State.fresh_retiredHist (s : State) : (s.fresh.2).retiredHist = s.retiredHist := rfl
@[simp] theorem State.fresh_cperCount (s : State) : (s.fresh.2).cperCount = s.cperCount := rfl
@[simp] theorem State.fresh_eventReceiver (s : State) : (s.fresh.2).eventReceiver = s.eventReceiver := rfl
@[simp] theorem State.fresh_board (s : State) : (s.fresh.2).board = s.board := rfl
@[simp] theorem State.fresh_bank (s : State) : (s.fresh.2).bank = s.bank := rfl
@[simp] theorem State.fresh_mgc (s : State) : (s.fresh.2).mgc = s.mgc := rfl
@[simp] theorem State.fresh_patina (s : State) : (s.fresh.2).patina = s.patina := rfl
@[simp] theorem State.fresh_assay (s : State) : (s.fresh.2).assay = s.assay := rfl
@[simp] theorem State.fresh_bgTicks (s : State) : (s.fresh.2).bgTicks = s.bgTicks := rfl
@[simp] theorem State.fresh_engReset (s : State) : (s.fresh.2).engReset = s.engReset := rfl
@[simp] theorem State.fresh_temps (s : State) : (s.fresh.2).temps = s.temps := rfl
@[simp] theorem State.fresh_swing (s : State) : (s.fresh.2).swing = s.swing := rfl
@[simp] theorem State.fresh_rail (s : State) : (s.fresh.2).rail = s.rail := rfl
@[simp] theorem State.fresh_dumpOver (s : State) : (s.fresh.2).dumpOver = s.dumpOver := rfl
@[simp] theorem State.fresh_peak (s : State) : (s.fresh.2).peak = s.peak := rfl
@[simp] theorem State.fresh_reports (s : State) : (s.fresh.2).reports = s.reports := rfl
@[simp] theorem State.fresh_energyUj (s : State) : (s.fresh.2).energyUj = s.energyUj := rfl
@[simp] theorem State.fresh_parkPull (s : State) : (s.fresh.2).parkPull = s.parkPull := rfl
@[simp] theorem State.fresh_turn (s : State) : (s.fresh.2).turn = s.turn := rfl
@[simp] theorem State.fresh_winAt (s : State) : (s.fresh.2).winAt = s.winAt := rfl
@[simp] theorem State.fresh_pending (s : State) : (s.fresh.2).pending = s.pending := rfl

/-! ## State.setPort -/

@[simp] theorem State.setPort_flds (s : State) (n : Nat) (p : Port) : (s.setPort n p).flds = s.flds := rfl
@[simp] theorem State.setPort_out (s : State) (n : Nat) (p : Port) : (s.setPort n p).out = s.out := rfl
@[simp] theorem State.setPort_tick (s : State) (n : Nat) (p : Port) : (s.setPort n p).tick = s.tick := rfl
@[simp] theorem State.setPort_ns (s : State) (n : Nat) (p : Port) : (s.setPort n p).ns = s.ns := rfl
@[simp] theorem State.setPort_nsPart (s : State) (n : Nat) (p : Port) : (s.setPort n p).nsPart = s.nsPart := rfl
@[simp] theorem State.setPort_free (s : State) (n : Nat) (p : Port) : (s.setPort n p).free = s.free := rfl
@[simp] theorem State.setPort_fences (s : State) (n : Nat) (p : Port) : (s.setPort n p).fences = s.fences := rfl
@[simp] theorem State.setPort_own (s : State) (n : Nat) (p : Port) : (s.setPort n p).own = s.own := rfl
@[simp] theorem State.setPort_dirty (s : State) (n : Nat) (p : Port) : (s.setPort n p).dirty = s.dirty := rfl
@[simp] theorem State.setPort_zeroJobs (s : State) (n : Nat) (p : Port) : (s.setPort n p).zeroJobs = s.zeroJobs := rfl
@[simp] theorem State.setPort_polders (s : State) (n : Nat) (p : Port) : (s.setPort n p).polders = s.polders := rfl
@[simp] theorem State.setPort_runs (s : State) (n : Nat) (p : Port) : (s.setPort n p).runs = s.runs := rfl
@[simp] theorem State.setPort_ended (s : State) (n : Nat) (p : Port) : (s.setPort n p).ended = s.ended := rfl
@[simp] theorem State.setPort_returning (s : State) (n : Nat) (p : Port) : (s.setPort n p).returning = s.returning := rfl
@[simp] theorem State.setPort_nextRun (s : State) (n : Nat) (p : Port) : (s.setPort n p).nextRun = s.nextRun := rfl
@[simp] theorem State.setPort_plans (s : State) (n : Nat) (p : Port) : (s.setPort n p).plans = s.plans := rfl
@[simp] theorem State.setPort_stagedPlans (s : State) (n : Nat) (p : Port) : (s.setPort n p).stagedPlans = s.stagedPlans := rfl
@[simp] theorem State.setPort_planArmed (s : State) (n : Nat) (p : Port) : (s.setPort n p).planArmed = s.planArmed := rfl
@[simp] theorem State.setPort_frame (s : State) (n : Nat) (p : Port) : (s.setPort n p).frame = s.frame := rfl
@[simp] theorem State.setPort_stagedFrame (s : State) (n : Nat) (p : Port) : (s.setPort n p).stagedFrame = s.stagedFrame := rfl
@[simp] theorem State.setPort_frameArmed (s : State) (n : Nat) (p : Port) : (s.setPort n p).frameArmed = s.frameArmed := rfl
@[simp] theorem State.setPort_ops (s : State) (n : Nat) (p : Port) : (s.setPort n p).ops = s.ops := rfl
@[simp] theorem State.setPort_mobs (s : State) (n : Nat) (p : Port) : (s.setPort n p).mobs = s.mobs := rfl
@[simp] theorem State.setPort_holds (s : State) (n : Nat) (p : Port) : (s.setPort n p).holds = s.holds := rfl
@[simp] theorem State.setPort_faults (s : State) (n : Nat) (p : Port) : (s.setPort n p).faults = s.faults := rfl
@[simp] theorem State.setPort_lastFault (s : State) (n : Nat) (p : Port) : (s.setPort n p).lastFault = s.lastFault := rfl
@[simp] theorem State.setPort_rings (s : State) (n : Nat) (p : Port) : (s.setPort n p).rings = s.rings := rfl
@[simp] theorem State.setPort_msix (s : State) (n : Nat) (p : Port) : (s.setPort n p).msix = s.msix := rfl
@[simp] theorem State.setPort_pba (s : State) (n : Nat) (p : Port) : (s.setPort n p).pba = s.pba := rfl
@[simp] theorem State.setPort_coal (s : State) (n : Nat) (p : Port) : (s.setPort n p).coal = s.coal := rfl
@[simp] theorem State.setPort_bmeOff (s : State) (n : Nat) (p : Port) : (s.setPort n p).bmeOff = s.bmeOff := rfl
@[simp] theorem State.setPort_bars (s : State) (n : Nat) (p : Port) : (s.setPort n p).bars = s.bars := rfl
@[simp] theorem State.setPort_dStates (s : State) (n : Nat) (p : Port) : (s.setPort n p).dStates = s.dStates := rfl
@[simp] theorem State.setPort_link (s : State) (n : Nat) (p : Port) : (s.setPort n p).link = s.link := rfl
@[simp] theorem State.setPort_tables (s : State) (n : Nat) (p : Port) : (s.setPort n p).tables = s.tables := rfl
@[simp] theorem State.setPort_lines (s : State) (n : Nat) (p : Port) : (s.setPort n p).lines = s.lines := rfl
@[simp] theorem State.setPort_sketch (s : State) (n : Nat) (p : Port) : (s.setPort n p).sketch = s.sketch := rfl
@[simp] theorem State.setPort_halved (s : State) (n : Nat) (p : Port) : (s.setPort n p).halved = s.halved := rfl
@[simp] theorem State.setPort_cands (s : State) (n : Nat) (p : Port) : (s.setPort n p).cands = s.cands := rfl
@[simp] theorem State.setPort_jnlMap (s : State) (n : Nat) (p : Port) : (s.setPort n p).jnlMap = s.jnlMap := rfl
@[simp] theorem State.setPort_tiles (s : State) (n : Nat) (p : Port) : (s.setPort n p).tiles = s.tiles := rfl
@[simp] theorem State.setPort_avJobs (s : State) (n : Nat) (p : Port) : (s.setPort n p).avJobs = s.avJobs := rfl
@[simp] theorem State.setPort_avScale (s : State) (n : Nat) (p : Port) : (s.setPort n p).avScale = s.avScale := rfl
@[simp] theorem State.setPort_pls (s : State) (n : Nat) (p : Port) : (s.setPort n p).pls = s.pls := rfl
@[simp] theorem State.setPort_requests (s : State) (n : Nat) (p : Port) : (s.setPort n p).requests = s.requests := rfl
@[simp] theorem State.setPort_nextTag (s : State) (n : Nat) (p : Port) : (s.setPort n p).nextTag = s.nextTag := rfl
@[simp] theorem State.setPort_sentFrame (s : State) (n : Nat) (p : Port) : (s.setPort n p).sentFrame = s.sentFrame := rfl
@[simp] theorem State.setPort_grants (s : State) (n : Nat) (p : Port) : (s.setPort n p).grants = s.grants := rfl
@[simp] theorem State.setPort_services (s : State) (n : Nat) (p : Port) : (s.setPort n p).services = s.services := rfl
@[simp] theorem State.setPort_rates (s : State) (n : Nat) (p : Port) : (s.setPort n p).rates = s.rates := rfl
@[simp] theorem State.setPort_laneDone (s : State) (n : Nat) (p : Port) : (s.setPort n p).laneDone = s.laneDone := rfl
@[simp] theorem State.setPort_inbox (s : State) (n : Nat) (p : Port) : (s.setPort n p).inbox = s.inbox := rfl
@[simp] theorem State.setPort_transit (s : State) (n : Nat) (p : Port) : (s.setPort n p).transit = s.transit := rfl
@[simp] theorem State.setPort_trust (s : State) (n : Nat) (p : Port) : (s.setPort n p).trust = s.trust := rfl
@[simp] theorem State.setPort_faultQuar (s : State) (n : Nat) (p : Port) : (s.setPort n p).faultQuar = s.faultQuar := rfl
@[simp] theorem State.setPort_sampled (s : State) (n : Nat) (p : Port) : (s.setPort n p).sampled = s.sampled := rfl
@[simp] theorem State.setPort_pendLevel (s : State) (n : Nat) (p : Port) : (s.setPort n p).pendLevel = s.pendLevel := rfl
@[simp] theorem State.setPort_pendTier (s : State) (n : Nat) (p : Port) : (s.setPort n p).pendTier = s.pendTier := rfl
@[simp] theorem State.setPort_boundaryDone (s : State) (n : Nat) (p : Port) : (s.setPort n p).boundaryDone = s.boundaryDone := rfl
@[simp] theorem State.setPort_served (s : State) (n : Nat) (p : Port) : (s.setPort n p).served = s.served := rfl
@[simp] theorem State.setPort_lend (s : State) (n : Nat) (p : Port) : (s.setPort n p).lend = s.lend := rfl
@[simp] theorem State.setPort_lent (s : State) (n : Nat) (p : Port) : (s.setPort n p).lent = s.lent := rfl
@[simp] theorem State.setPort_denied (s : State) (n : Nat) (p : Port) : (s.setPort n p).denied = s.denied := rfl
@[simp] theorem State.setPort_coolSince (s : State) (n : Nat) (p : Port) : (s.setPort n p).coolSince = s.coolSince := rfl
@[simp] theorem State.setPort_tierHeld (s : State) (n : Nat) (p : Port) : (s.setPort n p).tierHeld = s.tierHeld := rfl
@[simp] theorem State.setPort_advNs (s : State) (n : Nat) (p : Port) : (s.setPort n p).advNs = s.advNs := rfl
@[simp] theorem State.setPort_advSet (s : State) (n : Nat) (p : Port) : (s.setPort n p).advSet = s.advSet := rfl
@[simp] theorem State.setPort_snap (s : State) (n : Nat) (p : Port) : (s.setPort n p).snap = s.snap := rfl
@[simp] theorem State.setPort_snapHdr (s : State) (n : Nat) (p : Port) : (s.setPort n p).snapHdr = s.snapHdr := rfl
@[simp] theorem State.setPort_dumpTodo (s : State) (n : Nat) (p : Port) : (s.setPort n p).dumpTodo = s.dumpTodo := rfl
@[simp] theorem State.setPort_dumpMissed (s : State) (n : Nat) (p : Port) : (s.setPort n p).dumpMissed = s.dumpMissed := rfl
@[simp] theorem State.setPort_counts (s : State) (n : Nat) (p : Port) : (s.setPort n p).counts = s.counts := rfl
@[simp] theorem State.setPort_bases (s : State) (n : Nat) (p : Port) : (s.setPort n p).bases = s.bases := rfl
@[simp] theorem State.setPort_vault (s : State) (n : Nat) (p : Port) : (s.setPort n p).vault = s.vault := rfl
@[simp] theorem State.setPort_mere (s : State) (n : Nat) (p : Port) : (s.setPort n p).mere = s.mere := rfl
@[simp] theorem State.setPort_vaultEcc (s : State) (n : Nat) (p : Port) : (s.setPort n p).vaultEcc = s.vaultEcc := rfl
@[simp] theorem State.setPort_mereEcc (s : State) (n : Nat) (p : Port) : (s.setPort n p).mereEcc = s.mereEcc := rfl
@[simp] theorem State.setPort_writeBacks (s : State) (n : Nat) (p : Port) : (s.setPort n p).writeBacks = s.writeBacks := rfl
@[simp] theorem State.setPort_rowCorr (s : State) (n : Nat) (p : Port) : (s.setPort n p).rowCorr = s.rowCorr := rfl
@[simp] theorem State.setPort_rowCand (s : State) (n : Nat) (p : Port) : (s.setPort n p).rowCand = s.rowCand := rfl
@[simp] theorem State.setPort_spare (s : State) (n : Nat) (p : Port) : (s.setPort n p).spare = s.spare := rfl
@[simp] theorem State.setPort_spareEcc (s : State) (n : Nat) (p : Port) : (s.setPort n p).spareEcc = s.spareEcc := rfl
@[simp] theorem State.setPort_repairs (s : State) (n : Nat) (p : Port) : (s.setPort n p).repairs = s.repairs := rfl
@[simp] theorem State.setPort_scrubAt (s : State) (n : Nat) (p : Port) : (s.setPort n p).scrubAt = s.scrubAt := rfl
@[simp] theorem State.setPort_scrubNs (s : State) (n : Nat) (p : Port) : (s.setPort n p).scrubNs = s.scrubNs := rfl
@[simp] theorem State.setPort_scrubPass (s : State) (n : Nat) (p : Port) : (s.setPort n p).scrubPass = s.scrubPass := rfl
@[simp] theorem State.setPort_marks (s : State) (n : Nat) (p : Port) : (s.setPort n p).marks = s.marks := rfl
@[simp] theorem State.setPort_benchedHist (s : State) (n : Nat) (p : Port) : (s.setPort n p).benchedHist = s.benchedHist := rfl
@[simp] theorem State.setPort_retiredHist (s : State) (n : Nat) (p : Port) : (s.setPort n p).retiredHist = s.retiredHist := rfl
@[simp] theorem State.setPort_cperCount (s : State) (n : Nat) (p : Port) : (s.setPort n p).cperCount = s.cperCount := rfl
@[simp] theorem State.setPort_eventReceiver (s : State) (n : Nat) (p : Port) : (s.setPort n p).eventReceiver = s.eventReceiver := rfl
@[simp] theorem State.setPort_board (s : State) (n : Nat) (p : Port) : (s.setPort n p).board = s.board := rfl
@[simp] theorem State.setPort_bank (s : State) (n : Nat) (p : Port) : (s.setPort n p).bank = s.bank := rfl
@[simp] theorem State.setPort_mgc (s : State) (n : Nat) (p : Port) : (s.setPort n p).mgc = s.mgc := rfl
@[simp] theorem State.setPort_patina (s : State) (n : Nat) (p : Port) : (s.setPort n p).patina = s.patina := rfl
@[simp] theorem State.setPort_assay (s : State) (n : Nat) (p : Port) : (s.setPort n p).assay = s.assay := rfl
@[simp] theorem State.setPort_bgTicks (s : State) (n : Nat) (p : Port) : (s.setPort n p).bgTicks = s.bgTicks := rfl
@[simp] theorem State.setPort_engReset (s : State) (n : Nat) (p : Port) : (s.setPort n p).engReset = s.engReset := rfl
@[simp] theorem State.setPort_temps (s : State) (n : Nat) (p : Port) : (s.setPort n p).temps = s.temps := rfl
@[simp] theorem State.setPort_swing (s : State) (n : Nat) (p : Port) : (s.setPort n p).swing = s.swing := rfl
@[simp] theorem State.setPort_rail (s : State) (n : Nat) (p : Port) : (s.setPort n p).rail = s.rail := rfl
@[simp] theorem State.setPort_dumpOver (s : State) (n : Nat) (p : Port) : (s.setPort n p).dumpOver = s.dumpOver := rfl
@[simp] theorem State.setPort_peak (s : State) (n : Nat) (p : Port) : (s.setPort n p).peak = s.peak := rfl
@[simp] theorem State.setPort_reports (s : State) (n : Nat) (p : Port) : (s.setPort n p).reports = s.reports := rfl
@[simp] theorem State.setPort_energyUj (s : State) (n : Nat) (p : Port) : (s.setPort n p).energyUj = s.energyUj := rfl
@[simp] theorem State.setPort_parkPull (s : State) (n : Nat) (p : Port) : (s.setPort n p).parkPull = s.parkPull := rfl
@[simp] theorem State.setPort_turn (s : State) (n : Nat) (p : Port) : (s.setPort n p).turn = s.turn := rfl
@[simp] theorem State.setPort_winAt (s : State) (n : Nat) (p : Port) : (s.setPort n p).winAt = s.winAt := rfl
@[simp] theorem State.setPort_pending (s : State) (n : Nat) (p : Port) : (s.setPort n p).pending = s.pending := rfl

/-! ## Reads of fields -/

@[simp] theorem State.rdi_wri_same (s : State) (f : Fld) (i j v : Nat) : (s.wri f i j v).rdi f i j = v % 2 ^ f.width := by
  simp [State.rdi, State.wri]

theorem State.rdi_wri_ne (s : State) (f g : Fld) (i j i' j' v : Nat) (h : g.key i' j' ≠ f.key i j) :
    (s.wri f i j v).rdi g i' j' = s.rdi g i' j' := by
  simp only [State.rdi, State.wri]
  simp only [SMap.put]
  split <;> simp [SMap.get_drop_ne _ _ h, SMap.get_place_ne _ _ _ h]

@[simp] theorem State.rd_wr_same (s : State) (f : Fld) (i v : Nat) : (s.wr f i v).rd f i = v % 2 ^ f.width := by
  simp [State.rd, State.wr]

theorem State.rd_wr_ne (s : State) (f g : Fld) (i i' v : Nat) (h : g.key i' 0 ≠ f.key i 0) : (s.wr f i v).rd g i' = s.rd g i' := by
  simp only [State.rd, State.wr]; exact State.rdi_wri_ne s f g i 0 i' 0 v h

theorem State.rd_congr {s t : State} (h : t.flds = s.flds) (f : Fld) (i : Nat) : t.rd f i = s.rd f i := by
  simp [State.rd, State.rdi, h]

theorem State.rdi_congr {s t : State} (h : t.flds = s.flds) (f : Fld) (i j : Nat) : t.rdi f i j = s.rdi f i j := by
  simp [State.rdi, h]

@[simp] theorem State.rd_emit (s : State) (o : Out) (f : Fld) (i : Nat) : (s.emit o).rd f i = s.rd f i := rfl
@[simp] theorem State.rd_count (s : State) (k n : Nat) (f : Fld) (i : Nat) : (s.count k n).rd f i = s.rd f i := rfl
@[simp] theorem State.rd_fresh (s : State) (f : Fld) (i : Nat) : s.fresh.2.rd f i = s.rd f i := rfl
@[simp] theorem State.rd_setPort (s : State) (n : Nat) (p : Port) (f : Fld) (i : Nat) : (s.setPort n p).rd f i = s.rd f i := rfl
@[simp] theorem State.rd_modPort (s : State) (n : Nat) (g : Port → Port) (f : Fld) (i : Nat) :
    (s.modPort n g).rd f i = s.rd f i := rfl

/-- A port after it was set; setting the port's reset value removes the entry. -/
@[simp] theorem State.port_setPort (s : State) (n : Nat) (p : Port) : (s.setPort n p).port n = p := by
  by_cases h : p = port0 <;> simp [State.port, State.setPort, h]

@[simp] theorem State.port_modPort (s : State) (n : Nat) (g : Port → Port) : (s.modPort n g).port n = g (s.port n) := by
  simp [State.modPort]

@[simp] theorem State.port_wr (s : State) (f : Fld) (i v n : Nat) : (s.wr f i v).port n = s.port n := rfl

@[simp] theorem State.counts_count (s : State) (k n : Nat) : SMap.get 0 (s.count k n).counts k = SMap.get 0 s.counts k + n := by
  simp [State.count]

theorem State.counts_count_ne (s : State) (k n : Nat) {j : Nat} (h : j ≠ k) :
    SMap.get 0 (s.count k n).counts j = SMap.get 0 s.counts j := by
  simp [State.count, SMap.get_put_ne _ _ _ h]

end Sys2Proof.Machine
end

