-- ==== Sys2Proof/Laws/Memory.lean ====
section
/-! SUPPORT. The laws of the two addressed memories: a read after a write, what a write leaves alone, and the canonical
form, which every operation that touches a memory keeps. -/

namespace Sys2Proof.Machine
open Sys2Proof

/-! ## Byte memories -/

/-- A write keeps the canonical form. -/
theorem writeMem_wf (bs : List Byte) (m : SMap Byte) (k : Nat) (h : Memory.wf m = true) :
    Memory.wf (writeMem m k bs) = true := by
  induction bs generalizing m k with
  | nil => exact h
  | cons b t ih => exact ih _ _ (SMap.wf_put 0 k b h)

/-- A write leaves every byte outside its range alone. -/
theorem writeMem_get_outside (bs : List Byte) (m : SMap Byte) (k a : Nat) (h : a < k ∨ k + bs.length ≤ a) :
    SMap.get 0 (writeMem m k bs) a = SMap.get 0 m a := by
  induction bs generalizing m k with
  | nil => rfl
  | cons b t ih =>
    simp only [List.length_cons] at h
    rw [writeMem, ih _ _ (by omega), SMap.get_put_ne _ _ _ (by omega)]

/-- A byte inside the range of a write reads as written. -/
theorem writeMem_get_inside (bs : List Byte) (m : SMap Byte) (k i : Nat) (h : i < bs.length) :
    SMap.get 0 (writeMem m k bs) (k + i) = bs[i] := by
  induction bs generalizing m k i with
  | nil => simp at h
  | cons b t ih =>
    cases i with
    | zero => rw [writeMem, writeMem_get_outside _ _ _ _ (by omega)]; simp
    | succ j =>
      have := ih (SMap.put 0 m k b) (k + 1) j (by simpa using h)
      rw [show k + 1 + j = k + (j + 1) by omega] at this
      simpa [writeMem] using this

/-- A read of the range just written gives the bytes written. -/
theorem readMem_writeMem (bs : List Byte) (m : SMap Byte) (k : Nat) : readMem (writeMem m k bs) k bs.length = bs := by
  apply List.ext_getElem
  · simp [readMem]
  · intro i h1 h2
    simpa [readMem] using writeMem_get_inside bs m k i h2

/-- Zeroing a range keeps the canonical form. -/
theorem zeroRange_wf (k n : Nat) {m : SMap Byte} (h : Memory.wf m = true) : Memory.wf (zeroRange k n m) = true :=
  SMap.wf_clear 0 _ h

/-- The memories right after reset are in canonical form. -/
theorem reset_memWf : State.reset.memWf = true := rfl

/-! ## Operations that leave both memories alone -/

/-- `t` holds the same bytes as `s` in the vaults and in Mere. -/
def State.SameMem (s t : State) : Prop := t.vault = s.vault ∧ t.mere = s.mere

theorem State.SameMem.rfl' (s : State) : s.SameMem s := ⟨rfl, rfl⟩

theorem State.SameMem.trans {s t u : State} (h1 : s.SameMem t) (h2 : t.SameMem u) : s.SameMem u :=
  ⟨h2.1.trans h1.1, h2.2.trans h1.2⟩

theorem State.SameMem.wf {s t : State} (h : s.SameMem t) (hs : s.memWf = true) : t.memWf = true := by
  simpa [State.memWf, h.1, h.2] using hs

/-- A fold leaves the memories alone when each of its steps does. -/
theorem State.SameMem.foldl {α : Type} (f : State → α → State) (hf : ∀ (t : State) (a : α), t.SameMem (f t a)) (l : List α) (s : State) :
    s.SameMem (l.foldl f s) := by
  induction l generalizing s with
  | nil => exact .rfl' s
  | cons a t ih => exact (hf s a).trans (ih _)

theorem State.sameMem_wri (s : State) (f : Fld) (i j v : Nat) : s.SameMem (s.wri f i j v) := ⟨rfl, rfl⟩
theorem State.sameMem_wr (s : State) (f : Fld) (i v : Nat) : s.SameMem (s.wr f i v) := ⟨rfl, rfl⟩
theorem State.sameMem_emit (s : State) (o : Out) : s.SameMem (s.emit o) := ⟨rfl, rfl⟩
theorem State.sameMem_count (s : State) (k n : Nat) : s.SameMem (s.count k n) := ⟨rfl, rfl⟩

theorem State.sameMem_countP (s : State) (o j n : Nat) : s.SameMem (s.countP o j n) := by
  unfold State.countP; split <;> exact ⟨rfl, rfl⟩

theorem State.sameMem_bump (s : State) (f : Fld) (i n : Nat) : s.SameMem (s.bump f i n) := ⟨rfl, rfl⟩
theorem State.sameMem_bumpi (s : State) (f : Fld) (i j n : Nat) : s.SameMem (s.bumpi f i j n) := ⟨rfl, rfl⟩
theorem State.sameMem_bumpSat (s : State) (f : Fld) (i j n : Nat) : s.SameMem (s.bumpSat f i j n) := ⟨rfl, rfl⟩
theorem State.sameMem_setDirty (s : State) (z : ZeroItem) (b : Bool) : s.SameMem (s.setDirty z b) := ⟨rfl, rfl⟩

theorem State.sameMem_sendMsix (s : State) (o vec : Nat) : s.SameMem (s.sendMsix o vec) := by
  unfold State.sendMsix; dsimp only; split
  · exact ⟨rfl, rfl⟩
  · exact ((s.sameMem_emit _).trans (State.sameMem_count _ _ _)).trans (State.sameMem_countP _ _ _ _)

theorem State.sameMem_ringPut (s : State) (r : RingRegs) (rid o inst size : Nat) (mk : Nat → List Byte) :
    s.SameMem (s.ringPut r rid o inst size mk) := by
  unfold State.ringPut; dsimp only; split
  · exact .rfl' s
  split
  · split <;> exact ⟨rfl, rfl⟩
  refine State.SameMem.trans ?_ (State.sameMem_sendMsix _ _ _)
  split <;> split <;> first | exact ⟨rfl, rfl⟩ | exact State.SameMem.trans ⟨rfl, rfl⟩ (State.sameMem_countP _ _ _ _)

theorem State.sameMem_raise (s : State) (o code a b : Nat) (src : Option Nat) : s.SameMem (s.raise o code a b src) :=
  s.sameMem_ringPut _ _ _ _ _ _

theorem State.sameMem_raiseAll (s : State) (code a b : Nat) : s.SameMem (s.raiseAll code a b) :=
  .foldl _ (fun t o => by split; exacts [t.sameMem_raise _ _ _ _ _, .rfl' t]) _ _

theorem State.sameMem_cper (s : State) (sev : Nat) (body : List Byte) : s.SameMem (s.cper sev body) :=
  have h := s.sameMem_ringPut cperRing 20 16 0 256 (fun _ => cperBytes sev s.cperCount body)
  ⟨h.1, h.2⟩

theorem State.sameMem_platformEvent (s : State) (a b c : Nat) : s.SameMem (s.platformEvent a b c) := by
  unfold State.platformEvent; split <;> exact ⟨rfl, rfl⟩

theorem State.sameMem_sensorEvent (s : State) (a b c : Nat) : s.SameMem (s.sensorEvent a b c) := by
  unfold State.sensorEvent; split
  exacts [.rfl' s, s.sameMem_platformEvent _ _ _]

theorem State.sameMem_setCause (s : State) (c : Cause) : s.SameMem (s.setCause c) := by
  unfold State.setCause; split
  · exact .rfl' s
  extract_lets before s1 s2 body s3
  have h : s.SameMem s3 :=
    (State.SameMem.trans (t := s1) ⟨rfl, rfl⟩ (s1.sameMem_raise _ _ _ _ _)).trans (s2.sameMem_cper 0 body)
  split
  · exact h.trans (s3.sameMem_platformEvent _ _ _)
  · exact h

theorem State.sameMem_mirror (s : State) (c f v : Nat) : s.SameMem (s.mirror c f v) := by
  unfold State.mirror; dsimp only; split
  · exact .rfl' s
  split
  · split <;> exact ⟨rfl, rfl⟩
  · exact State.SameMem.trans ⟨rfl, rfl⟩ (State.sameMem_raise _ _ _ _ _ _)

theorem State.sameMem_notifyIrq (s : State) (c : Nat) : s.SameMem (s.notifyIrq c) := by
  unfold State.notifyIrq; dsimp only
  split
  · exact s.sameMem_sendMsix _ _
  split
  · split
    · exact State.SameMem.trans ⟨rfl, rfl⟩ (State.sameMem_sendMsix _ _ _)
    · exact ⟨rfl, rfl⟩
  · exact .rfl' s

theorem State.sameMem_notifyAll (s : State) (f : Nat) : s.SameMem (s.notifyAll f) :=
  State.SameMem.trans (.foldl _ (fun t c => t.sameMem_mirror c f _) _ s) (.foldl _ (fun t c => t.sameMem_notifyIrq c) _ _)

theorem State.sameMem_countSignal (s : State) (o : Nat) (e : Option Err) : s.SameMem (s.countSignal o e) := by
  unfold State.countSignal; dsimp only
  have h := ((s.sameMem_count (devCnt 4) 1).trans (State.sameMem_countP _ o 6 1)).trans
    (State.sameMem_countP _ o (outcomeCnt e) 1)
  split
  · exact h.trans (State.sameMem_count _ _ _)
  · exact h

/-- A signal writes the fence, counts, and notifies the host: no byte of the part's memory changes. -/
theorem State.sameMem_signal (s : State) (f : Nat) (e : Option Err) : s.SameMem (s.signal f e) := by
  unfold State.signal; split
  · extract_lets s0 s1
    exact (State.SameMem.trans (t := s0) ⟨rfl, rfl⟩ (s0.sameMem_countSignal _ _)).trans (s1.sameMem_notifyAll f)
  · exact .rfl' s

theorem State.sameMem_signalOpt (s : State) (f : Option Nat) (e : Option Err) : s.SameMem (s.signalOpt f e) := by
  unfold State.signalOpt; split
  exacts [.rfl' s, s.sameMem_signal _ _]

theorem State.sameMem_takeFence (s : State) (o : Nat) (fe : Option Nat) (op : OpSel) :
    s.SameMem (s.takeFence o fe op).2 := by
  unfold State.takeFence; split
  · exact .rfl' s
  split
  · exact .rfl' s
  split <;> exact ⟨rfl, rfl⟩

theorem State.sameMem_pageErr (s : State) (b : Block) (inst off : Nat) (e : PgErr) : s.SameMem (s.pageErr b inst off e) := by
  unfold State.pageErr; dsimp only; split
  · exact ⟨rfl, rfl⟩
  · exact State.SameMem.trans ⟨rfl, rfl⟩ (State.sameMem_raise _ _ _ _ _ _)

/-! ## Vault memory and Mere -/

theorem State.sameMem_retireVault (s : State) (v : Nat) : s.SameMem (s.retireVault v) := by
  unfold State.retireVault; split
  · exact .rfl' s
  extract_lets t s1 s2 s3 s4
  have h1 : s.SameMem s1 := s.sameMem_wri _ _ _ _
  clear_value s1
  have h2 : s1.SameMem s2 := .foldl _ (fun u j => by split; exacts [u.sameMem_wri _ _ _ _, .rfl' u]) _ s1
  clear_value s2
  have h3 : s2.SameMem s3 := ⟨rfl, rfl⟩
  clear_value s3
  have h4 : s3.SameMem s4 :=
    have h (u : State) (hu : s3.SameMem u) : s3.SameMem ((u.setCause .retired).raise 16 evVaultRetired v 0) :=
      (hu.trans (u.sameMem_setCause .retired)).trans (State.sameMem_raise _ _ _ _ _ _)
    h _ ⟨rfl, rfl⟩
  clear_value s4
  refine (((h1.trans h2).trans h3).trans h4).trans (.foldl _ (fun u p => ?_) _ s4)
  dsimp only; split
  exacts [u.sameMem_raise _ _ _ _ _, .rfl' u]

theorem State.sameMem_testRetire (s : State) (v : Nat) : s.SameMem (s.testRetire v) := by
  unfold State.testRetire; split
  exacts [s.sameMem_retireVault v, .rfl' s]

theorem State.sameMem_plog (s : State) (v a k : Nat) (w : Who) : s.SameMem (s.plog v a k w) := by
  unfold State.plog
  cases w with
  | background => exact ⟨rfl, rfl⟩
  | run id o => exact State.SameMem.trans ⟨rfl, rfl⟩ (State.sameMem_countP _ _ _ _)

theorem State.sameMem_candRow (s : State) (v l : Nat) : s.SameMem (s.candRow v l) := by
  unfold State.candRow
  extract_lets t key n s1
  split
  · exact .rfl' s
  have h1 : s.SameMem s1 := ⟨rfl, rfl⟩
  clear_value s1
  split
  rename_i b r _
  split
  · exact h1
  split
  · exact h1.trans ⟨rfl, rfl⟩
  · exact h1.trans ⟨rfl, rfl⟩

theorem State.sameMem_weakRow (s : State) (v l : Nat) : s.SameMem (s.weakRow v l) :=
  have h (u : State) (hu : s.SameMem u) : s.SameMem (u.candRow v l) := hu.trans (u.sameMem_candRow v l)
  h _ ⟨rfl, rfl⟩

theorem State.sameMem_queueWb (s : State) (v g : Nat) : s.SameMem (s.queueWb v g) := by
  unfold State.queueWb; extract_lets q
  split
  · exact .rfl' s
  split <;> exact ⟨rfl, rfl⟩

theorem State.sameMem_countCe (s : State) (v l : Nat) (w : Who) : s.SameMem (s.countCe v l w) := by
  unfold State.countCe; extract_lets s1 s2
  have h1 : s.SameMem s1 := ⟨rfl, rfl⟩
  have h2 : s1.SameMem s2 := by cases w; exacts [s1.sameMem_countP _ _ _, .rfl' s1]
  exact (h1.trans h2).trans (s2.sameMem_weakRow _ _)

theorem State.sameMem_countUe (s : State) (v : Nat) : s.SameMem (s.countUe v) :=
  State.SameMem.trans ⟨rfl, rfl⟩ (State.sameMem_testRetire _ _)

theorem State.sameMem_cancelWb (s : State) (v g : Nat) : s.SameMem (s.cancelWb v g) := ⟨rfl, rfl⟩

theorem State.sameMem_mirrorSpare (s : State) (v l : Nat) (bs : List Byte) : s.SameMem (s.mirrorSpare v l bs) := by
  unfold State.mirrorSpare; extract_lets k
  split <;> exact ⟨rfl, rfl⟩

/-- A read of vault memory changes no byte of it. -/
theorem State.sameMem_readVault (s : State) (w : Who) (a n : Nat) : s.SameMem (s.readVault w a n).2 := by
  unfold State.readVault; split
  · exact .rfl' s
  split
  · exact .rfl' s
  extract_lets k kind
  split
  · exact .rfl' s
  · exact (s.sameMem_countCe _ _ _).trans (State.sameMem_queueWb _ _ _)
  · rename_i s1 _ _
    have h1 : s.SameMem s1 := ⟨rfl, rfl⟩
    clear_value s1
    exact h1.trans ((s1.sameMem_plog _ _ _ _).trans (State.sameMem_countUe _ _))
  · exact s.sameMem_plog _ _ _ _

/-- A read of Mere changes no state. -/
theorem State.readMere_state (s : State) (o n : Nat) : (s.readMere o n).2 = s := by
  unfold State.readMere; split <;> rfl

/-- What a write within one granule of vault memory leaves in the memories: where the section locates the address in a
vault and no code is answered, the bytes are stored at it; else nothing is stored. Mere is left alone. -/
theorem State.writeVault_mem (s : State) (w : Who) (a : Nat) (bs : List Byte) :
    (s.writeVault w a bs).2.mere = s.mere ∧
    ((s.writeVault w a bs).1 = none → ∃ v l, s.locate a = some (v, l) ∧ s.retired v = false ∧
      (s.writeVault w a bs).2.vault = writeMem s.vault (vaultKey v l) bs) ∧
    ((s.writeVault w a bs).1 ≠ none → (s.writeVault w a bs).2.vault = s.vault) := by
  unfold State.writeVault
  split
  · exact ⟨rfl, nofun, fun _ => rfl⟩
  rename_i v l hl
  split
  · exact ⟨rfl, nofun, fun _ => rfl⟩
  rename_i hr
  replace hr : s.retired v = false := by simpa using hr
  extract_lets k g s0 store
  have h0 : s.SameMem s0 :=
    ((s.sameMem_cancelWb v g).trans (State.sameMem_mirrorSpare _ v l bs)).trans (State.sameMem_setDirty _ _ _)
  clear_value s0
  have hs : (store s0).mere = s.mere ∧ (store s0).vault = writeMem s.vault (vaultKey v l) bs :=
    ⟨h0.2, by show writeMem s0.vault k bs = _; rw [h0.1]⟩
  clear_value store
  split
  · exact ⟨hs.1, fun _ => ⟨v, l, hl, hr, hs.2⟩, fun h => absurd rfl h⟩
  split
  · exact ⟨hs.1, fun _ => ⟨v, l, hl, hr, hs.2⟩, fun h => absurd rfl h⟩
  · have h := (store s0).sameMem_countCe v l w
    exact ⟨h.2.trans hs.1, fun _ => ⟨v, l, hl, hr, h.1.trans hs.2⟩, fun h => absurd rfl h⟩
  · rename_i s1 _ _ _
    have h1 : s.SameMem s1 := h0.trans ⟨rfl, rfl⟩
    clear_value s1
    have h := h1.trans ((s1.sameMem_plog v a 1 w).trans (State.sameMem_countUe _ v))
    exact ⟨h.2, nofun, fun _ => h.1⟩
  · have h := h0.trans (s0.sameMem_plog v a 1 w)
    exact ⟨h.2, nofun, fun _ => h.1⟩

/-- A write of vault memory keeps the canonical form. -/
theorem State.writeVault_memWf (s : State) (w : Who) (a : Nat) (bs : List Byte) (h : s.memWf = true) :
    (s.writeVault w a bs).2.memWf = true := by
  obtain ⟨hm, h0, h1⟩ := s.writeVault_mem w a bs
  simp only [State.memWf, Bool.and_eq_true] at h ⊢
  refine ⟨?_, hm ▸ h.2⟩
  cases hc : (s.writeVault w a bs).1 with
  | none => obtain ⟨v, l, -, -, he⟩ := h0 hc; rw [he]; exact writeMem_wf _ _ _ h.1
  | some e => rw [h1 (by simp [hc])]; exact h.1

/-- A write of Mere keeps the canonical form. -/
theorem State.writeMere_memWf (s : State) (o : Nat) (bs : List Byte) (h : s.memWf = true) :
    (s.writeMere o bs).2.memWf = true := by
  unfold State.writeMere; dsimp only; split
  · exact h
  · simp only [State.memWf, Bool.and_eq_true] at h ⊢
    exact ⟨h.1, writeMem_wf _ _ _ h.2⟩

/-- A property that each step of a fold keeps holds at its end. -/
theorem State.memWf_foldl {α : Type} (f : State → α → State)
    (hf : ∀ (t : State) (a : α), t.memWf = true → (f t a).memWf = true) (l : List α) (s : State) (h : s.memWf = true) :
    (l.foldl f s).memWf = true := by
  induction l generalizing s with
  | nil => exact h
  | cons a t ih => exact ih _ (hf s a h)

/-- Zeroing part of an item keeps the canonical form. -/
theorem State.zeroBytes_memWf (s : State) (z : ZeroItem) (off n : Nat) (h : s.memWf = true) :
    (s.zeroBytes z off n).memWf = true := by
  cases z with
  | way w => exact h
  | mereUnit u =>
    simp only [State.memWf, Bool.and_eq_true] at h
    exact Bool.and_eq_true_iff.2 ⟨h.1, zeroRange_wf _ _ h.2⟩
  | extent e =>
    unfold State.zeroBytes
    refine State.memWf_foldl _ (fun t i ht => ?_) _ _ h
    split
    · exact ht
    split
    · exact ht
    · simp only [State.memWf, Bool.and_eq_true] at ht
      exact Bool.and_eq_true_iff.2 ⟨zeroRange_wf _ _ ht.1, ht.2⟩

end Sys2Proof.Machine
end

