-- ==== Sys2Proof/Laws/Steps.lean ====
section
/-! SUPPORT. The laws of the shared operations through which the steps of runs, the Planisher's instructions and the moves
of states go: what each of them does where its condition holds. -/

namespace Sys2Proof.Machine
open Sys2Proof

/-! ## Steps of runs -/

/-- A ready step is done something with, unless a weir turns one of its accesses away. -/
theorem State.onStep_ready {s : State} {id i : Nat} {e : Eng} {a : Act} (h : StepReady s id i e a) (k : Act → State) :
    s.onStep id i e k = s.unlessDenied (k a) := by
  obtain ⟨h1, h2, h3, h4⟩ := h; simp [State.onStep, h1, h2, h3, h4]

/-- A ready step whose accesses all pass is done something with. -/
theorem State.onStep_passed {s : State} {id i : Nat} {e : Eng} {a : Act} (h : StepReady s id i e a) {k : Act → State}
    (hk : (k a).denied = false) : s.onStep id i e k = k a := by
  simp [State.onStep_ready h, State.unlessDenied, hk]

/-- A step that works in the present tick runs. -/
theorem State.workNow?_act? {s : State} {id i : Nat} {a : Act} (h : s.workNow? id i = some a) : s.act? id i = some a := by
  unfold State.workNow? at h
  split at h
  · rename_i b hb
    split at h
    · exact hb.trans h
    · cases h
  · cases h

/-- An event at a step that does not run changes nothing. -/
theorem State.onStep_none {s : State} {id i : Nat} (e : Eng) (h : s.act? id i = none) (k : Act → State) :
    s.onStep id i e k = s := by
  simp [State.onStep, h]

/-- A step that runs names its own run and index. -/
theorem State.act?_run {s : State} {id i : Nat} {a : Act} (h : s.act? id i = some a) : a.run.id = id ∧ a.idx = i := by
  unfold State.act? at h
  split at h
  · cases h
  rename_i r hr
  split at h
  · split at h
    · cases h
      exact ⟨by simpa [State.run?] using List.find?_some hr, rfl⟩
    · cases h
  · cases h

/-- An engine whose own storage shows no uncorrectable error works on, after a correctable one was counted. -/
theorem State.flawed_noted (s : State) (a : Act) {f : Flaw} (h : f ≠ .uncorrectable) (k : State → State) :
    s.flawed a f k = k (s.noted a f) := by
  cases f <;> first | rfl | exact absurd rfl h

/-- A step whose descriptor is read goes on with its bytes. -/
theorem State.withDesc_bytes {s s1 : State} {a : Act} {d : List Byte} (h : s.descOf a = (.bytes d, s1))
    (k : List Byte → State → State) : s.withDesc a k = k d s1 := by
  simp [State.withDesc, h]

/-! ## The Planisher -/

/-- An instruction of the Planisher at its own opcode, met with no uncorrectable error: it answers a program, which moves
on, or a code, with which its run fails. -/
theorem State.plRun_ready {s : State} {t : Fin 8} {p : Pl} {w : Nat} {a : Act} (h : PlReady s t p w a) {f : Flaw}
    (hf : f ≠ .uncorrectable) {op : Nat} (ho : plOp w = op) (k : Act → Pl → Nat → State → PlRes) :
    s.plRun t.val op f k = (match k a p w s with
      | (.ok p', s1) => s1.plDone t op a p'
      | (.error e, s1) => s1.plFail t p.run e) := by
  obtain ⟨h1, h2, h3, h4⟩ := h
  simp [State.plRun, h1, h2, h3, h4, ho, hf] <;> rfl

/-- An instruction on registers only always moves on. -/
theorem State.plReg_ready {s : State} {t : Fin 8} {p : Pl} {w : Nat} {a : Act} (h : PlReady s t p w a) {f : Flaw}
    (hf : f ≠ .uncorrectable) {op : Nat} (ho : plOp w = op) (k : Pl → Nat → Pl) :
    s.plReg t.val op f k = s.plDone t op a (k p w) := by
  simp [State.plReg, State.plRun_ready h hf ho]

/-! ## Long operations, links and levels -/

/-- Without an operation of its kind an operation register is not busy. -/
theorem State.opBusy_none {s : State} {k : OpKind} {i : Nat} (h : s.op? k i = none) : s.opBusy k i = false := by
  simp [State.opBusy, h]

/-- A port moved to a state is in it. -/
theorem State.cwMove_cwSt (s : State) (n st : Nat) (h : st < 8) : (s.cwMove n st).cwSt n = st := by
  unfold State.cwMove
  extract_lets s0 s1
  have h1 : ((s1.wr F.CW_STATE_STATE n st).modPort n fun p => { p with since := s.ns }).cwSt n =
      (s1.wr F.CW_STATE_STATE n st).cwSt n := rfl
  rw [h1, State.cwSt, State.rd_wr_same]
  exact Nat.mod_eq_of_lt h

/-- A sensor's event leaves the registers. -/
theorem State.sensorEvent_rd (s : State) (id a b : Nat) (f : Fld) (i : Nat) : (s.sensorEvent id a b).rd f i = s.rd f i := by
  unfold State.sensorEvent; split
  · rfl
  · rw [State.platformEvent]; split <;> rfl

/-- The device moved to a power state is in it. -/
theorem State.pwrMove_pwr (s : State) (n : Nat) (h : n < 8) : (s.pwrMove n).pwr = n := by
  unfold State.pwrMove
  extract_lets s1
  rw [State.pwr, State.sensorEvent_rd, State.rd_wr_same]
  exact Nat.mod_eq_of_lt h

end Sys2Proof.Machine
end

