-- ==== Sys2Proof/Tests/Slice0.lean ====
section
/-! SUPPORT. The model's own tests: an ill-formed command for each check of WellFormed.lean, values that spec/ or a hand
calculation from it gives, and for every statement with hypotheses a state and operands that meet them together. -/

namespace Sys2Proof.Tests
open Sys2Proof Sys2Proof.Machine
set_option Elab.async false

/-! ## Small states -/

/-- A part whose planes are READY. -/
def up : State := State.reset.setPhase 5

/-- A memory object of the PF's context 0: the first MiB of its address space is the first unit of Mere. -/
def mob0 : Mob :=
  { slot := 0, owner := 16, ctx := 0, page := 0, pages := 256, pinned := true, write := true, broken := false
    ents := [{ page := 0, pages := 256, res := .leaf 1 0 true }] }

/-- A lode of `n` steps with one instance, open for input and output. -/
def lode0 (n : Nat) : Lode :=
  { firstStep := 0, stepCount := n, capTrunc := false, period := 1024, phase := 0, instances := 1, tierMax := 3
    levelMask := 15, bagCap := 64, duration := 1024, maxWait := 4096, faultAllow := 0, minIn := 0, maxIn := 4096
    outLen := 0, scratchStride := 0 }

/-- A step on a lane, whose descriptor of `len` bytes lies `off` bytes into the descriptor section. -/
def pstep (lane off len : Nat) : PStep :=
  { lane := lane, laneCount := 1, start := 0, duration := 512, pageable := false, output := false, remote := false
    dep0 := 0x3F, dep1 := 0x3F, share := 0, descOff := off, descLen := len, grant := 0 }

/-- A plan of one lode with these steps; its descriptors are read through context 0 from address 0. -/
def plan0 (steps : List PStep) : Plan :=
  { crc := 0, frameLen := 1024, lodes := [lode0 steps.length], steps := steps, fits := [], grants := [], descs := []
    descVa := 0, descCtx := 0 }

/-- An admitted run of the PF with its steps in these states. -/
def run0 (st : List StepSt) : Run :=
  { id := 0, owner := 16, ctx := 0, queue := 0, lode := 0, block := [0, 0, 0, 0, 0, 0, 0, 0], fence := 0
    phase := .admitted, accepted := 0, deferred := false, staging := .done, staged := [], stageN := 0, reserve := 0
    inHeld := false, outHeld := false, admittedAt := 0, under := none, inst := 0, pin := 0, steps := st, data := []
    stalledTicks := 0, stop := none, late := [], trunc := false }

/-- A READY part that holds a run of a plan, with these bytes at the start of Mere. -/
def having (steps : List PStep) (r : Run) (mere : List Byte) : State :=
  { up with plans := [(16, some (plan0 steps))], runs := [r], mobs := [mob0], mere := writeMem [] 0 mere }

/-- One step runs on a lane; its descriptor is `d`, followed in Mere by `rest`. -/
def atStep (lane : Nat) (d rest : List Byte) : State :=
  having [pstep lane 0 d.length] (run0 [.running 0]) (d ++ rest)

/-- The running step `i` of run 0 of a state. -/
def actOf (s : State) (i : Nat) : Act :=
  (s.act? 0 i).getD { run := run0 [], plan := plan0 [], lode := lode0 0, idx := 0, step := pstep 0 0 0, start := 0 }

/-- The bytes that a read gives, none when it fails. -/
def got (x : Got × State) : List Byte := match x.1 with | .bytes b => b | .fail _ => []

/-- Is step `i` of run 0 ready for an engine of kind `e`? -/
def readyB (s : State) (i : Nat) (e : Eng) : Bool :=
  match s.act? 0 i with
  | some a => decide (a.step.eng = some e) && !(a.run.late.any (fun x => x.1 == i)) && s.actWorks a
  | none => false

theorem ready_of {s : State} {i : Nat} {e : Eng} (h : readyB s i e = true) : StepReady s 0 i e (actOf s i) := by
  unfold readyB at h
  unfold StepReady actOf
  cases hs : s.act? 0 i with
  | none => simp [hs] at h
  | some a => simpa [hs, and_assoc] using h

/-- A table slot of the polder or PF. -/
def slot0 : TableSlot :=
  { rows := 16, base := 0, dim := 4, fmt := 0, live := false, acc := false, dedup := false, scaleKind := 0, log2N := 0
    hash := 0, salt := 0, remapVa := 0, remapLen := 0, sidecarVa := 0, scales := [], closing := none }

/-- A plan whose one lode takes no input and gives no output. -/
def wPlan : Plan := plan0 [pstep 0x120 0 64]

/-- Does a read of operands succeed? -/
def okB {α : Type} (x : Except Err α × State) : Bool := match x.1 with | .ok _ => true | .error _ => false

/-! ## Commands of the host, witnesses -/

/-- The PF's queue 0 stands on its enabled context 0, whose window covers fences 0 to 7. -/
def wDoor : State :=
  (((up.wr F.CTX_STATUS_STATE 0 1).wr F.CTX_CFG_ENABLE 0 1).wr F.CTX_FENCES_BASE 0 0).wr F.CTX_FENCES_COUNT 0 8

/-- A run block that names lode 5 and fence 7. -/
def block57 : List Byte := leBytes 8 5 ++ leBytes 16 0 ++ leBytes 8 7 ++ leBytes 32 0

theorem test_witness_runBlock :
    wDoor.ready = true ∧ wDoor.queueAt .pf 0 = some 0 ∧ wDoor.ownerOf .queue 0 = Fn.pf.idx ∧ block57.length = 64 ∧
    0xFC0 % 64 = 0 ∧ 0x400 ≤ 0xFC0 ∧ 0xFC0 < 0x1000 ∧ wDoor.ctxOpen Fn.pf.idx (wDoor.rd F.Q_CFG_CTX 0) = true ∧
    wDoor.fenceGlobal Fn.pf.idx (numAt block57 24 8 % 2 ^ 17) = some 7 ∧
    wDoor.inWindow (wDoor.rd F.Q_CFG_CTX 0) (numAt block57 24 8 % 2 ^ 17) = true ∧ wDoor.fence 7 = .armed := by
  decide +kernel

/-- A block at the last slot of the page takes fence 7, and, with no plan in force, fails at check 5. -/
theorem test_runBlock_noPlan :
    ((wDoor.doorbell .pf 0 0xFC0 block57).fence 7, (wDoor.doorbell .pf 0 0xFC0 block57).runs,
      SMap.get 0 (wDoor.doorbell .pf 0 0xFC0 block57).counts (devCnt 0)) = (.signalled (some .lodeUnknown) 0, [], 1) := by
  decide +kernel

/-- Torn writes at both ends of the doorbell area: one that ends inside it, and one short at its last byte. -/
theorem test_witness_tornWrite :
    wDoor.ready = true ∧ wDoor.queueAt .pf 1023 = some 1023 ∧ wDoor.ownerOf .queue 1023 = Fn.pf.idx ∧
    (0x400 < 0x3F8 + (leBytes 16 0).length ∧ 0x3F8 < 0x1000 ∧ (leBytes 16 0).length ≠ 64) ∧
    (0x400 < 0xFFF + (leBytes 1 0).length ∧ 0xFFF < 0x1000 ∧ 0xFFF % 64 ≠ 0) ∧
    (0x400 < 0x3C8 + (leBytes 64 0).length ∧ 0x3C8 < 0x400) := by
  decide +kernel

theorem test_witness_deferredCheck :
    let r := { run0 [.waiting] with deferred := true, phase := .queued, block := [0x30000, 0, 0, 0, 0, 0, 0, 0] }
    let s := { having wPlan.steps r [] with runs := [r] }
    s.run? 0 = some r ∧ r.deferred = true ∧ s.planOf r.owner = some wPlan ∧ wPlan.lode r.lode = some (lode0 1) ∧
    s.deferred8 r.ctx wPlan (lode0 1) = false ∧ s.check8 r wPlan (lode0 1) = (s, none) ∧ s.check7 r (lode0 1) = none := by
  decide +kernel

/-- A payload of 4,096 bytes waits; then it is read; then its reads end. -/
def wStage (x : Staging) : State :=
  having wPlan.steps { run0 [.waiting] with staging := x, phase := .queued, inHeld := true, stageN := 4096
                                            block := [0, 4096 * 2 ^ 24, 0, 0, 0, 0, 0, 0] } []

theorem test_witness_staging :
    ((wStage .waiting).runs.find? (fun r => r.owner == 16 && r.staging == .waiting)).isSome = true ∧
    (wStage .waiting).runs.map (fun r => (wStage .waiting).stageUsed 16 + ceilDiv ((wStage .waiting).stageLen r) 256 * 256)
      = [4096] ∧
    (wStage .waiting).bme 16 = true ∧
    (wStage .reading).runs.map (fun r => (r.staging, r.inHeld)) = [(.reading, true)] ∧ Cpl.poisoned ≠ Cpl.ok := by
  decide +kernel

/-- The first and the last fence of the last block, in each of the states of R95. -/
def wFence (f : Nat) (st : FenceSt) : State := { up with fences := [(f, st)], runs := [run0 []] }

theorem test_witness_rearm :
    (wFence 65535 (.signalled none 0)).ready = true ∧
    (wFence 65535 (.signalled none 0)).fenceGlobal Fn.pf.idx (512 * 127 + 511) = some 65535 ∧
    (wFence 65535 (.signalled none 0)).fence 65535 = .signalled none 0 ∧ (2 : Word).toNat % 2 = 0 ∧
    (wFence 65024 (.held (.run 0))).fenceGlobal Fn.pf.idx (512 * 127 + 0) = some 65024 ∧
    (wFence 65024 (.held (.run 0))).fence 65024 = .held (.run 0) ∧
    ((wFence 65024 (.held (.run 0))).run? 0).isSome = true ∧ (3 : Word).toNat % 2 = 1 ∧ up.fence 0 = .armed ∧
    (wFence 0 (.held (.cmd ⟨.rv, 0⟩))).fence 0 = .held (.cmd ⟨.rv, 0⟩) := by
  decide +kernel

/-- The mask of the CLOCK page's error bits is an RW register that nothing locks. -/
theorem test_witness_registerWrite :
    up.pageAt .pf false 2 = some (.regs .clock 0) ∧ up.writesPage .pf .clock 0 = true ∧ reservedOff .clock 0 0x028 = false ∧
    (regAt .clock 0x028).map (fun x => (x.1.fields, x.1.own, x.2)) = some ([F.PG_ERR_MASK_MASK.on .clock], false, 0) ∧
    (F.PG_ERR_MASK_MASK.on .clock).isLegal
      (up.mergedField { value := 15, lo := true, hi := true } 0 0 (F.PG_ERR_MASK_MASK.on .clock)) = true ∧
    up.regOk Fn.pf.idx .clock 0 0x028 0 (up.mergedField { value := 15, lo := true, hi := true } 0 0) = true ∧
    up.rd (F.PG_CTRL_LOCK.on .clock) 0 = 0 ∧
    up.hiddenPage .pf (.regs .clock 0) = false ∧ accessShape 4094 4 = .bad ∧ accessShape 0 2 = .bad ∧ accessShape 8 72 = .bad ∧
    accessShape 0 16 = .words 2 ∧ accessShape 0x3C0 64 = .words 8 ∧
    up.pageAt .pf true 1023 = some (.regs .queue 1023) ∧ up.writesPage .pf .queue 1023 = true ∧
    up.pageAt .pf false 0x27F = some (.fences 127) := by
  decide +kernel

/-- The ends of the MSI-X tables and of the PBA, and accesses that are neither 4 nor 8 aligned bytes. -/
theorem test_witness_bar4 :
    bar4Shape Fn.pf.idx = (4096, 0x2000, 32) ∧ bar4Shape (Fn.vf 15).idx = (1792, 0x1000, 16) ∧
    (leBytes 4 0).length = 4 ∧ 4092 % 4 = 0 ∧ 4092 + 4 ≤ 4096 ∧ (leBytes 8 0).length = 8 ∧ 1784 % 8 = 0 ∧ 1784 + 8 ≤ 1792 ∧
    0x2018 % 8 = 0 ∧ 0x2000 ≤ 0x2018 ∧ 0x2018 + 8 ≤ 0x2000 + 32 ∧ (leBytes 2 0).length ≠ 4 ∧ (leBytes 2 0).length ≠ 8 ∧
    4 % (leBytes 8 0).length ≠ 0 := by
  decide +kernel

/-- A field of each access type, at the ends of the register. -/
theorem test_witness_fieldWrites :
    (F.Q_CFG_CTX.acc = .rw ∧ 0 < F.Q_CFG_CTX.width ∧ F.Q_CFG_CTX.lo + F.Q_CFG_CTX.width ≤ 64 ∧
      up.rdi F.Q_CFG_CTX 1023 0 < 2 ^ F.Q_CFG_CTX.width ∧ up.takesWrite .queue 1023 F.Q_CFG_CTX = true) ∧
    ((F.PG_ERR_BAD_SIZE.on .clock).acc = .w1c ∧ up.rdi (F.PG_ERR_BAD_SIZE.on .clock) 0 0 < 2 ^ 1) ∧
    ((F.PG_CTRL_LOCK.on .clock).acc = .w1s ∧ up.rdi (F.PG_CTRL_LOCK.on .clock) 0 0 < 2 ^ 1) ∧ F.RST_BOOT_PHASE.acc = .ro := by
  decide +kernel

theorem test_witness_hasp :
    up.haspReach (.fn .pf) = true ∧ up.hspState 63 = hspFree ∧
    (up.setHasp 0 hspHeld (up.identity (.fn .pf))).hspState 0 = hspHeld ∧
    (up.setHasp 0 hspHeld (up.identity (.fn .pf))).hspIdent 0 = up.identity (.fn .pf) ∧
    State.reset.haspReach .mgc = true ∧ (up.setHasp 0 hspHeld (up.identity (.fn .pf))).hspIdent 0 ≠ up.identity .mgc := by
  decide +kernel

/-- An acquire of a FREE hasp answers ACQUIRED (1) with the PF's identity; the second acquire of the holder answers 3. -/
theorem test_hasp_acquire :
    ((up.haspAcquire (.fn .pf) 5).out, ((up.haspAcquire (.fn .pf) 5).haspAcquire (.fn .pf) 5).out.head?) =
      ([.ret 16 (1 * 2 ^ 32)], some (.ret 16 (3 * 2 ^ 32))) := by
  decide +kernel


/-! ## Polders, contexts, long operations, faults and frames, witnesses -/

/-- Polder `p` in a state. -/
def pol (p st : Nat) : State := up.wr F.PLD_STATE_STATE p st

/-- A part with one long operation under way. -/
def withOp (s : State) (k : OpKind) (i : Nat) (halted : Bool) (t : Task) : State :=
  { s with ops := [{ sel := ⟨k, i⟩, owner := 16, fences := [7], halted := halted, done := 0, total := 4, task := t }] }

theorem test_witness_polderCommands :
    (up.ready = true ∧ up.pst 15 = pFree) ∧
    ((pol 15 pConfiguring).pst 15 = pConfiguring ∧ (pol 15 pConfiguring).receiving 15 = false) ∧
    (let s := { (pol 15 pConfiguring).wr F.PLD_MERE_UNITS 15 2 with zeroJobs := [{ item := .mereUnit 1, written := 0, polder := 16 }] }
     s.pst 15 = pConfiguring ∧ s.receiving 15 = true) ∧
    (pol 15 pActive).pst 15 = pActive ∧ (pol 15 pActive).zeroOn 15 = none ∧
    (let s := (withOp (pol 0 pZeroing) .pld 0 true (.zeroPolder 0)).wr F.PWR_STATUS_STATE 0 pwStandby
     (s.zeroOn 0).isSome = true ∧ (s.zeroOn 0).all (·.halted) = true ∧ s.pwrActive = false) ∧
    (let s := withOp (pol 0 pActive) .pld 0 false (.zeroPolder 0)
     (s.zeroOn 0).isSome = true ∧ s.pst 0 ≠ pResetting ∧ s.pst 0 ≠ pZeroing) ∧
    (let s := withOp (pol 0 pZeroing) .pld 0 true (.zeroPolder 0)
     (s.zeroOn 0).isSome = true ∧ (s.zeroOn 0).all (·.halted) = true ∧ s.pwrActive = true) ∧
    (let s := withOp (pol 0 pZeroing) .pld 0 false (.zeroPolder 0)
     (s.zeroOn 0).isSome = true ∧ (s.zeroOn 0).all (fun o => !o.halted) = true) := by
  decide +kernel

/-- An ACTIVE polder 0 whose vault set holds vault 0, and section 0 on vault 0 alone. -/
def sect : State :=
  (((pol 0 pActive).wri F.PLD_VAULTS_VAULTS 0 0 1).wri F.TWR_SECT_VALID 0 0 1).wri F.TWR_SECT_LOG2_N 0 0 0

theorem test_witness_assign :
    (let s := pol 0 pActive
     s.ready = true ∧ s.pst 0 = pActive ∧ s.rd F.PLD_STATE_TDISP 0 = 0 ∧ 127 < objCount .fenceBlock ∧
     s.ownerOf .fenceBlock 127 = 16 ∧ (s.heldBy 0 .fenceBlock).length < objLimit .fenceBlock) ∧
    (let s := (pol 3 pConfiguring).setOwner .queue 1023 3 0
     s.pst 3 = pConfiguring ∧ s.rd F.PLD_STATE_TDISP 3 = 0 ∧ s.ownerOf .queue 1023 = 3 ∧ s.inUse 3 .queue 1023 = false) ∧
    (let s := sect
     s.ownerOf .extent 511 = 16 ∧ s.extentInSet 0 511 = true ∧ s.extentRetired 511 = false ∧ s.zeroPending (.extent 511) = false ∧
     s.isClean (.extent 511) = true ∧ (s.heldBy 0 .extent).length < objLimit .extent) ∧
    (let s := (sect.setOwner .extent 511 0 0).setDirty (.extent 511) true
     s.ownerOf .extent 511 = 0 ∧ s.inUse 0 .extent 511 = false ∧ s.isClean (.extent 511) = false) ∧
    (((pol 0 pActive).wr F.PLD_STATE_TDISP 0 1).rd F.PLD_STATE_TDISP 0 = 1 ∧
      ((pol 0 pActive).wr F.PLD_STATE_TDISP 0 2).rd F.PLD_STATE_TDISP 0 = 2) := by
  decide +kernel

theorem test_witness_polderMoves :
    ((pol 0 pDraining).pst 0 = pDraining ∧ (pol 0 pDraining).runs.all (fun r => r.owner != 0) = true) ∧
    (let s := (pol 0 pResetting).setAux 0 { polderAux0 with resetFrom := 2 }
     s.pst 0 = pResetting ∧ s.op? .pld 0 = none ∧ (s.aux 0).zeroDue = false ∧ (s.aux 0).resetFrom < 8) ∧
    (let s := withOp (pol 0 pResetting) .pld 0 false (.zeroPolder 0)
     (s.op? .pld 0).isSome = true ∧ (s.op? .pld 0).all s.opRuns = true ∧ s.zeroJobs.any (fun j => j.polder == 0) = false ∧
       s.unclean 0 = []) ∧
    (let s := withOp (pol 0 pZeroing) .pld 0 false (.zeroPolder 0)
     (s.op? .pld 0).all s.opRuns = true ∧ s.unclean 0 = []) ∧
    (let s := withOp (pol 0 pActive) .pld 0 false (.zeroPolder 0)
     (s.op? .pld 0).all s.opRuns = true ∧ s.unclean 0 = [] ∧ s.pst 0 ≠ pResetting ∧ s.pst 0 ≠ pZeroing) ∧
    (let s := { up with zeroJobs := [{ item := .mereUnit 63, written := 0x100000, polder := 16 }] }
     (s.zeroJobs.find? (fun j => j.polder == 16 && j.finished && s.zeroRuns j)).isSome = true) ∧
    (bitAt ((pol 15 pActive).rd F.JCT_ZERO_MGC_REQ 0) 15 = false ∧ (pol 15 pActive).pst 15 ≠ pFree) := by
  decide +kernel

theorem test_witness_tdisp :
    (let s := pol 0 pActive
     s.pst 0 = pActive ∧ s.tdisp 0 = 0 ∧ (s.aux 0).lockWait = none ∧ s.op? .pld 0 = none) ∧
    ((pol 0 pActive).wr F.PLD_STATE_TDISP 0 1).tdisp 0 = 1 ∧ ((pol 0 pActive).wr F.PLD_STATE_TDISP 0 3).tdisp 0 ≠ 0 ∧
    ((pol 0 pActive).wr F.PLD_STATE_TDISP 0 3).pst 0 = pActive ∧ (pol 0 pActive).pst 0 ≠ pFree ∧
    (withOp (pol 0 pActive) .pld 0 false (.zeroPolder 0)).op? .pld 0 ≠ none := by
  decide +kernel

theorem test_witness_contextsAndFenceBlocks :
    (up.ready = true ∧ up.ownerOf .context 255 = Fn.pf.idx ∧ up.op? .fnc 0 = none) ∧
    (let s := { up.wr F.CTX_IRQ_MODE 255 2 with coal := [(255, { count := 1, first := 0 })], tick := 0x100000 }
     (SMap.get { count := 0, first := 0 } s.coal 255 : Coal).count ≠ 0 ∧ s.rd F.CTX_IRQ_MODE 255 = 2 ∧
     (SMap.get { count := 0, first := 0 } s.coal 255 : Coal).first + s.rd F.CTX_IRQ_COAL_TICKS 255 ≤ s.tick) := by
  decide +kernel

/-- The end of a sweep of block 0 arms a signalled fence, keeps a HELD one, and leaves the next block alone. -/
theorem test_fenceSweep :
    (let s := State.fenceSweep 0 2
       { up with fences := [(510, .signalled none 3), (511, .held (.run 1)), (512, .signalled none 4)] } 510
     (s.fence 510, s.fence 511, s.fence 512)) = (.armed, .held (.run 1), .signalled none 4) := by
  decide +kernel

theorem test_witness_longCommands :
    (up.reaches .pf ∧ up.op? .mob 16 = none ∧ (up.wr F.MOB_HI_PAGES 16 1).rd F.MOB_HI_PAGES 16 ≠ 0 ∧
      (up.wr F.MOB_HI_PAGES 16 1).rd F.MOB_LO_VA 16 + 1 ≤ 2 ^ 36 ∧ up.slotGlobal 16 16383 = some 16383 ∧
      up.fromLocal 16 .context (up.rd F.MOB_LO_CTX 16) = some 0 ∧ up.mobOf 16383 = none ∧
      up.mobs.any (fun m => m.ctx == 0 && overlaps m.page m.pages 0 1) = false) ∧
    (let s := { up with mobs := [mob0] }
     s.slotGlobal 16 0 = some 0 ∧ s.mobOf 0 = some mob0) ∧
    (up.ownerOf .context 0 = Fn.pf.idx ∧ up.op? .inv 0 = none ∧ 0 < 2 ^ 36 - 1) ∧
    (up.op? .pln 16 = none ∧ up.mayLoad 16 = true ∧ up.op? .rv 0 = none ∧ up.op? .tbl 16 = none ∧ up.table 16 1023 = none) ∧
    (let s := up.setTable 16 1023 (some slot0)
     s.table 16 1023 = some slot0 ∧ slot0.closing = none) ∧
    (let s := ((pol 15 pActive).setTable 15 0 (some slot0)).wr F.HMK_COUNT_COUNT 15 1
     (Fn.vf 15 ≠ .pf ∧ s.pst 15 ≠ pFree ∧ s.ready = true) ∧ s.op? .hmk 15 = none ∧ s.rd F.HMK_COUNT_COUNT 15 ≠ 0 ∧
     s.table 15 0 = some slot0) ∧
    (up.op? .ep 16 = none ∧ up.rd F.EP_STATE_STATE 16 = epReady ∧ up.rd F.EP_STATE_PUB 16 ≠ 0xFFFFFFFE ∧
      up.rd F.EP_STATE_JNL_LOST 16 = 0) ∧
    (let s := up.wri F.TWR_WEAK_VALID 7 7 1
     s.op? .twr 7 = none ∧ s.rdi F.TWR_WEAK_VALID 7 7 ≠ 0) ∧
    (up.op? .asy 0 = none ∧ up.assay.runs = [] ∧ up.op? .trust 0 = none) := by
  unfold State.reaches; decide +kernel

theorem test_witness_resumeAndAbort :
    (∀ k ∈ [(OpKind.pln, 16), (.mob, 16), (.tbl, 16), (.ep, 16), (.hmk, 0), (.inv, 255), (.rv, 0), (.twr, 7)],
      ((withOp (pol 0 pActive) k.1 k.2 true .planUnload).op? k.1 k.2).isSome = true) ∧
    (withOp (pol 0 pActive) .hmk 0 true .planUnload).pwrActive = true ∧ (pol 0 pActive).ready = true ∧
    (pol 0 pActive).pst 0 ≠ pFree ∧ (pol 0 pActive).ownerOf .context 255 = Fn.pf.idx := by
  decide +kernel

theorem test_witness_longOpStep :
    (let s := withOp up .mob 16 false .planUnload
     s.ops.map (fun o => (s.ops.find? (fun x => decide (x.sel = o.sel)) == some o, s.opRuns o)) = [(true, true)]) ∧
    (let s := withOp up .mob 16 true .planUnload
     s.ops.map (fun o => (s.ops.find? (fun x => decide (x.sel = o.sel)) == some o, s.opRuns o)) = [(true, false)]) ∧
    (let s := withOp up .mob 16 false .planUnload
     s.haltOps.ops.map (fun o => (neverHalts o.sel.kind, selfResuming o.sel.kind, s.zeroWaits o, o.halted))
       = [(false, false, false, true)]) := by
  decide +kernel

/-- A pending fault of the PF's context 255, on which no run waits. -/
def flt (retry : Bool) : PFault :=
  { ctx := 255, id := 65535, page := 0, pages := 1, slot := 0, write := false, kind := 1, runs := [], retry := retry }

theorem test_witness_faults :
    (let s := { up with faults := [flt true] }
     s.ready = true ∧ s.ownerOf .context 255 = Fn.pf.idx ∧ s.fault? 255 65535 = some (flt true) ∧ (flt true).retry = true) ∧
    (up.fault? 255 0 = none) ∧
    (let s := having [pstep 0x120 0 64] (run0 [.stalled 0 0 1]) []
     (s.run? 0).isSome = true ∧
     s.runs.all (fun r => r.steps.any StepSt.stands &&
       decide (s.allowance r ≤ s.stalledSoFar r)) = true) ∧
    (let s := withOp up .inv 255 false (.inval .drain 0 1 [])
     (s.op? .inv 255).all (fun o => decide (o.task = .inval .drain 0 1 []) && s.opRuns o) = true ∧
     (s.op? .inv 255).isSome = true ∧ s.drainRuns 255 0 1 = []) := by
  decide +kernel

/-- A frame of 1,024 idle ticks. -/
def frame0 : Frame := { id := 1, length := 1024, lanes := [] }

theorem test_witness_frames :
    (let s := { up with stagedFrame := some frame0 }
     s.ready = true ∧ s.op? .rv 0 = none ∧ s.stagedFrame = some frame0 ∧ s.unfit frame0 = none ∧ s.frameArmed = none) ∧
    (let s := { up with frame := some frame0, tick := 1024, sampled := some (0, 0) }
     s.beforeBoundary 0 = true ∧ s.boundaryDone ≠ s.tick ∧ s.sampled = some (0, 0)) ∧
    (let s := { up with frame := some frame0, tick := 960 }
     s.beforeBoundary 64 = true ∧ s.sampled = none) ∧
    (let s := { up with frameArmed := some { boundary := 0, dropUnfit := false, fence := none } }
     s.frame = none ∧ s.frameArmed.isSome = true ∧ s.pendLevel = none ∧ s.pendTier = none ∧ 0 ≤ s.tick) ∧
    (up.frame = none ∧ ({ up with pendLevel := some (1, 0), pendTier := some (2, 0) } : State).pendLevel = some (1, 0)) := by
  decide +kernel

/-- The first switch after a reset, from the ticks on both sides of a multiple of 64 (R188). -/
theorem test_switchAt :
    ([0, 1, 64].map (fun t => ({ up with tick := t } : State).switchAt (fun _ => true))) = [64, 128, 128] := by
  decide +kernel

theorem test_witness_admission :
    (let s := { having [pstep 0x120 0 64] { run0 [.waiting] with phase := .queued } [] with frame := some frame0 }
     s.frame = some frame0 ∧ s.planOf Fn.pf.idx = some wPlan ∧ wPlan.lode 0 = some (lode0 1) ∧
     s.windowDue Fn.pf.idx 0 (lode0 1) = true ∧
     s.mayAdmit { run0 [.waiting] with phase := .queued } (lode0 1) = true ∧
     s.freeInst 16 0 (lode0 1) = some 0 ∧ wPlan.updateLode (lode0 1) = false ∧
     s.admitCodes { run0 [.waiting] with phase := .queued } wPlan (lode0 1) = []) ∧
    (let s := having [pstep 0x120 0 64] { run0 [.waiting] with phase := .queued } []
     Err.lowest (s.admitCodes { run0 [.waiting] with phase := .queued } wPlan { lode0 1 with levelMask := 0 }) =
       some .levelChange) ∧
    (let s := { having [pstep 0x120 0 64] { run0 [.waiting] with phase := .queued } [] with tick := 4096 }
     (s.run? 0).all (fun r => decide (s.runLode r = some (lode0 1)) && decide (r.phase = .queued) &&
       decide (r.accepted + (lode0 1).maxWait ≤ s.tick)) = true ∧ (s.run? 0).isSome = true) := by
  decide +kernel

theorem test_witness_stepEvents :
    (let s := having [pstep 0x120 0 64] (run0 [.waiting]) []
     let r := run0 [.waiting]
     s.run? 0 = some r ∧ r.phase = .admitted ∧ s.runPlan r = some wPlan ∧ s.stepOf r 0 = some (pstep 0x120 0 64) ∧
     r.steps[0]? = some .waiting ∧ s.tick = r.admittedAt + 0 ∧ r.stop = none) ∧
    ([true, false].all (fun sealed =>
      let r := { run0 [.worked 0] with owner := 0 }
      let s : State := { (having [pstep 0x120 0 64] r []).wr F.PLD_CFG_MODE 0 (b2n (!sealed)) with plans := [(0, some wPlan)] }
      let t := (((s.modRun 0 (fun q => q.setStep 0 .complete)).stepCounts r wPlan (pstep 0x120 0 64) 0 0).dropPaths r
        (pstep 0x120 0 64))
      s.isSealed r.owner == sealed && (t.run? 0).map (·.steps) == some [.complete])) = true ∧
    (let s := having [pstep 0x120 0 64, pstep 0x121 0 64] (run0 [.worked 0, .waiting]) []
     (s.run? 0).map (fun q => (q.setStep 0 .complete).steps.all (fun y => decide (y = .complete))) = some false) ∧
    (let s := having [pstep 0x120 0 64] (run0 [.worked 0]) []
     let r := run0 [.worked 0]
     s.run? 0 = some r ∧ s.runLode r = some (lode0 1) ∧ r.steps[0]? = some (.worked 0) ∧
     workOver r wPlan (lode0 1) 0 (pstep 0x120 0 64) = true ∧ r.late.any (fun y => y.1 == 0) = false ∧
     ((((s.modRun 0 (fun q => q.setStep 0 .complete)).stepCounts r wPlan (pstep 0x120 0 64) 0 0).run? 0).map (·.steps)) =
       some [.complete] ∧ s.isSealed r.owner = true) ∧
    (let s := { having [pstep 0x120 0 64] { run0 [.complete] with phase := .releasing } [] with tick := 1024 }
     (s.run? 0).all (fun r => decide (r.phase = .releasing) && decide (s.plannedEnd r ≤ s.tick)) = true ∧
     (s.run? 0).isSome = true) ∧
    (let s := { having [pstep 0x120 0 64] (run0 [.running 0]) [] with tick := 512 }
     let r := run0 [.running 0]
     s.run? 0 = some r ∧ r.admittedAt + 0 + 512 ≤ s.tick ∧ stepOver r.steps[0]? = false ∧
     (pstep 0x120 0 64).eng ≠ some .causeway ∧ r.late = []) := by
  decide +kernel


/-! ## Steps of runs, witnesses -/

/-- A LADLE of operation `op` on 64 bytes of Mere at 0x1000. -/
def ladleBytes (op : Nat) : List Byte :=
  leBytes 8 op ++ leBytes 8 0 ++ leBytes 8 0x1000 ++ leBytes 4 64 ++ leBytes 4 0 ++ leBytes 8 0x1122334455667788 ++ leBytes 24 0

def wLadle (op : Nat) : State := atStep 0x120 (ladleBytes op) []

theorem test_witness_ladle (op : Fin 4) :
    StepReady (wLadle op) 0 0 .ladle (actOf (wLadle op) 0) ∧
    (wLadle op).descOf (actOf (wLadle op) 0) = (.bytes (ladleBytes op), wLadle op) ∧
    (ladleDesc (ladleBytes op)).op = op.val ∧
    (wLadle op).ladleCodes (actOf (wLadle op) 0) (ladleDesc (ladleBytes op)) = [] ∧
    ((actOf (wLadle op) 0).run.dataOf 0).next = 0 ∧ 0 < (ladleDesc (ladleBytes op)).bytes ∧
    (wLadle op).stallKind (actOf (wLadle op) 0) 0x1000 true = none ∧
    (((wLadle op).ladleLoop (actOf (wLadle op) 0) (ladleDesc (ladleBytes op)) 2 0).run? 0).map (·.steps)
      = some [.worked 0] :=
  ⟨ready_of (by revert op; decide +kernel), by revert op; decide +kernel⟩

/-- LADLE_FILL writes its 8-byte pattern over the range (R168). -/
theorem test_ladleFill :
    readMem ((wLadle 1).ladle 0 0 1 .none).mere 0x1000 64 = (List.range 8).flatMap (fun _ => leBytes 8 0x1122334455667788) ∧
    ((wLadle 1).ladle 0 0 1 .none).runs.map (·.steps) = [[.worked 0]] := by
  decide +kernel

/-- An output step of 16 bytes whose run holds its berth. -/
def wOut : State :=
  having [pstep 0x130 0 64] { run0 [.running 0] with outHeld := true } (leBytes 8 0x1000 ++ leBytes 4 16 ++ leBytes 52 0)

theorem test_witness_output :
    StepReady wOut 0 0 .host (actOf wOut 0) ∧ (wOut.descOf (actOf wOut 0)).2 = wOut ∧
    (got (wOut.descOf (actOf wOut 0))).length = 64 ∧ (actOf wOut 0).run.noOutput = false ∧ (actOf wOut 0).run.outHeld = true ∧
    wOut.bme 16 = true ∧ wOut.get (actOf wOut 0) 0x1000 16 = (.bytes (leBytes 16 0), wOut) :=
  ⟨ready_of (by decide +kernel), by decide +kernel⟩

/-! ### The embedding path -/

/-- Context 0 of the PF, with vault 0 behind its third and fourth MiB. -/
def mob1 : Mob :=
  { mob0 with pages := 1024
              ents := [{ page := 0, pages := 256, res := .leaf 1 0 true }, { page := 512, pages := 512, res := .leaf 0 0 true }] }

/-- A part with section 0 on vault 0, these bytes at the start of vault 0, and a run of a plan. -/
def havingVault (steps : List PStep) (r : Run) (mere vault : List Byte) : State :=
  { ((having steps r mere).wri F.TWR_SECT_VALID 0 0 1).wri F.TWR_SECT_LOG2_N 0 0 0 with mobs := [mob1], vault := writeMem [] 0 vault }

/-- A bag set of one bag of two indices of table 3, pooled by SUM to FP32 at Mere 0x1000. -/
def bagBytes : List Byte :=
  leBytes 2 1 ++ leBytes 2 0 ++ leBytes 4 0 ++ leBytes 4 8 ++ leBytes 4 2 ++ leBytes 8 0x1000 ++ leBytes 4 16 ++ leBytes 4 0 ++
  leBytes 4 0 ++ leBytes 4 0 ++ leBytes 2 0 ++ leBytes 2 2 ++ leBytes 2 32 ++ leBytes 2 4 ++ leBytes 8 0 ++ leBytes 4 0 ++
  leBytes 4 0 ++ leBytes 4 3

/-- The Punch step, its gather step on vault 0, and the input: offsets 0 and 2, indices 1 and 0. -/
def bagSteps : List PStep := [pstep 0x118 0 68, { pstep 0 0 68 with start := 4, dep0 := 0 }]
def bagInput : List Byte := leBytes 4 0 ++ leBytes 4 2 ++ leBytes 8 1 ++ leBytes 8 0

/-- Table 3: four Q8 columns with factor 1.0. Row 0 is (1, 2, 3, 4), row 1 is (10, 20, −1, 5). -/
def table3 : TableSlot :=
  { slot0 with base := 0x200000, scales := [0x3F800000, 0x3F800000, 0x3F800000, 0x3F800000] }
def rows01 : List Byte := [1, 2, 3, 4] ++ leBytes 28 0 ++ [10, 20, 0xFF, 5]

def wPunch : State :=
  (havingVault bagSteps { run0 [.running 0, .waiting] with staged := bagInput } bagBytes rows01).setTable 16 3 (some table3)

def wGather : State :=
  { (havingVault bagSteps { run0 [.worked 0, .running 4] with data := [{ step := 0, bags := [[(3, 1), (3, 0)]] }] } bagBytes
      rows01).setTable 16 3 (some table3) with tick := 4 }

theorem test_witness_punch :
    StepReady wPunch 0 0 .punch (actOf wPunch 0) ∧ wPunch.descOf (actOf wPunch 0) = (.bytes bagBytes, wPunch) ∧
    bagBounds (actOf wPunch 0) (bagSet bagBytes) = { bags := [(0, 2)], total := 2, ok := true } ∧
    (let o := wPunch.punchAll (actOf wPunch 0) (bagSet bagBytes) (bagBounds (actOf wPunch 0) (bagSet bagBytes))
     o.codes = [] ∧ o.bags = [[(3, 1), (3, 0)]]) ∧
    (let o := wPunch.punchAll (actOf wPunch 0) (bagSet bagBytes) { bags := [(0, 9)], total := 9, ok := true }
     o.codes = [.bagOverCap]) :=
  ⟨ready_of (by decide +kernel), by decide +kernel⟩

/-- No event beside the work itself. -/
def noEv : GatherEv := { residue := [], finisher := false, badLines := [] }

theorem test_witness_gather :
    StepReady wGather 0 1 .vault (actOf wGather 1) ∧
    (actOf wGather 1).plan.punchOf (actOf wGather 1).lode (actOf wGather 1).step = some (pstep 0x118 0 68) ∧
    (actOf wGather 1).run.steps[(actOf wGather 1).step.dep0]? = some (.worked 0) ∧
    wGather.descOf (actOf wGather 1) = (.bytes bagBytes, wGather) ∧
    (wGather.gatherAll (actOf wGather 1) noEv [[(3, 1), (3, 0)]]).fail = none ∧
    (wGather.gatherAll (actOf wGather 1) noEv [[(3, 1), (3, 0)]]).gone = false ∧ ((actOf wGather 1).run.dataOf 1).limit ≠ 1 ∧
    (∀ b, (residueHits (actOf wGather 1) [] b noEv).residue = [] ∧ (residueHits (actOf wGather 1) [] b noEv).finisher = false) ∧
    (∀ y ∈ (actOf wGather 1).siblings, (actOf wGather 1).doneStep y.2 = true) :=
  ⟨ready_of (by decide +kernel), by decide +kernel⟩

/-- The same step after it stalled while it finished its bag (`limit` 1): it goes on from bag 0. -/
def wGather3 : State :=
  { wGather with runs := [{ run0 [.worked 0, .running 4] with
      data := [{ step := 0, bags := [[(3, 1), (3, 0)]] }, { step := 1, limit := 1, parts := [(0, 0, [1, 2, 3, 4])] }] }] }

theorem test_witness_gatherGoesOn :
    StepReady wGather3 0 1 .vault (actOf wGather3 1) ∧ ((actOf wGather3 1).run.dataOf 1).limit = 1 ∧
    wGather3.descOf (actOf wGather3 1) = (.bytes bagBytes, wGather3) ∧
    (match execGatherPool 0 1 noEv wGather3 with | .next t => readMem t.mere 0x1000 4 | _ => []) = leBytes 4 0x3F800000 :=
  ⟨ready_of (by decide +kernel), by decide +kernel⟩

/-- A second gather step of the same bag set still runs: its sum is kept for the last one. -/
def wGather2 : State :=
  { (havingVault (bagSteps ++ [{ pstep 1 0 68 with start := 4, dep0 := 0 }])
      { run0 [.worked 0, .running 4, .running 4] with data := [{ step := 0, bags := [[(3, 1), (3, 0)]] }] } bagBytes
        rows01).setTable 16 3 (some table3) with tick := 4 }

theorem test_witness_gatherWaits :
    StepReady wGather2 0 1 .vault (actOf wGather2 1) ∧
    (wGather2.gatherAll (actOf wGather2 1) noEv [[(3, 1), (3, 0)]]).fail = none ∧
    (∃ y ∈ (actOf wGather2 1).siblings, (actOf wGather2 1).doneStep y.2 = false) :=
  ⟨ready_of (by decide +kernel), by decide +kernel⟩

/-- The pooled bag is (11, 22, 2, 9), as FP32 (R241 to R243). -/
theorem test_gather_sum :
    (match execGatherPool 0 1 noEv wGather with | .next t => readMem t.mere 0x1000 16 | _ => []) =
      leBytes 4 0x41300000 ++ leBytes 4 0x41B00000 ++ leBytes 4 0x40000000 ++ leBytes 4 0x41100000 := by
  decide +kernel

/-! ### The Anvil -/

/-- A job of 1 × 1 × 1: INTEGER on Q8, EXPAND on BF16, PRODUCT-TABLE on Q4. W lies at 0x1000, X at 0x2000, the scale at
0x3000, Y at 0x4000. -/
def anvilBytes (path wf xf mode consumer : Nat) : List Byte :=
  [BitVec.ofNat 8 path, BitVec.ofNat 8 wf, BitVec.ofNat 8 xf, BitVec.ofNat 8 mode] ++ leBytes 4 1 ++ leBytes 4 1 ++ leBytes 4 1 ++
  leBytes 8 0x2000 ++ leBytes 4 16 ++ leBytes 4 (if path = 0 then 0x3F800000 else 0) ++ leBytes 8 0x1000 ++ leBytes 8 0x3000 ++
  leBytes 8 (if bitAt mode 1 then 0 else 0x4000) ++ leBytes 4 (if bitAt mode 1 then 0 else 16) ++ leBytes 2 0 ++
  leBytes 1 consumer ++ leBytes 1 0

/-- An Anvil step on that job with one weight and one activation element. -/
def wAnvil (d w x : List Byte) : State :=
  let s := atStep 0x100 d []
  { s with mere := writeMem (writeMem (writeMem s.mere 0x1000 w) 0x2000 x) 0x3000 (leBytes 4 0x3F800000) }

def anvilJobs : List (List Byte × List Byte × List Byte) :=
  [(anvilBytes 0 0 0 0 0x3F, [0xFD], [7]), (anvilBytes 1 4 4 8 0x3F, leBytes 2 0x3FC0, leBytes 2 0x4000),
   (anvilBytes 2 1 4 0 0x3F, [0x03], leBytes 2 0x4000), (anvilBytes 0 0 0 2 0, [0xFD], [7])]

theorem test_witness_anvil :
    ∀ j ∈ anvilJobs, (readyB (wAnvil j.1 j.2.1 j.2.2) 0 .anvil = true ∧
      (wAnvil j.1 j.2.1 j.2.2).descOf (actOf (wAnvil j.1 j.2.1 j.2.2) 0) = (.bytes j.1, wAnvil j.1 j.2.1 j.2.2) ∧
      SMap.get none (wAnvil j.1 j.2.1 j.2.2).avJobs 0 = none ∧
      (match (wAnvil j.1 j.2.1 j.2.2).anvilIn (actOf (wAnvil j.1 j.2.1 j.2.2) 0) (anvilDesc j.1) with
        | (.ok x, t) => decide ((anvilDesc j.1).mismatch x none = none) &&
            (t.tilesOut (actOf (wAnvil j.1 j.2.1 j.2.2) 0) (anvilDesc j.1) x (anvilDesc j.1).order).1.isNone
        | _ => false) = true) := by
  decide +kernel

/-- A fault of the array that forms 20 in tile 0: the residue unit forms −21 mod 255 = 234, and the sums differ (R314). -/
theorem test_witness_anvilMismatch :
    (match (wAnvil (anvilBytes 0 0 0 0 0x3F) [0xFD] [7]).anvilIn (actOf (wAnvil (anvilBytes 0 0 0 0 0x3F) [0xFD] [7]) 0)
        (anvilDesc (anvilBytes 0 0 0 0 0x3F)) with
      | (.ok x, _) => (anvilDesc (anvilBytes 0 0 0 0 0x3F)).mismatch x (some (0, 20))
      | _ => none) = some (0, 234, 20) := by
  decide +kernel

/-- The four jobs name the paths 0, 1, 2 and 0, the last one with its tiles to the queue. -/
theorem test_witness_anvilPaths :
    anvilJobs.map (fun j => ((anvilDesc j.1).path, (anvilDesc j.1).queue)) = [(0, false), (1, false), (2, false), (0, true)] := by
  decide +kernel

/-- The products, each with scale 1: −3 × 7 = −21; 1.5 × 2.0 = 3.0; 3 × 2.0 = 6.0 (R294 to R297). -/
theorem test_anvil_products :
    (anvilJobs.take 3).map (fun j => ofLe (readMem ((wAnvil j.1 j.2.1 j.2.2).anvil 0 0 (anvilDesc j.1).path .none none).mere 0x4000 4))
      = [0xC1A80000, 0x40400000, 0x40C00000] := by
  decide +kernel

/-- An Anvil with one finished tile to push, into a queue with room and into a full one. -/
def wPush (n : Nat) : State :=
  { wAnvil (anvilBytes 0 0 0 2 0) [0xFD] [7] with
    avJobs := [(0, some { run := 0, step := 0, tiles := [[5]] })], tiles := [(0, List.replicate n { run := 0, elems := [] })] }

theorem test_witness_tilePush :
    (SMap.get none (wPush 15).avJobs 0).isSome = true ∧ ((wPush 15).workNow? 0 0).isSome = true ∧
    (SMap.get [] (wPush 15).tiles 0).length < 16 ∧ 16 ≤ (SMap.get [] (wPush 16).tiles 0).length ∧
    (let s : State := { wPush 0 with avJobs := [(0, some { run := 0, step := 0, tiles := [], bad := some (1, 2, 3) })] }
     (SMap.get none s.avJobs 0).map (fun j => (j.tiles, j.bad)) = some ([], some (1, 2, 3)) ∧ (s.workNow? 0 0).isSome = true) := by
  decide +kernel


/-! ### Tarn, Riddle, Solder and remote steps -/

/-- A slab operation on slab 0 of the PF: one layer, KV_DIM 32. -/
def tarnBytes (op win newEv : Nat) : List Byte :=
  leBytes 1 op ++ leBytes 1 1 ++ leBytes 2 32 ++ leBytes 4 win ++ leBytes 2 16 ++ leBytes 2 0 ++ leBytes 1 newEv ++ leBytes 3 0 ++
  leBytes 8 0x2000 ++ leBytes 8 0x1000 ++ leBytes 32 0

/-- One slab of one layer, KV_DIM 32 and 32 events at the third MiB of the context. -/
def slabRegs0 : SlabRegs := { va := 512, stride := 2, count := 1, layers := 1, kv := 32, cap := 32 }

/-- In the second tick of the step: the slab holds two events and sequence 5; vault 0 serves it. -/
def wTarn (d : List Byte) : State :=
  { havingVault [pstep 0x11C 0 64, pstep 0 0 64]
      { run0 [.running 0, .waiting] with data := [{ step := 0, slab := some slabRegs0 }] } d
      (leBytes 4 2 ++ leBytes 4 2 ++ leBytes 8 5) with tick := 1 }

def tarnOps : List (List Byte) := [tarnBytes 0 32 0, tarnBytes 1 0 1, tarnBytes 3 0 0, tarnBytes 4 0 0, tarnBytes 5 0 0]

/-- The byte ranges of each operation, as its command names them. -/
def tarnRanges (d : TarnDesc) : Slab → Option SlabHdr → List (Nat × Nat) :=
  match d.op with
  | 0 => fun b h => (List.range b.layers).flatMap (fun l => (h.elim [] (windowSlots d b)).map (fun i => (b.slot l i, 4 * b.kv)))
  | 1 => fun b h => (List.range b.layers).flatMap (fun l => (h.elim [] (newSlots d b)).map (fun i => (b.slot l i, 4 * b.kv)))
  | 4 => fun b _ => [(b.base, b.size)]
  | _ => fun _ _ => []

theorem test_witness_tarn :
    ∀ d ∈ tarnOps, readyB (wTarn d) 0 .tarn = true ∧
      (wTarn d).descOf (actOf (wTarn d) 0) = (.bytes d, wTarn d) ∧ (actOf (wTarn d) 0).start < (wTarn d).tick ∧
      (match ((wTarn d).slabOpen (actOf (wTarn d) 0) (tarnDesc d) [] (tarnRanges (tarnDesc d))).1 with
        | .ok (b, h, _) => some (b.base, h.count, h.seq)
        | .error _ => none) = some (0x200000, 2, 5) := by
  decide +kernel

/-- A slab whose header names more events than its capacity: every failure is found by the checks (R343, R347). -/
theorem test_witness_tarnCodes :
    ∀ d ∈ tarnOps, let s : State := { wTarn d with vault := writeMem [] 0 (leBytes 4 33) }
      readyB s 0 .tarn = true ∧
      (match (s.slabOpen (actOf s 0) (tarnDesc d) [] (tarnRanges (tarnDesc d))).1 with
        | .ok _ => []
        | .error es => es) = [.indexRange] := by
  decide +kernel

/-- The slab operations end their step's work. -/
theorem test_tarnOps_work :
    [execWindowRead 0 0 .none [] (wTarn (tarnBytes 0 32 0)), execAppendHistory 0 0 .corrected [] (wTarn (tarnBytes 1 0 1)),
      execEvict 0 0 .none [] (wTarn (tarnBytes 3 0 0)), execTarnPin 0 0 .none [] (wTarn (tarnBytes 4 0 0)),
      execTarnUnpin 0 0 .none [] (wTarn (tarnBytes 5 0 0))].map
        (fun x => match x with | .next t => t.runs.map (·.steps) | _ => []) =
      List.replicate 5 [[.worked 0, .waiting]] := by
  decide +kernel

/-- APPEND_HISTORY advances COUNT, HEAD and the sequence number (R349). -/
theorem test_appendHistory_header :
    (match execAppendHistory 0 0 .none [] (wTarn (tarnBytes 1 0 1)) with | .next t => readMem t.vault 0 16 | _ => []) =
      leBytes 4 3 ++ leBytes 4 3 ++ leBytes 8 6 := by
  decide +kernel

/-- An APPEND_BEAM of one beam of one entry. -/
def beamBytes : List Byte :=
  leBytes 1 2 ++ leBytes 1 1 ++ leBytes 2 32 ++ leBytes 4 0 ++ leBytes 2 0 ++ leBytes 1 1 ++ leBytes 1 0 ++ leBytes 1 0 ++ leBytes 1 1 ++
  leBytes 2 0 ++ leBytes 8 0x2000 ++ leBytes 8 0x4000 ++ leBytes 8 0x6000 ++ leBytes 8 0x8000 ++ leBytes 16 0

theorem test_witness_appendBeam :
    readyB (atStep 0x11C beamBytes []) 0 .tarn = true ∧ (tarnDesc beamBytes).op = 2 ∧
    (let s := atStep 0x11C beamBytes []
     let d := tarnDesc beamBytes
     s.descOf (actOf s 0) = (.bytes beamBytes, s) ∧ s.get (actOf s 0) d.sel (8 * d.beams) = (.bytes (leBytes 8 0), s) ∧
     okB (s.getList (actOf s 0) ((d.copies 0 0 0).map (fun c => (c.1, c.2.1))) []) = true) ∧
    (match (atStep 0x11C beamBytes []).appendBeam 0 0 .none with | t => t.runs.map (·.steps)) = [[.worked 0]] := by
  decide +kernel

/-- A Riddle of four FP32 scores at 0x1000, K = 2, to 0x2000. -/
def ridBytes (beam : Nat) : List Byte :=
  leBytes 1 beam ++ leBytes 3 0 ++ leBytes 4 4 ++ leBytes 2 2 ++ leBytes 1 beam ++ leBytes 5 0 ++ leBytes 8 0x1000 ++
  leBytes 4 (64 * beam) ++ leBytes 4 0 ++ leBytes 8 0x2000 ++ leBytes 24 0

/-- The scores 1.0, NaN, 3.0, 2.0. -/
def wRid (beam : Nat) : State :=
  let s := atStep 0x11A (ridBytes beam) []
  { s with mere := writeMem s.mere 0x1000 (leBytes 4 0x3F800000 ++ leBytes 4 0x7FC00000 ++ leBytes 4 0x40400000 ++ leBytes 4 0x40000000) }

theorem test_witness_riddle (b : Fin 2) :
    StepReady (wRid b) 0 0 .riddle (actOf (wRid b) 0) ∧
    (wRid b).descOf (actOf (wRid b) 0) = (.bytes (ridBytes b), wRid b) ∧ (ridDesc (ridBytes b)).beam = (b.val == 1) ∧
    okB ((wRid b).getList (actOf (wRid b) 0) [(0x1000, 16)] []) = true ∧
    okB ((wRid b).getList (actOf (wRid b) 0) [(0x0, 0), (0x1000, 16)] []) = true ∧
    ((wRid b).put (actOf (wRid b) 0) 0x2000 (leBytes 16 0)).1 = none :=
  ⟨ready_of (by revert b; decide +kernel), by revert b; decide +kernel⟩

/-- Rank order: 3.0 (candidate 2), then 2.0 (candidate 3); NaN ranks last and is counted (R355, R357). -/
theorem test_riddle_topk :
    readMem ((wRid 0).riddle 0 0 false .none).mere 0x2000 16 = leBytes 4 0x40400000 ++ leBytes 4 2 ++ leBytes 4 0x40000000 ++ leBytes 4 3 ∧
    ((wRid 0).riddle 0 0 false .none).rd F.RD_STATUS_NAN_SCORES 0 = 1 := by
  decide +kernel

/-- A live table of 20 Q8 columns with an accumulator: a copy has 32 bytes. -/
def liveTable : TableSlot :=
  { slot0 with base := 0x200000, dim := 20, live := true, acc := true, scales := List.replicate 20 0x3F800000 }

/-- A batch of one entry for row 0 of table 3: header with LR = 1.0 and EPS = 1.0, then the entry with 20 values 1.0. -/
def batchBytes (op : Nat) : List Byte :=
  leBytes 4 1 ++ leBytes 4 96 ++ leBytes 4 0x3F800000 ++ leBytes 4 0x3F800000 ++ leBytes 16 0 ++
  leBytes 8 0 ++ leBytes 8 (3 + op * 1024) ++ (List.range 20).flatMap (fun _ => leBytes 4 0x3F800000)

def updBytes : List Byte := leBytes 4 0 ++ leBytes 4 1 ++ leBytes 2 20 ++ leBytes 2 32 ++ leBytes 2 1 ++ leBytes 2 1 ++ leBytes 48 0

/-- The Solder step of tower 0 with its vault, before and after its batch is distributed. -/
def wSolder (op : Nat) (data : List StepData) : State :=
  let s := (havingVault [pstep 0x110 0 64, pstep 0 0 64] { run0 [.running 0, .waiting] with staged := batchBytes op, data := data }
    updBytes []).setTable 16 3 (some liveTable)
  { s.wr F.EP_JNL_SIZE_CAP 16 8 with jnlMap := [(16, some 0x80000)] }

theorem test_witness_solder (op : Fin 4) :
    StepReady (wSolder op []) 0 0 .solder (actOf (wSolder op []) 0) ∧
    StepReady (wSolder op [{ step := 0, limit := 1 }]) 0 0 .solder (actOf (wSolder op [{ step := 0, limit := 1 }]) 0) ∧
    (wSolder op []).descOf (actOf (wSolder op []) 0) = (.bytes updBytes, wSolder op []) ∧
    ((actOf (wSolder op []) 0).batch (updDesc updBytes)).isSome = true ∧
    (actOf (wSolder op []) 0).run.data.any (fun x => x.step == 0) = false ∧
    (((wSolder op []).distribute (actOf (wSolder op []) 0) (updDesc updBytes) ((batchBytes op).drop 32) 1 0 []).1.map (·.op),
      ((wSolder op []).distribute (actOf (wSolder op []) 0) (updDesc updBytes) ((batchBytes op).drop 32) 1 0 []).2) = ([op.val], none) ∧
    (((wSolder op []).head? (actOf (wSolder op []) 0) ((batchBytes op).drop 32) 0 0).map
      (fun x => ((wSolder op []).applyEntry (actOf (wSolder op []) 0) ((batchBytes op).take 32) ((batchBytes op).drop 32) x.1 x.2.1).1))
      = some none :=
  ⟨ready_of (by revert op; decide +kernel), ready_of (by revert op; decide +kernel), by revert op; decide +kernel⟩

/-- On a row of zeros, 1.0 is assigned, added, or taken off with LR = 1.0; ADAGRAD-ROW takes off 1 / (√1 + 1) = 0.5, which
rounds to code 0, and leaves the accumulator 1.0. The tag names the pending epoch 2 and VALID (R265, R269, R270). -/
theorem test_solder_rows :
    (List.range 4).map (fun op =>
      let t := (wSolder op [{ step := 0, limit := 1 }]).updateEntry 0 0 op
      (readMem t.vault 0 9, readMem t.vault 28 4)) =
    [(leBytes 4 2 ++ leBytes 4 1 ++ [1], leBytes 4 0), (leBytes 4 2 ++ leBytes 4 1 ++ [1], leBytes 4 0),
     (leBytes 4 2 ++ leBytes 4 1 ++ [0xFF], leBytes 4 0), (leBytes 4 2 ++ leBytes 4 1 ++ [0], leBytes 4 0x3F800000)] := by
  decide +kernel

/-- A remote step whose plan names a grant; at its deadline no request is open. -/
def wRemote : State :=
  let s := atStep 0x140 (leBytes 64 0) []
  { s with plans := [(16, some { plan0 [pstep 0x140 0 64] with grants := [{ peer := 1, grant := 0, reqPerFrame := 1 }] })]
           tick := 511 }

theorem test_witness_remote :
    StepReady wRemote 0 0 .causeway (actOf wRemote 0) ∧ (got (wRemote.descOf (actOf wRemote 0))).length = 64 ∧
    (actOf wRemote 0).grantRef = some { peer := 1, grant := 0, reqPerFrame := 1 } ∧
    (let s := { wRemote with tick := 512 }
     (s.act? 0 0).isSome = true ∧ (actOf s 0).step.eng = some .causeway ∧ (actOf s 0).deadline ≤ s.tick) ∧
    wRemote.requests = [] ∧ (remDesc (leBytes 64 0)).push = false ∧ (remDesc (leBytes 64 1)).push = true :=
  ⟨ready_of (by decide +kernel), by decide +kernel⟩

theorem test_witness_uncorrectable :
    ∀ x ∈ [(0x118, Eng.punch), (0x120, .ladle), (0x100, .anvil), (0x11C, .tarn), (0x11A, .riddle)],
      readyB (atStep x.1 (leBytes 64 0) []) 0 x.2 = true := by
  decide +kernel


/-! ### The Planisher -/

/-- A Planisher with one instruction to go: tile 1 holds 1.0 and 2.0, MK0 governs every element, SC0 is 1.0. -/
def pl0 (w : Nat) : Pl :=
  { run := 0, step := 0, desc := leBytes 0x40 0 ++ leBytes 8 0x1000 ++ leBytes 4 4096 ++ leBytes 4 128, off := 0, prog := [w]
    pc := 0, cyc := 0, loops := [], lc := [0, 0, 0, 0], tiles := [(512, 0x3F800000), (513, 0x40000000)]
    masks := (2 ^ 512 - 1) :: List.replicate 7 0, flags := List.replicate 64 0, sc := List.replicate 16 0x3F800000 }

def wPl (w : Nat) : State := { atStep 0x108 (leBytes 64 0) [] with pls := [(0, some (pl0 w))], tick := 500 }

theorem plReady_of (w : Nat) (h : ((wPl w).workNow? 0 0).isSome = true)
    (h2 : (wPl w).plDue (actOf (wPl w) 0) (pl0 w) = true) : PlReady (wPl w) 0 (pl0 w) w (actOf (wPl w) 0) := by
  refine ⟨rfl, ?_, rfl, h2⟩
  show (wPl w).workNow? 0 0 = _
  unfold State.workNow? at h ⊢
  cases hs : (wPl w).act? 0 0 with
  | none => simp [hs] at h
  | some a =>
    have ha : actOf (wPl w) 0 = a := by simp [actOf, hs]
    rw [ha]
    by_cases hw : (wPl w).actWorks a = true
    · simp [hw]
    · simp [hs, hw] at h

theorem test_witness_planisher (op : Fin 0x60) : PlReady (wPl op) 0 (pl0 op) op (actOf (wPl op) 0) :=
  plReady_of op (by revert op; decide +kernel) (by revert op; decide +kernel)

/-- The opcodes of the statements are each other's only opcode; ARG 6 and BMODE 3 are within their fields. -/
theorem test_witness_plFields :
    plArg (0x30 + 6 * 2 ^ 40) % 8 = 6 ∧ plArg (0x30 + 5 * 2 ^ 40) % 8 < 6 ∧ plBmode (0x38 + 3 * 2 ^ 30) = 3 ∧
    plOp (0x38 + 3 * 2 ^ 30) = 0x38 ∧ plBmode 0x39 ≠ 3 ∧ bitAt (plArg (2 + 2 ^ 40)) 0 = true := by
  decide +kernel

theorem test_witness_plMemory :
    (∀ op ∈ [0x10, 0x11, 0x12, 0x13, 0x14, 0x15],
      okB ((wPl op).getList (actOf (wPl op) 0) ((List.range 16).map (fun r => ((pl0 op).rowVa op r, plRowBytes op))) []) = true) ∧
    (∀ op ∈ [0x18, 0x19, 0x1A, 0x1B, 0x1C, 0x1D],
      ((wPl op).putRows (actOf (wPl op) 0) ((List.range 16).flatMap (fun r =>
        byteRuns ((pl0 op).rowVa op r) (storeRow op (pl0 op) op 0 r [])))).1 = none) ∧
    ((wPl 3).put (actOf (wPl 3) 0) ((pl0 3).rowVa 3 0) ((pl0 3).flags.map (BitVec.ofNat 8))).1 = none := by
  decide +kernel

/-- A merging Q4 store under MK1, which governs element 0 only, parts a byte. -/
def partStore : Nat := 0x1B + 1 * 2 ^ 26
def plPart : Pl := { pl0 partStore with masks := [2 ^ 512 - 1, 1, 0, 0, 0, 0, 0, 0] }

theorem test_witness_partStore :
    (plOp partStore == 0x1B && !plZ partStore &&
      (List.range 256).any (fun j => plPart.governs partStore (2 * j) != plPart.governs partStore (2 * j + 1))) = true ∧
    okB ((wPl partStore).getList (actOf (wPl partStore) 0) ((List.range 16).map (fun r => (plPart.rowVa partStore r, 16))) []) = true
      := by
  decide +kernel

theorem test_witness_plPrologueAndPop :
    (let s := atStep 0x108 (leBytes 0x108 1) []
     readyB s 0 .planisher = true ∧ SMap.get none s.pls 0 = none ∧ (got (s.descOf (actOf s 0))).length = 0x108) ∧
    (takeTile 0 (SMap.get [] { wPl 0x1F with tiles := [(0, [{ run := 0, elems := [7] }])] }.tiles 0)).isSome = true ∧
    takeTile 0 (SMap.get [] (wPl 0x1F).tiles 0) = none := by
  decide +kernel

/-- The operands of FADD TL2 ← TL1 + SC0: elements 0 and 1 become 2.0 and 3.0, and the rest 1.0. -/
theorem test_planisher_operands :
    (let w := 0x20 + 2 * 2 ^ 8 + 1 * 2 ^ 14 + 3 * 2 ^ 30
     let p := pl0 w
     (p.dst w, [0, 1, 2].map (fun e => fadd (p.el (p.sa w) e) (p.b w e)))) = (2, [0x40000000, 0x40400000, 0x3F800000]) := by
  decide +kernel

theorem test_mkrange :
    (match execMkrange 0 (wPl (0x3B + 1 * 2 ^ 8 + 0x1F0000 * 2 ^ 40)) with
      | .next t => (match SMap.get none t.pls 0 with | some p => p.mask 1 | none => 0) | _ => 0) = 2 ^ 32 - 1 := by
  decide +kernel

/-- A loop of one instruction and count 3 runs it three times, with the counter 0, 1, 2 (R322). -/
theorem test_loop :
    (match execLoop 0 { wPl 0 with pls := [(0, some { pl0 0 with prog := [1 + 1 * 2 ^ 16 + 3 * 2 ^ 32, 0] })] } with
      | .next t => (match SMap.get none t.pls 0 with
        | some p => [p.pc, p.next.cnt 0, p.next.next.cnt 0, p.next.next.next.pc] | none => [])
      | _ => []) = [1, 1, 2, 2] := by
  decide +kernel

/-! ### Numbers -/

/-- Sums, products and quotients that round to nearest even: 1 + 2^-24 is a tie that goes to 1; 3 × 2; 1/3. -/
theorem test_float_arith :
    [fadd 0x3F800000 0x33800000, fsub 0x3F800000 0x3F800000, fmul 0x40400000 0x40000000, ffma 0x40000000 0x40400000 0xC0C00000,
      fdiv 0x3F800000 0x40400000, fadd 0x7F800000 0xFF800000, fmul 0x7F7FFFFF 0x40000000] =
      [0x3F800000, 0, 0x40C00000, 0, 0x3EAAAAAB, nan32, 0x7F800000] := by
  decide +kernel

/-- Exact points of the functions: 1/2, 1/√4, 2^3, log2 8, tanh 0, the sigmoid of 0. -/
theorem test_float_functions :
    [frcp 0x40000000, frsq 0x40800000, fexp2 0x40400000, flog2 0x41000000, ftanh 0, fsigm 0, fabs 0xBF800000, fneg 0x3F800000] =
      [0x3F000000, 0x3F000000, 0x41000000, 0x40400000, 0, 0x3F000000, 0x3F800000, 0xBF800000] := by
  decide +kernel

/-- BF16 rounds the tie 1 + 2^-8 to even; E4M3 saturates 1,000 at 448; Q8 rounds 2.5 to 2 and saturates 200 at 127. -/
theorem test_conversions :
    ((toBf16 (fp32 0x3F808000)).bits, (toBf16 (fp32 0x3F818000)).bits, (toE4m3 (fp32 0x447A0000)).bits,
      (quantF 0x40200000 0x3F800000 127).bits, (quantF 0x43480000 0x3F800000 127).bits) = (0x3F80, 0x3F82, 0x7E, 2, 127) := by
  decide +kernel

/-- The check values of CRC-32C for "123456789" and of SHA-384 for "abc" (its first eight bytes). -/
theorem test_crc32c : crc32c [0x31, 0x32, 0x33, 0x34, 0x35, 0x36, 0x37, 0x38, 0x39] = 0xE3069283 := by decide +kernel

/-- AES-256-GCM under a key, an IV and a block of zeros: test case 14 of the GCM specification. -/
theorem test_gcm :
    gcmSeal (leBytes 32 0) (leBytes 12 0) [] (leBytes 16 0) =
      ([0xCE, 0xA7, 0x40, 0x3D, 0x4D, 0x60, 0x6B, 0x6E, 0x07, 0x4E, 0xC5, 0xD3, 0xBA, 0xF3, 0x9D, 0x18],
       [0xD0, 0xD1, 0xC8, 0xA7, 0x99, 0x99, 0x6B, 0xF0, 0x26, 0x5B, 0x98, 0xB5, 0xD4, 0x8A, 0xB9, 0x19]) := by
  decide +kernel

/-- The base point of P-384 lies on the curve, and the order of the group takes it to the point at infinity. -/
theorem test_p384 : onCurve ptBase.X ptBase.Y = true ∧ (ptMix orderN 0 ptBase ptBase).Z = 0 := by decide +kernel

theorem test_sha384 : (sha384 [0x61, 0x62, 0x63]).take 8 = [0xCB, 0x00, 0x75, 0x3F, 0x45, 0xA3, 0x5E, 0x8B] := by decide +kernel


theorem test_witness_plWrites :
    (let p : Pl := { pl0 0 with masks := List.replicate 8 0 }
     (511 : Nat) < 512 ∧ (7 : Nat) < p.masks.length ∧ p.masks.length = 8) := by
  decide +kernel


/-! ## Links, power, resets, start-up and management, witnesses -/

/-- A READY part on its board, with the MGC running its firmware. -/
def live : State :=
  { up with board := { up.board with aon := true, coreEn := true, pwrGood := true, strapped := true, perst := true, planes := true }
            mgc := { up.mgc with up := true, recovery := false } }

/-- The same part with port `n` in a link state. -/
def link (n st : Nat) : State := live.wr F.CW_STATE_STATE n st

/-- The same part in a phase of its start, its planes started by a WARM or a COLD reset. -/
def starting (ph : Nat) (cold : Bool) : State :=
  { live.setPhase ph with board := { live.board with cold := cold, train := [0, 2, 2, 2, 2, 2, 2, 1] } }

/-- The same part with board flags changed. -/
def onBoard (f : Board → Board) : State := { live with board := f live.board }

/-- The same part in a state of a firmware update. -/
def updating (f : Update → Update) : State := { live with mgc := { live.mgc with upd := f update0 } }

theorem test_witness_timed :
    (let s := { up with tick := 65536 }
     s.tick ≠ 0 ∧ s.tick % 65536 = 0 ∧ s.halved ≠ s.tick) ∧
    (let s := ({ up with advNs := some 0, ns := 10000000000 } : State).wr F.TWR_TEMP_ADVISORY 7 1
     s.advNs.isSome = true ∧ s.advFree = true ∧ s.advisory ≠ s.advSet) ∧
    up.ready = true ∧ State.reset.ready = false ∧
    live.mgcRuns = true ∧ ({ up with dumpTodo := [0] } : State).dumpTodo = [0] := by
  decide +kernel

/-- A temperature sample that leaves the tier as it is, and one that raises it. -/
theorem test_witness_tempSample :
    ([84000, 93000].map (fun x => decide
      ((up.stackSample 0 (List.replicate 32 (some x))).rawTier = up.rawTier))) = [true, false] := by
  decide +kernel

theorem test_witness_towers :
    (let s := { up with frame := some { frame0 with lanes := List.replicate 0x150 [(.background, 1024)] } }
     s.ready = true ∧ isEngineLane 0x12F = true ∧ s.pwr ≠ pwStandby ∧ s.kindNow 0x12F = .background ∧
     State.overrun { s with bgTicks := SMap.put 0 s.bgTicks 0x12F (SMap.get 0 s.bgTicks 0x12F + 1) } 0x12F = none) ∧
    (up.frame = none ∧ isEngineLane 0 = true ∧ up.pwr ≠ pwStandby ∧ up.retired 0 = false ∧
     State.overrun { up with bgTicks := SMap.put 0 up.bgTicks 0 (SMap.get 0 up.bgTicks 0 + 1) } 0 = none) ∧
    (up.opBusy .twr 7 = false ∧ up.retired (32 * 7 + 31) = false) ∧
    (let s := { up with assay := { up.assay with force := some 0 } }
     s.opBusy .asy 0 = false ∧ s.assay.force.isSome = true ∧ engineLane 0x0A 255 = some 255 ∧ s.benched 255 = false ∧
     engineLane 0x12 15 = some 0x12F ∧ s.engReset = none) ∧
    (let s := { up.wr F.ASY_CFG_INTERVAL 0 1 with ns := 1000000000 }
     s.rd F.ASY_CFG_INTERVAL 0 * 1000000000 = 1000000000 ∧ s.assay.sweepNs + 1000000000 ≤ s.ns ∧ s.assay.force = none) := by
  decide +kernel

/-- A session that ends well with device 5, whose chain ends in an anchor of the trust record. -/
def session0 : Session :=
  { anchor := leBytes 48 1, signed := true, leaf := 5, error := false, txKey := leBytes 32 2, txSalt := leBytes 4 3
    rxKey := leBytes 32 0, rxSalt := leBytes 4 0 }

theorem test_witness_links :
    (let s := (live.wr F.JCT_PORT_EN_HOST_EN 0 0x800).wr F.JCT_PORT_EN_MGC_EN 0 0x800
     s.cwSt 11 = cwDown ∧ s.portEff 11 = true ∧ s.portUsable 11 = true) ∧
    ([cwSeek, cwTrain, cwAuth, cwKeyed, cwUp].map (fun st => (link 11 st).cwSt 11)) = [1, 2, 3, 4, 5] ∧
    (let s := { link 11 cwSeek with ns := 1000000000 }
     s.cwSt 11 = cwSeek ∧ (s.port 11).since + 1000000000 ≤ s.ns) ∧
    (BitVec.toNat (0 : BitVec 16) = (link 11 cwTrain).rd F.CW_ID_DOMAIN 0 ∧
      BitVec.toNat (1 : BitVec 16) ≠ (link 11 cwTrain).rd F.CW_ID_DOMAIN 0) ∧
    ((5 : Nat) < 2 ^ 8 ∧ ceilDiv 131070 2 < 2 ^ 16 ∧ 5 ≤ (live.wr F.CW_ID_DEV_ID 0 9).devId) ∧
    (let s := { link 11 cwTrain with ns := 500000000 }
     (s.port 11).since + 500000000 ≤ s.ns) ∧
    (let s := { link 11 cwKeyed with ns := 200000000 }
     (s.port 11).since + 200000000 ≤ s.ns) := by
  decide +kernel

/-- One session that none of the conditions of R369 meets, and one of a device that is not the one of the HELLO. -/
theorem test_witness_sessions :
    (let s := (((link 11 cwAuth).wr F.CW_STATE_PEER 11 5).wr F.CW_ID_DEV_ID 0 9).modPort 11
       (fun p => { p with anchors := [leBytes 48 1] })
     s.cwSt 11 = cwAuth ∧ s.authentic 11 session0 = true ∧ s.authentic 11 { session0 with leaf := 6 } = false) := by
  decide +kernel

/-- A data header for device 1 from device 2 with 228 bytes and SEQ 0; control headers of the four kinds. -/
def hData : Nat := 8 + 1 * 2 ^ 4 + 2 * 2 ^ 12 + 228 * 2 ^ 32

/-- A flit of zeros with this header and a good CRC, and a port with a receive key. -/
def clearFlit (h : Nat) : List Byte := flitOf h (leBytes 228 0) (leBytes 16 0)
def keyedPort (st : Nat) : State := (link 0 st).modPort 0 (fun p => { p with rxKey := leBytes 32 0, rxSalt := leBytes 4 0 })

/-- What is sealed opens again, and not under another header. -/
theorem test_sealAndOpen :
    (let c := gcmSeal (leBytes 32 1) (leBytes 12 2) (leBytes 8 hData) [1, 2, 3]
     gcmOpen (leBytes 32 1) (leBytes 12 2) (leBytes 8 hData) c.1 c.2 = some [1, 2, 3] ∧
     gcmOpen (leBytes 32 1) (leBytes 12 2) (leBytes 8 (hData + 1)) c.1 c.2 = none) := by
  decide +kernel

/-- The flit of a port without a key opens to its body. -/
theorem test_witness_dataFlit :
    (link 0 cwKeyed).flitFit 0 (clearFlit hData) = true ∧ (link 0 cwUp).flitFit 0 (clearFlit hData) = true ∧
    (link 0 cwUp).flitOpen 0 (clearFlit hData) = some (leBytes 228 0) ∧
    (link 0 cwKeyed).flitOpen 0 (clearFlit hData) = some (leBytes 228 0) ∧
    bitsOf (flitHdr (clearFlit hData)) 20 12 = ((link 0 cwUp).port 0).rxSn % 4096 ∧
    ((link 0 cwUp).port 0).held.getD (bitsOf (flitHdr (clearFlit hData)) 0 2) 0 < 64 := by
  decide +kernel

/-- A tag of zeros does not verify, a wrong CRC is no flit, and the four control flits with their points. -/
theorem test_witness_flits :
    (keyedPort cwUp).flitFit 0 (clearFlit hData) = true ∧ (keyedPort cwUp).flitOpen 0 (clearFlit hData) = none ∧
    (keyedPort cwUp).flitFit 0 (leBytes 256 0) = false ∧
    (ctrlOk (clearFlit 0x04) = true ∧ ctrlHdrOk kindIdle 0x04 = true ∧ flitHdr (clearFlit 0x04) = 0x04 ∧ bitsOf 0x04 8 22 = 0) ∧
    ctrlSeqOk kindAck (0x14 + 4095 * 2 ^ 8) = true ∧ ctrlSeqOk kindNak 0x24 = true ∧
    (let h := 0x34 + 255 * 2 ^ 20 + 3 * 2 ^ 28
     ctrlHdrOk kindCredit (h - bitsOf h 20 10 * 2 ^ 20) = true ∧ bitsOf h 8 12 = 0) ∧ ctrlOk (leBytes 256 0) = false ∧
    (let s := { link 0 cwUp with ns := 10000000 }
     (s.port 0).keepSent + 1000000 ≤ s.ns ∧ (s.port 0).keepNs + 10000000 ≤ s.ns) := by
  decide +kernel

/-- A PUSH grant that peer 5 may use on port 0: region of 16 bytes at 0x1000 of context 255, service lane 0x12F. -/
def gPush : List Nat := [1 + 0x001 * 2 ^ 32 + 0x12F * 2 ^ 48, 1 + 64 * 2 ^ 16, 0x1000 + 255 * 2 ^ 48, 16, 2 ^ 5, 0, 0, 0]

/-- A GATHER grant of table 3 of polder 0: one row, pooled by SUM to FP32, service lane 0x118. -/
def gGather : List Nat := [3 * 2 ^ 8 + 1 * 2 ^ 24 + 0x001 * 2 ^ 32 + 0x118 * 2 ^ 48, 1 + 64 * 2 ^ 16, 0, 0, 2 ^ 5, 0, 0, 0]

/-- Grant slot 0 selected, and its words. -/
def granting (w : List Nat) (g : Option Grant) : State :=
  { (List.range 8).foldl (fun t i => t.wri F.CW_GNT_W_WORD 0 i (w.getD i 0)) (((pol 0 pActive).setOwner .context 255 0 0).wr F.PLD_MERE_UNITS 0 1) with
    grants := SMap.put none [] 0 g
    mobs := [{ mob0 with slot := 1, owner := 0, ctx := 255 }] }

/-- A message that waits at port 0, and a request on it that waits for an answer. -/
def hears (vc : Nat) (b : List Byte) : State :=
  { link 0 cwUp with
    inbox := [{ port := 0, vc := vc, src := 5, body := b, ns := 0, flits := 1 }]
    runs := [run0 [.complete]]
    requests := [{ port := 0, tag := 7, owner := 16, run := 0, step := 0, dst := 0, len := 16, push := true, open_ := true
                   err := none }] }

/-- A body flit for device 9 that waits at port 3; the route to device 9 leaves by port 0, which is UP in a TRANSIT tick. -/
def crossing : State :=
  { (((link 0 cwUp).wri { F.CW_ROUTE_ENTRY0 with lo := 4 * 9 } 0 0 0).modPort 0 (fun p => { p with credits := [1, 0, 0, 0] })).modPort 3
      (fun p => { p with mid := SMap.put 0 [] (256 * 5 + 9) 1 }) with
    frame := some { frame0 with lanes := List.replicate 0x150 [(.transit, 1024)] }
    transit := [{ port := 3, out := 0, ns := 0, flit := { vc := 0, last := false, dst := 9, src := 5, body := [1] } }] }

/-- A GATHER request of peer 5 for row 1 of a table, due now. -/
def serving : State :=
  { (((havingVault [] (run0 []) [] rows01).setTable 0 3 (some { slot0 with base := 0x200000, scales := [0x3F800000, 0x3F800000, 0x3F800000, 0x3F800000] })).wr
        F.CW_STATE_STATE 0 cwUp).setOwner .context 255 0 0 |>.setOwner .extent 0 0 0 |>.modPort 0 (fun p => { p with credits := [0, 1, 0, 0] }) with
    mobs := [{ mob1 with slot := 1, owner := 0, ctx := 255 }]
    grants := SMap.put none [] 0 (some { words := gGather, st := gValid, suspended := false })
    services := [{ port := 0, src := 5, tag := 7, slot := 0, rows := [1], off := 0, len := 0, data := [], done := 0
                   refuse := false, status := 0 }] }

theorem test_witness_causeway :
    ((link 11 cwUp).ready = true ∧ (link 11 cwUp).cwSt 11 = cwUp ∧ (link 11 cwSeek).cwSt 11 ≠ cwQuar) ∧
    (let s := granting gPush none
     s.gntWords = gPush ∧ s.ready = true ∧
     s.grantCheck (s.grant (s.rd F.CW_GNT_SEL_SLOT 0)) (grantW s.gntWords) = 0) ∧
    (let s := granting gPush (some { words := gPush, st := gValid, suspended := false })
     (s.grant (s.rd F.CW_GNT_SEL_SLOT 0)).st = gValid ∧ s.reserved (s.rd F.CW_GNT_SEL_SLOT 0) = 0) ∧
    (let s := crossing
     (s.nextTransit 3).map (·.1) = some 0 ∧ SMap.get 0 (s.port 3).mid (65536 * 0 + 256 * 5 + 9) = 1 ∧ s.cwSt 0 = cwUp) ∧
    (let s := { live with ns := 1000000000 }
     (s.port 11).lateSec + 1 ≤ s.ns / 1000000000 ∧ s.lateGrowth 11 < s.rd F.CW_POLICY_SLOW_LIMIT 11) ∧
    (let s := ({ live with ns := 1000000000 } : State).wr F.CW_CNT_SVC_LATE_RCVD 11 500
     s.rd F.CW_POLICY_SLOW_LIMIT 11 ≤ s.lateGrowth 11 ∧ s.ns / 1000000000 = (s.port 11).lateSec + 1) := by
  decide +kernel

theorem test_witness_messages :
    (let s := hears 2 (leBytes 8 0 ++ leBytes 4 1000 ++ leBytes 20 0)
     s.asleep = false ∧ (s.takeMsg 0 reqVc).isSome = true ∧
     (s.takeMsg 0 reqVc).all (fun x => (hopHeader (x.2.rd F.CW_STATE_LAT_NS 0) 0 x.1.body).isSome) = true) ∧
    (let s := hears 1 (leBytes 4 7 ++ leBytes 2 0 ++ leBytes 2 16 ++ leBytes 8 0)
     (s.takeMsg 0 (· == 1)).all (fun x =>
       let s1 := x.2.count (portCnt 0 9) 1
       (s1.requests.find? (fun q => q.open_ && q.tag == numAt x.1.body 0 4)).any (fun q =>
         decide (bitsOf (numAt x.1.body 4 4) 0 4 = 0) && decide (numAt x.1.body 6 2 = q.len) && q.push &&
         (s1.run? q.run).isSome && (((s1.closeReq q none).countP q.owner 129 1).act? q.run q.step).isNone)) = true ∧
     (s.takeMsg 0 (· == 1)).isSome = true) ∧
    (let s := hears 2 (leBytes 32 0)
     (({ s with out := [] } : State).wr F.CW_STATE_LAT_NS 0 1).takeMsg 0 reqVc |>.all (fun x =>
       (hopHeader (x.2.rd F.CW_STATE_LAT_NS 0) 0 x.1.body).isNone)) = true := by
  decide +kernel

/-- A GATHER response of 16 bytes to Mere at 0x1000, of a run whose step no longer runs; and a PUSH response whose step still
runs, so that its descriptor is read again. -/
theorem test_witness_responses :
    (let s := { wRemote with
       inbox := (hears 1 (leBytes 4 7 ++ leBytes 2 0 ++ leBytes 2 16 ++ leBytes 24 0)).inbox
       runs := [run0 [.complete]]
       requests := [{ port := 0, tag := 7, owner := 16, run := 0, step := 0, dst := 0x1000, len := 16, push := false
                      open_ := true, err := none }] }
     (s.takeMsg 0 (· == 1)).isSome = true ∧ s.requests.all (fun q => !(s.respHole q).1 && (s.respHole q).2.isNone &&
       (s.writeVa 0 q.dst (leBytes 16 0) false (.run 0 16)).1.isNone && (s.act? 0 0).isNone && decide (q.len = 16)) = true) ∧
    (wRemote.act? 0 0).isSome = true := by
  decide +kernel

/-- The service completes, and its answer is row 1 of the table: (10, 20, −1, 5) as FP32. -/
theorem test_witness_service :
    (let s := serving
     s.asleep = false ∧ s.services.findIdx? (fun v => v.port == 0 && v.tag == 7 && decide (v.done ≤ s.tick) &&
       (v.status == 0 || decide (s.kindNow (0x140 + 0) = .service))) = some 0 ∧ s.cwSt 0 = cwUp ∧
     s.services.map (fun v => (v.status, decide (s.respFlits v ≤ (s.port 0).credits.getD 1 0),
       decide ((s.port 0).retry.length + s.respFlits v ≤ 256))) = [(0, true, true)] ∧ s.canSend 0 1 = true ∧
     s.services.map (fun v =>
       let x := ({ s with services := s.services.eraseIdx 0 } : State).serve v noEv
       (x.1, x.2.1, x.2.2.1)) =
       [(0, 16, leBytes 4 0x41200000 ++ leBytes 4 0x41A00000 ++ leBytes 4 0xBF800000 ++ leBytes 4 0x40A00000)]) := by
  decide +kernel

/-- Power states: each request from a state that it may leave, and from one that it may not. -/
def inPwr (st req : Nat) : State := (live.wr F.PWR_STATUS_STATE 0 st).wr F.PWR_REQ_STATE 0 req

theorem test_witness_power :
    ([(inPwr pwStandby 1, 0), (inPwr pwActive 0, 1), (inPwr pwStandby 1, 2), (inPwr pwActive 0, 3)].all (fun x =>
      x.1.ready && decide (x.1.rd F.PWR_REQ_STATE 0 ≠ x.2) && (pwrNext x.1.pwr x.2).isSome)) = true ∧
    ([(inPwr pwOffReady 3, 0), (inPwr pwStandby 2, 1), (inPwr pwWaking 0, 2), (inPwr pwRetainPending 2, 3)].all (fun x =>
      x.1.ready && decide (x.1.rd F.PWR_REQ_STATE 0 ≠ x.2) && (pwrNext x.1.pwr x.2).isNone)) = true ∧
    ([pwStandbyPending, pwWaking, pwRetainPending, pwOffPending, pwOffReady].all (fun st =>
      decide ((inPwr st 0).pwr = st) && (inPwr st 0).quiet && (inPwr st 0).atBoundary && !(inPwr st 0).board.retain)) = true ∧
    (let s := onBoard (fun b => { b with retain := true })
     s.board.retain = true ∧ s.board.coreEn = true ∧ s.board.pwrGood = true) ∧
    (let s := live.wr F.PWR_STATUS_RAIL_OK 0 0
     s.mgcRuns = true ∧ s.rail = s.effLevel ∧ s.rd F.PWR_STATUS_RAIL_OK 0 ≠ 1 ∧ s.ready = true ∧
     (s.setPhase phZero).ready = false) ∧
    live.mgcRuns = true ∧ ({ live with reports := 998 } : State).reports < 999 := by
  decide +kernel

theorem test_witness_resets :
    (let s := live.wr F.JCT_RESET_MGC_SCOPE 0 1
     s.board.aon = true ∧ s.resetting = false ∧ max (s.rd F.JCT_RESET_HOST_SCOPE 0) (s.rd F.JCT_RESET_MGC_SCOPE 0) = 1) ∧
    (let s := live.wr F.JCT_RESET_HOST_SCOPE 0 2
     max (s.rd F.JCT_RESET_HOST_SCOPE 0) (s.rd F.JCT_RESET_MGC_SCOPE 0) = 2) ∧
    (starting phTrain true).resetting = true ∧
    ((starting phRestore false).board.cold = false ∧ (starting phRestore false).phase = phRestore ∧
      (starting phZero false).phase = phZero) ∧
    (live.board.aon = true ∧ live.board.perst = true ∧ live.board.retain = false ∧ live.board.planes = true ∧ live.mgc.up = true) ∧
    (onBoard (fun b => { b with retain := true })).board.retain = true ∧ live.ready = true := by
  decide +kernel

theorem test_witness_startUp :
    State.reset.board.aon = false ∧ live.board.aon = true ∧
    ([(false, false), (false, true), (true, false), (true, true)].all (fun x =>
      let s := onBoard (fun b => { b with pwrGood := false, strapped := x.1, coldNext := x.2 })
      s.board.aon && !s.board.pwrGood && s.board.strapped == x.1 && s.board.coldNext == x.2)) = true ∧
    (live.board.pwrGood = true ∧ live.board.coreEn = true) ∧
    (onBoard (fun b => { b with coreEn := false })).board.coreEn = false ∧
    (onBoard (fun b => { b with perst := false })).board.perst = false ∧
    ((onBoard (fun b => { b with planes := false })).mayStart = true ∧ live.mayStart = false) ∧
    (let s := starting phTrain true
     s.phase = phTrain ∧ s.trainOf 0 = 0 ∧ s.trainOf 7 = 1 ∧ s.trainOf 1 = 2 ∧ s.trainSince 0 ≤ trainNsMax ∧
     (s.setTrain 0 2).board.train.all (· == 2) = false ∧ ((s.setTrain 0 2).setTrain 7 2).board.train.all (· == 2) = true) ∧
    (let s := { starting phTrain true with ns := 45000001 }
     trainNsMax ≤ s.trainSince 0 ∧ trainNsMax < s.trainSince 7 ∧ s.trainOf 7 = 1) ∧
    ((starting phZero true).board.cold = true ∧ (starting phZero true).phase = phZero) ∧
    (let s := { starting phRestore true with ns := 400000000 }
     s.board.perst = true ∧ s.phase < phReady ∧ s.board.perstNs + 400000000 ≤ s.ns) ∧ live.phase = phReady := by
  decide +kernel

theorem test_witness_boot :
    (let s : State := { live with mgc := { live.mgc with up := false } }
     s.board.aon = true ∧ s.board.strapped = true ∧ s.mgc.up = false ∧ s.board.planes = true ∧
     bitAt (s.rd F.RST_BOOT_STRAPS 0) 3 = false ∧ s.bootSlot true true = some s.mgc.preferred ∧ s.bootSlot false false = none ∧
     bitAt ((s.wr F.RST_BOOT_STRAPS 0 8).rd F.RST_BOOT_STRAPS 0) 3 = true) ∧ live.mgc.up = true := by
  decide +kernel

theorem test_witness_pins :
    (let s := live.wri F.PMX_SB_PARKED 0 7 0
     s.pmxLegal 7 0x18 = true ∧ s.rdi F.PMX_SB_PARKED 0 7 = 0 ∧ s.rdi F.PMX_SB_FUNC 0 7 ≠ bitsOf 0x18 0 4) ∧
    (let s := live.wri F.PMX_SB_PARKED 0 7 1
     s.pmxLegal 7 0x18 = true ∧ s.rdi F.PMX_SB_PARKED 0 7 = 1 ∧ s.mgc.up = true) ∧
    (let s := (live.wri F.PMX_SB_CUR_FUNC 0 7 7).wri F.PMX_SB_PARKED 0 7 0
     s.rdi F.PMX_SB_CUR_FUNC 0 7 = 7 ∧ s.rdi F.PMX_SB_PARKED 0 7 = 0) ∧
    (live.ready = true ∧ live.pmxLegal 7 0xF = false) ∧
    (let s := live.wri F.PMX_SB_PARKED 0 7 0
     let v := s.rdi F.PMX_SB_FUNC 0 7 + 16 * s.rdi F.PMX_SB_POL 0 7
     s.pmxLegal 7 v = true ∧ s.rdi F.PMX_SB_PARKED 0 7 ≠ 1 ∧ s.rdi F.PMX_SB_FUNC 0 7 = bitsOf v 0 4 ∧
     s.rdi F.PMX_SB_POL 0 7 = bitsOf v 4 1) ∧
    (let s := (onBoard (fun b => { b with planes := false })).wri F.PMX_SB_PARKED 0 7 1
     ({ s with mgc := { s.mgc with up := false } } : State).mgc.up = false ∧ s.board.planes = false) := by
  decide +kernel

theorem test_witness_management :
    (live.ready = true ∧ live.rd F.MBX_STATUS_BUSY 0 = 0 ∧ live.mgcRuns = true ∧ live.mgc.up = true) ∧
    (live.bank.value hmCap ≤ 3 ∧ statesOk (List.replicate 12 (some 2)) 12 = true) ∧
    (onBoard (fun b => { b with retain := true })).board.retain = true ∧ ((pol 15 pActive).pst 15 ≠ pFree) ∧
    (∃ x, pdrs[1 - 1]? = some x) ∧ (∃ x, pdrs[24 - 1]? = some x) ∧ pdrs.length = 24 ∧ 5 ∈ live.pldmTypes ∧
    live.numericSensor 0x30 = some (true, live.rd F.PAT_INDEX_INDEX 0) ∧ (live.stateSensor 0x22).isSome = true := by
  refine ⟨?_, ?_, ?_, ?_, ⟨_, rfl⟩, ⟨_, rfl⟩, ?_⟩ <;> decide +kernel

theorem test_witness_update :
    live.mgc.upd.state = upIdle ∧
    (updating (fun u => { u with state := upLearn })).mgc.upd.state = upLearn ∧
    (let s := updating (fun u => { u with state := upReady, comps := [compFirmware] })
     s.mgc.upd.state = upReady ∧ compFirmware ∈ s.mgc.upd.comps) ∧
    (let s := updating (fun u => { u with state := upDownload, comp := compFirmware, size := 513, data := [1] })
     s.mgc.upd.state = upDownload ∧ s.mgc.upd.data.length < s.mgc.upd.size ∧
     (List.replicate 512 (0 : Byte)).length = min 512 (s.mgc.upd.size - s.mgc.upd.data.length)) ∧
    (let s := updating (fun u => { u with state := upVerify, comp := compFirmware, size := 1, data := [1] })
     s.mgc.upd.state = upVerify ∧ s.mgc.upd.comp = compFirmware ∧ s.bank.value hmSecurity ≤ 0 ∧
     s.mgc.upd.data.length = s.mgc.upd.size) ∧
    (let s := updating (fun u => { u with state := upDownload, size := 1, data := [1] })
     s.mgc.upd.state = upDownload ∧ s.mgc.upd.data.length = s.mgc.upd.size) ∧
    (let s := updating (fun u => { u with state := upApply, comp := compPack })
     s.mgc.upd.state = upApply ∧ s.mgc.upd.comp = compPack) ∧
    (let s := updating (fun u => { u with state := upReady, applied := true })
     s.mgc.upd.comps = [] ∧ s.mgc.upd.applied = true ∧ s.mgc.recovery = false) := by
  decide +kernel

/-- An SPDM connection in a phase with one session that waits for FINISH and one that is open. -/
def talking (ph : Nat) : State :=
  { live with mgc := { live.mgc with doe := { phase := ph, sessions := [(1, false), (2, true)] } } }

theorem test_witness_spdm :
    [1, 2, 3].map (fun n => ((talking n).spdm true).phase) = [1, 2, 3] ∧
    ((talking 3).spdm true).sessions.any (fun x => x.1 == 3) = false ∧ (1, false) ∈ ((talking 3).spdm true).sessions ∧
    (2, true) ∈ ((talking 3).spdm true).sessions ∧ (talking 3).mgcRuns = true := by
  decide +kernel

/-! ## The bank, memory, and the statements over every step, witnesses -/

/-- A strike past its limit and one with a bad value are both logged. -/
theorem test_witness_refusals :
    (let s := { live with bank := { live.bank with ownerRows := [[], [], [], []] } }
     (s.strike hmOwnerKey 0 true 0 0 true none).1 = .limit 0 ∧ (live.strike hmSecurity 0 false 0 0 false none).1 = .value 0) := by
  decide +kernel

theorem test_witness_memory :
    (let s := havingVault [] (run0 []) [] []
     s.locate 0 = some (0, 0) ∧ (s.writeVault .background 0 [1, 2]).1.isNone = true ∧ (s.writeMere 0x3FFFFFF [1]).1.isNone = true) := by
  decide +kernel

/-- A query, a command that stores nothing, and a step, each with a next state. -/
theorem test_witness_next :
    Instr.isQuery .pldmGetTid = true ∧ Instr.storesNothing .pldmGetTid = true ∧ (∃ t, Runs .pldmGetTid live t) ∧
    live.memWf = true ∧ (∃ t, step { live with pending := [.pldmGetTid] } = .next t) := by
  refine ⟨rfl, rfl, ⟨_, rfl⟩, ?_, ⟨_, rfl⟩⟩; decide +kernel

/-- The clauses of the state after reset that compute. -/
theorem test_reset :
    State.reset.memWf = true ∧ State.reset.pending = [] ∧ State.reset.bank.log = [] ∧ State.reset.ready = false ∧
    State.reset.pwr = pwActive ∧ State.reset.frame = none ∧ State.reset.tick = 0 ∧ State.reset.runs = [] ∧
    (List.range 16).all (fun p => State.reset.pst p == pFree && State.reset.tdisp p == 0) = true ∧
    (List.range 12).all (fun n => State.reset.cwSt n == cwDown) = true ∧
    (List.range 64).all (fun n => State.reset.hspState n == hspFree) = true ∧ State.reset.fence 65535 = .armed := by
  decide +kernel


/-! ## Well-formedness: for each check of WellFormed.lean a term that it refuses -/

/-- The first value that a field of `n` bits cannot hold. -/
def past (n : Nat) : Nat := 2 ^ n

/-- A fence index that no FENCE field of 17 bits holds, and one that no field of 16 bits holds. -/
def badFence : Option Nat := some (past 17)
def badFence16 : Option Nat := some (past 16)

theorem test_illFormed_pages :
    ([.doorbellWrite .pf 1024 0 [0], .doorbellWrite (.vf 0) 256 0 [0], .doorbellWrite .pf 0 4095 [0, 0],
      .registerWrite .pf true 1024 0 [0], .registerWrite .pf false 0 4096 [0], .bar4Access .pf true 16384 [0],
      .bar4Access (.vf 15) false 8191 [0, 0], .badSizeRead (.vf 0) false 256 0 1, .badSizeRead .pf false 0 4089 8]
        : List Instr).all (fun c => !c.wf) = true := by decide +kernel

theorem test_illFormed_fences :
    ([.pldCreate .pf 0 badFence16, .pldActivate .pf 0 badFence16, .pldDestroy .pf 0 badFence16, .pldZero .pf 0 badFence16,
      .pldAbort .pf 0 badFence16, .fncBlockReset .pf 0 badFence, .mobWrite .pf 0 badFence, .mobClear .pf 0 badFence,
      .mobResume .pf badFence, .mobAbort .pf badFence, .invInvalidate .pf 0 0 badFence, .invResume .pf 0 badFence,
      .invAbort .pf 0 badFence, .plnLoad .pf badFence [] .ok, .plnUnload .pf badFence, .plnResume .pf badFence,
      .plnAbort .pf badFence, .rvLoad .pf badFence [] .ok, .rvCommit .pf false badFence, .rvResume .pf badFence,
      .rvAbort .pf badFence, .rvDiscard .pf badFence, .tblWrite .pf 0 badFence [] .ok, .tblClear .pf 0 badFence,
      .tblResume .pf badFence, .tblAbort .pf badFence] : List Instr).all (fun c => !c.wf) = true ∧
    ([.hmkPin .pf 0 badFence, .hmkUnpin .pf 0 badFence, .hmkUnpinAll .pf badFence, .hmkResume .pf badFence,
      .hmkAbort .pf badFence, .epPublish .pf badFence, .epAbandon .pf badFence, .epResume .pf badFence, .epAbort .pf badFence,
      .twrRetire .pf 0 0 badFence, .twrRepair .pf 0 0 badFence, .twrResume .pf 0 badFence, .twrAbort .pf 0 badFence,
      .asyLoad .pf badFence [] .ok, .asySweep .pf badFence, .asyTest .pf 0 0 badFence, .rstEngine .pf 0 0 badFence]
        : List Instr).all (fun c => !c.wf) = true := by
  decide +kernel

theorem test_illFormed_fields :
    ([.pldAssign .pf 0 .queue (past 24) 1 0, .pldAssign .pf 0 .queue 0 (past 24) 0, .pldRelease .pf 0 .queue (past 24) 1,
      .pldRelease .pf 0 .queue 0 (past 24), .mobWrite .pf (past 16) none, .mobClear .pf (past 16) none,
      .fltRetry .pf 0 (past 16) [], .fltFail .pf 0 (past 16), .faultFill 0 (past 16) [], .invInvalidate .pf 0 (past 36) none,
      .tempSample [] 0, .backgroundTick 0 (leBytes 262145 0), .asyTest .pf (past 16) 0 none, .asyTest .pf 0 (past 8) none,
      .patinaSample (List.replicate 257 none) [] [] [], .dataFlitReceived 0 [], .firstFlitVerified 0 [], .controlFlitIdle 0 [], .controlFlitAck 0 [],
      .controlFlitNak 0 [], .controlFlitCredit 0 [], .keyUpdate 0 true [] (leBytes 4 0), .keyUpdate 0 true (leBytes 32 0) [],
      .spdmSessionEstablished 0 { session0 with anchor := [] }, .authFailure 0 { session0 with txKey := [] },
      .spdmSessionEstablished 0 { session0 with rxKey := [] }, .authFailure 0 { session0 with txSalt := [] },
      .authFailure 0 { session0 with rxSalt := [] },
      .requestServiceComplete 0 (past 32) noEv, .rstEngine .pf (past 16) 0 none, .rstEngine .pf 0 (past 8) none,
      .mbxGetInfo .pf (past 16) .done, .mbxStrike .pf (past 16) .done, .mbxAuthHold .pf (past 16) .done,
      .mbxLogRead .pf (past 16) .done, .mbxPackRead .pf (past 16) .done, .mbxPatinaRead .pf (past 16) .done]
        : List Instr).all (fun c => !c.wf) = true := by
  decide +kernel

theorem test_illFormed_messages :
    ([.effecterMgcCeiling (past 8), .effecterLeaveRetain (past 8), .effecterResetScope (past 8),
      .effecterPortEnable [some (past 8)], .effecterZeroOrder [some (past 8)], .effecterFault (past 8),
      .mctpSetEndpointId false 4 8, .mctpSetEndpointId false 0 (past 8), .mctpGetVersionSupport (past 8), .pldmSetTid (past 8),
      .pldmGetPldmVersion (past 8), .pldmGetPldmCommands (past 8), .pldmGetPdr (past 32), .pldmGetSensorReading (past 16),
      .pldmGetStateSensorReadings (past 16), .pldmSetEventReceiver (some (past 8)), .pldmRequestUpdate (past 32),
      .pldmPassComponentTable (past 16) true, .pldmUpdateComponent (past 16) 1, .pldmUpdateComponent 0 (past 32),
      .pldmRequestFirmwareData (List.replicate 513 0), .pldmVerifyComplete true (past 32) 0,
      .pldmVerifyComplete true 0 (past 32)] : List Instr).all (fun c => !c.wf) = true ∧
    ([.spdmNegotiateAlgorithms false (past 32) 0 0 0, .spdmNegotiateAlgorithms false 0 (past 32) 0 0,
      .spdmNegotiateAlgorithms false 0 0 (past 16) 0, .spdmNegotiateAlgorithms false 0 0 0 (past 16),
      .spdmGetCertificate false 16, .spdmChallenge false 16, .spdmGetMeasurements false (past 8), .spdmKeyExchange false 16 0,
      .spdmKeyExchange false 0 (past 32), .spdmFinish false (past 32) true, .spdmHeartbeat false (past 32),
      .spdmKeyUpdate false (past 32) 0 0, .spdmKeyUpdate false 0 (past 8) 0, .spdmKeyUpdate false 0 0 (past 8),
      .spdmEndSession false (past 32)] : List Instr).all (fun c => !c.wf) = true := by
  decide +kernel

/-- The largest values that these fields hold are well-formed. -/
theorem test_wellFormed :
    ([.doorbellWrite .pf 1023 4095 [0], .bar4Access (.vf 15) true 8191 [0], .mobWrite .pf 65535 (some 131071),
      .pldCreate .pf 15 (some 65535), .invInvalidate .pf 255 (2 ^ 36 - 1) none, .backgroundTick 0 (leBytes 256 0),
      .mctpSetEndpointId true 3 255, .dataFlitReceived 11 (leBytes 256 0), .spdmSessionEstablished 11 session0, .pldmGetTid]
        : List Instr).all (fun c => c.wf) = true := by
  decide +kernel

/-- No row of the command table gives bits, so no word spells a command. -/
theorem test_decodeTable (n w : Nat) : decodeTableWord n w = none := rfl

end Sys2Proof.Tests
end

section
/-! SUPPORT. The laws of the fence table and of a re-arm write (spec/05_host_objects_fences.md, R95), one equation for each
state in which the write finds the fence. -/

namespace Sys2Proof.Machine
open Sys2Proof

/-! ## The fence table -/

@[simp] theorem State.fence_put_same (s : State) (f : Nat) (st : FenceSt) :
    State.fence { s with fences := SMap.put .armed s.fences f st } f = st :=
  SMap.get_put_same _ s.fences f st

theorem State.fence_put_ne (s : State) (st : FenceSt) {f g : Nat} (h : g ≠ f) :
    State.fence { s with fences := SMap.put .armed s.fences f st } g = s.fence g :=
  SMap.get_put_ne _ s.fences st h

/-! ## A re-arm write -/

section
variable {s : State} {fn : Fn} {block word data f : Nat}

/-- A write with bit 0 = 1 is ignored, whatever fence it names. -/
theorem State.rearm_odd (hodd : data % 2 = 1) : s.rearm fn block word data = s := by
  cases hready : s.ready with
  | false => simp [State.rearm, hready]
  | true =>
    cases hf : s.fenceGlobal fn.idx (512 * block + word) with
    | none => simp [State.rearm, hf]
    | some f => simp [State.rearm, hf, hodd]

/-- A write to an ARMED fence is ignored, whatever its bit 0. -/
theorem State.rearm_armed (hready : s.ready = true) (hf : s.fenceGlobal fn.idx (512 * block + word) = some f)
    (hst : s.fence f = .armed) : s.rearm fn block word data = s := by
  simp [State.rearm, hready, hf, hst]

/-- A write to a fence that a command holds is ignored: no queue is the holder's, so none counts it. -/
theorem State.rearm_heldByCommand {op : OpSel} (hready : s.ready = true)
    (hf : s.fenceGlobal fn.idx (512 * block + word) = some f) (hst : s.fence f = .held (.cmd op)) :
    s.rearm fn block word data = s := by
  simp [State.rearm, hready, hf, hst]

/-- A write with bit 0 = 0 to a fence that a run holds counts in the run's queue. -/
theorem State.rearm_heldByRun {id : Nat} {r : Run} (hready : s.ready = true)
    (hf : s.fenceGlobal fn.idx (512 * block + word) = some f) (heven : data % 2 = 0)
    (hst : s.fence f = .held (.run id)) (hrun : s.run? id = some r) :
    s.rearm fn block word data = s.bump F.Q_STATUS_REARM_IGNORED r.queue 1 := by
  simp [State.rearm, hready, hf, heven, hst, hrun]

/-- A write with bit 0 = 0 to a SIGNALLED fence writes ARMED at that fence in the fence table. -/
theorem State.rearm_signalled {e : Option Err} {t : Nat} (hready : s.ready = true)
    (hf : s.fenceGlobal fn.idx (512 * block + word) = some f) (heven : data % 2 = 0)
    (hst : s.fence f = .signalled e t) :
    s.rearm fn block word data = { s with fences := SMap.put .armed s.fences f .armed } := by
  simp [State.rearm, hready, hf, heven, hst]

end

/-- FENCE_REARM always runs, and its next state is what the re-arm write makes of the present one. -/
theorem exec_fenceRearm (fn : Fn) (block : Fin 128) (word : Fin 512) (data : Word) (s : State) :
    exec (.fenceRearm fn block word data) s = .next (s.rearm fn block.val word.val data.toNat) := rfl

theorem runs_fenceRearm_iff {fn : Fn} {block : Fin 128} {word : Fin 512} {data : Word} {s t : State} :
    Runs (.fenceRearm fn block word data) s t ↔ s.rearm fn block.val word.val data.toNat = t := by
  rw [Runs, exec_fenceRearm, Host.Outcome.next.injEq]

/-- Settles O6: the write's bit 0 and the state of the fence choose the equation of the re-arm write. -/
theorem rearmOfAFence : Obligations.RearmOfAFence := by
  refine ⟨?signalled, ?heldByRun, ?ignored⟩
  case signalled =>
    intro s fn block word data f t e hready hf heven hst
    refine ⟨{ s with fences := SMap.put .armed s.fences f .armed }, ?_, ?_⟩
    · exact runs_fenceRearm_iff.2 (State.rearm_signalled hready hf heven hst)
    · have harmed := State.fence_put_same s f .armed
      exact ⟨harmed, congrArg FenceSt.word harmed, fun g hg => State.fence_put_ne s .armed hg, rfl⟩
  case heldByRun =>
    intro s fn block word data f id r hready hf heven hst hrun
    exact runs_fenceRearm_iff.2 (State.rearm_heldByRun hready hf heven hst hrun)
  case ignored =>
    intro s fn block word data f hready hf hcase
    apply runs_fenceRearm_iff.2
    obtain hodd | harmed | ⟨op, hcmd⟩ := hcase
    · exact State.rearm_odd hodd
    · exact State.rearm_armed hready hf harmed
    · exact State.rearm_heldByCommand hready hf hcmd

end Sys2Proof.Machine
end

section
/-! SUPPORT. No frame in force (spec/09_plans_lodes.md, R188): the updates that leave the frame alone, the resets that end it,
and what an admission window and the first COMMIT then do. -/

namespace Sys2Proof.Machine
open Sys2Proof

/-! ## Updates that leave the frame alone -/

/-- Updates in a row leave the frame alone when each one does. -/
theorem State.foldl_frame {α : Type} {f : State → α → State} (hf : ∀ (t : State) (a : α), (f t a).frame = t.frame)
    (l : List α) (s : State) : (l.foldl f s).frame = s.frame := by
  induction l generalizing s with
  | nil => rfl
  | cons a l ih => exact (ih (f s a)).trans (hf s a)

/-- Register writes in a row leave the frame alone. -/
theorem State.foldl_wr_frame (l : List (Fld × Nat)) (s : State) :
    (l.foldl (fun (t : State) (p : Fld × Nat) => t.wr p.1 0 p.2) s).frame = s.frame :=
  State.foldl_frame (fun t p => t.wr_frame p.1 0 p.2) l s

@[simp] theorem State.setPhase_frame (s : State) (n : Nat) : (s.setPhase n).frame = s.frame := rfl

@[simp] theorem State.setAsy_frame (s : State) (fe fd : Fld) (l v : Nat) : (s.setAsy fe fd l v).frame = s.frame := by
  unfold State.setAsy; split <;> rfl

@[simp] theorem State.setQueued_frame (s : State) (l v : Nat) : (s.setQueued l v).frame = s.frame :=
  s.setAsy_frame _ _ l v

@[simp] theorem State.setMarks_frame (s : State) (l v : Nat) : (s.setMarks l v).frame = s.frame :=
  s.setAsy_frame _ _ l _

@[simp] theorem State.setHealth_frame (s : State) (l v : Nat) : (s.setHealth l v).frame = s.frame :=
  s.setAsy_frame _ _ l v

@[simp] theorem State.wrWords_frame (s : State) (f : Fld) (first : Nat) (bs : List Byte) :
    (s.wrWords f first bs).frame = s.frame :=
  State.foldl_frame (fun t _ => t.wri_frame f 0 _ _) _ s

@[simp] theorem State.platformEvent_frame (s : State) (id a b : Nat) : (s.platformEvent id a b).frame = s.frame := by
  unfold State.platformEvent; split <;> rfl

@[simp] theorem State.sensorEvent_frame (s : State) (id a b : Nat) : (s.sensorEvent id a b).frame = s.frame := by
  unfold State.sensorEvent; split
  · rfl
  · exact s.platformEvent_frame id a b

@[simp] theorem State.sensorEvents_frame (s old : State) : (s.sensorEvents old).frame = s.frame := by
  refine State.foldl_frame (fun t id => ?_) _ s
  split
  · exact t.sensorEvent_frame id _ _
  · rfl

@[simp] theorem State.breakHasps_frame (s : State) (q : Nat → Bool) : (s.breakHasps q).frame = s.frame := by
  refine State.foldl_frame (fun t n => ?_) _ s
  split <;> rfl

@[simp] theorem State.hmMirror_frame (s : State) : s.hmMirror.frame = s.frame := by
  unfold State.hmMirror
  extract_lets b w fab s1 s2 s3
  have h1 : s1.frame = s.frame := State.foldl_wr_frame _ s
  have h2 : s2.frame = s1.frame := (State.wri_frame _ _ _ _ _).trans (s1.wri_frame _ _ _ _)
  have h3 : s3.frame = s2.frame := s2.wrWords_frame _ _ _
  exact (State.foldl_frame (fun t k => t.wrWords_frame _ _ _) _ s3).trans (h3.trans (h2.trans h1))

@[simp] theorem State.suspects_frame (s : State) : s.suspects.frame = s.frame :=
  State.foldl_frame (fun t l => by simp) _ s

@[simp] theorem State.coldValues_frame (s : State) : s.coldValues.frame = s.frame := by
  unfold State.coldValues
  extract_lets cap s1
  have h1 : s1.frame = s.frame := s.hmMirror_frame
  rw [State.suspects_frame]
  exact (State.foldl_frame (fun t v => t.wri_frame _ _ _ _) _ s1).trans h1

/-! ## The resets end the frame -/

theorem State.coldReset_frame (s : State) : s.coldReset.frame = none := by
  unfold State.coldReset
  extract_lets b _ s1 s2
  have h2 : s2.frame = none := State.foldl_wr_frame _ s1
  rw [State.setPhase_frame, State.coldValues_frame, h2]

theorem State.warmReset_frame (s : State) (cause : Nat) : (s.warmReset cause).frame = none := by
  unfold State.warmReset
  extract_lets kept live isExt quar _ _ _ base s1 busy s2 s3 s4 s5
  have h1 : s1.frame = none := State.foldl_wr_frame _ base
  have h2 : s2.frame = none := by
    refine (State.wr_frame _ _ _ _).trans ?_
    split
    · exact h1
    · exact (s1.wr_frame _ _ _).trans h1
  have h3 : s3.frame = none := (State.foldl_frame (fun t p => by split <;> rfl) _ s2).trans h2
  have h4 : s4.frame = none := (State.foldl_frame (fun t o => by split <;> rfl) _ s3).trans h3
  have h5 : s5.frame = none := (State.foldl_frame (fun t l => by split <;> simp) _ s4).trans h4
  rw [State.sensorEvents_frame, State.breakHasps_frame, h5]

/-! ## Windows and switches with no frame in force -/

/-- With no frame in force there is no window. -/
theorem State.window_noFrame {s : State} (h : s.frame = none) (o lode : Nat) : s.window o lode = s := by
  simp [State.window, h]

/-- ADMISSION_WINDOW always runs, and its next state is what the window makes of the present one. -/
theorem exec_admissionWindow (fn : Fn) (lode : Nat) (s : State) :
    exec (.admissionWindow fn lode) s = .next (s.window fn.idx lode) := rfl

/-- With no frame in force the switch is at the tick that is 64 away, rounded up to a multiple of 64. -/
theorem State.switchAt_noFrame {s : State} (h : s.frame = none) (q : Nat → Bool) :
    s.switchAt q = (s.tick + 127) / 64 * 64 := by
  simp [State.switchAt, h, ceilDiv]

/-- Settles O27: both resets start from the reset state, which has no frame, and none of their writes makes one. -/
theorem noFrameAdmitsNoRun : Obligations.NoFrameAdmitsNoRun := by
  refine ⟨?resets, ?noWindow, ?firstSwitch⟩
  case resets =>
    exact fun s cause => ⟨s.warmReset_frame cause, s.coldReset_frame⟩
  case noWindow =>
    intro s fn lode h
    rw [Runs, exec_admissionWindow, State.window_noFrame h]
  case firstSwitch =>
    intro s q h
    rw [State.switchAt_noFrame h]
    refine ⟨?multiple, ?far, ?least⟩
    case multiple => exact Nat.mul_mod_left _ 64
    case far => omega
    case least => intro n hn hfar; omega

end Sys2Proof.Machine
end

section
/-! SUPPORT. Strikes that check 3 or check 4 refuses (spec/22_management_hallmark.md, R492, R494, R495): the bank after an
append to the log, what such an entry cannot change of the bank, and when a strike is refused so. -/

namespace Sys2Proof.Machine
open Sys2Proof

/-! ## The mirror leaves the bank alone -/

/-- Updates in a row leave the bank alone when each one does. -/
theorem State.foldl_bank {α : Type} {f : State → α → State} (hf : ∀ (t : State) (a : α), (f t a).bank = t.bank)
    (l : List α) (s : State) : (l.foldl f s).bank = s.bank :=
  calc (l.foldl f s).bank = l.foldl (fun b _ => b) s.bank := (List.foldl_hom State.bank fun t a => (hf t a).symm).symm
    _ = s.bank := List.foldl_fixed l

@[simp] theorem State.wrWords_bank (s : State) (f : Fld) (first : Nat) (bs : List Byte) :
    (s.wrWords f first bs).bank = s.bank :=
  State.foldl_bank (fun t _ => t.wri_bank f 0 _ _) _ s

@[simp] theorem State.hmMirror_bank (s : State) : s.hmMirror.bank = s.bank := by
  unfold State.hmMirror
  extract_lets b w fab s1 s2 s3
  have h1 : s1.bank = s.bank := State.foldl_bank (fun t (x : Fld × Nat) => t.wr_bank x.1 0 x.2) _ s
  have h2 : s2.bank = s1.bank := (State.wri_bank _ _ _ _ _).trans (s1.wri_bank _ _ _ _)
  have h3 : s3.bank = s2.bank := s2.wrWords_bank _ _ _
  exact (State.foldl_bank (fun t k => t.wrWords_bank _ _ _) _ s3).trans (h3.trans (h2.trans h1))

/-! ## A log entry appended -/

/-- The bank with one more log entry. -/
def Bank.append (b : Bank) (e : LogEntry) : Bank := { b with log := b.log ++ [e] }

@[simp] theorem Bank.append_log (b : Bank) (e : LogEntry) : (b.append e).log = b.log ++ [e] := rfl

@[simp] theorem Bank.append_ownerRows (b : Bank) (e : LogEntry) : (b.append e).ownerRows = b.ownerRows := rfl

@[simp] theorem Bank.append_signerRows (b : Bank) (e : LogEntry) : (b.append e).signerRows = b.signerRows := rfl

@[simp] theorem Bank.append_factoryCap (b : Bank) (e : LogEntry) : (b.append e).factoryCap = b.factoryCap := rfl

@[simp] theorem State.logAppend_bank (s : State) (e : LogEntry) : (s.logAppend e).bank = s.bank.append e :=
  State.hmMirror_bank _

/-! ## An entry that is not STRUCK changes no setting

Counts and values look at STRUCK entries and at the key rows alone (R495). -/

/-- An entry with another outcome than STRUCK is a strike of no setting. -/
theorem LogEntry.struckFor_of_outcome_ne {e : LogEntry} (h : e.outcome ≠ ocStruck) (k j : Nat) :
    e.struckFor k j = false := by
  simp [LogEntry.struckFor, h]

section
variable {e : LogEntry} (h : e.outcome ≠ ocStruck) (b : Bank)
include h

theorem Bank.latest_append (k j : Nat) : (b.append e).latest k j = b.latest k j := by
  simp [Bank.latest, LogEntry.struckFor_of_outcome_ne h]

theorem Bank.strikes_append (k j : Nat) : (b.append e).strikes k j = b.strikes k j := by
  simp [Bank.strikes, LogEntry.struckFor_of_outcome_ne h]

theorem Bank.value_append (k : Nat) : (b.append e).value k = b.value k := by
  simp [Bank.value, Bank.latest_append h]

theorem Bank.ownerKey_append : (b.append e).ownerKey = b.ownerKey := by
  simp [Bank.ownerKey, Bank.latest_append h]

theorem Bank.signer_append (j : Nat) : (b.append e).signer j = b.signer j := by
  simp [Bank.signer, Bank.latest_append h]

end

/-! ## The refusals of a strike -/

/-- The log entry of a strike request that ends with the given outcome (Table — Log entry). -/
def State.strikeEntry (s : State) (k j : Nat) (claim : Bool) (old new oc : Nat) : LogEntry :=
  LogEntry.sealed { setting := k, outcome := oc, claim := claim, target := j, strike := s.bank.strikes k j + 1, old := old
                    new := new, ns := s.devNs, check := 0 }

section
variable {s t : State} {k j old new i : Nat} {claim ok : Bool} {row : Option (List Byte)}

/-- Check 3: a strike past the setting's limit. -/
theorem State.strike_limit_iff :
    s.strike k j claim old new ok row = (.limit i, t) ↔
      s.bank.logFree k = true ∧ strikeLimit k ≤ s.bank.strikes k j ∧
        i = s.bank.log.length ∧ t = s.logAppend (s.strikeEntry k j claim old new ocLimit) := by
  unfold State.strike State.strikeEntry
  by_cases hfree : s.bank.logFree k = false
  · simp [hfree]
  · by_cases hlimit : strikeLimit k ≤ s.bank.strikes k j
    · simp [hfree, hlimit, eq_comm]
    · cases ok <;> simp [hfree, hlimit]

/-- Check 4: a strike within the limit that breaks the setting's value rule. -/
theorem State.strike_value_iff :
    s.strike k j claim old new ok row = (.value i, t) ↔
      s.bank.logFree k = true ∧ s.bank.strikes k j < strikeLimit k ∧ ok = false ∧
        i = s.bank.log.length ∧ t = s.logAppend (s.strikeEntry k j claim old new ocValue) := by
  unfold State.strike State.strikeEntry
  by_cases hfree : s.bank.logFree k = false
  · simp [hfree]
  · by_cases hlimit : strikeLimit k ≤ s.bank.strikes k j
    · simp [hfree, hlimit]
    · cases ok <;> simp [hfree, hlimit, Nat.lt_of_not_le hlimit, eq_comm]

/-- Either refusal logs its entry, with an outcome that is not STRUCK, and does nothing else. -/
theorem State.strike_refused {oc : Nat}
    (h : (s.strike k j claim old new ok row = (.limit i, t) ∧ oc = ocLimit) ∨
      (s.strike k j claim old new ok row = (.value i, t) ∧ oc = ocValue)) :
    t = s.logAppend (s.strikeEntry k j claim old new oc) ∧ oc ≠ ocStruck := by
  obtain ⟨hlimit, rfl⟩ | ⟨hvalue, rfl⟩ := h
  · obtain ⟨-, -, -, ht⟩ := State.strike_limit_iff.mp hlimit
    exact ⟨ht, by decide⟩
  · obtain ⟨-, -, -, -, ht⟩ := State.strike_value_iff.mp hvalue
    exact ⟨ht, by decide⟩

end

/-- Settles O52: a refusal appends its entry to the log and does nothing else to the bank, and an entry that is not STRUCK
counts for no setting. -/
theorem loggedRefusalChangesNoSetting : Obligations.LoggedRefusalChangesNoSetting := by
  intro s t k j old new i claim ok row oc h
  obtain ⟨rfl, hoc⟩ := State.strike_refused h
  have hstruck : (s.strikeEntry k j claim old new oc).outcome ≠ ocStruck := hoc
  rw [State.logAppend_bank]
  exact ⟨⟨s.strikeEntry k j claim old new oc, Bank.append_log _ _, rfl, rfl, rfl, rfl⟩,
    Bank.strikes_append hstruck _, Bank.value_append hstruck _, Bank.ownerKey_append hstruck _,
    Bank.signer_append hstruck _⟩

end Sys2Proof.Machine
end

section
/-! SUPPORT. What a function of the model leaves alone, said once for each: the queue, the Hallmark bank, both memories and
their codes (`Kept`). A function whose callees leave them alone leaves them alone. -/

namespace Sys2Proof.Machine
open Sys2Proof

/-- What a step writes only in its own ways: the queue, the Hallmark bank, both memories, and the codes of their granules. -/
structure Kept where
  pending : List Instr
  bank : Bank
  vault : SMap Byte
  mere : SMap Byte
  vaultEcc : SMap Ecc
  mereEcc : SMap Ecc

/-- What `Kept` holds of a state. -/
def State.kept (s : State) : Kept := ⟨s.pending, s.bank, s.vault, s.mere, s.vaultEcc, s.mereEcc⟩

theorem foldl_kept_of {α β : Type} (π : β → State) {f : β → α → β} (hf : ∀ b a, (π (f b a)).kept = (π b).kept) (l : List α) (b : β) :
    (π (l.foldl f b)).kept = (π b).kept := by
  induction l generalizing b with
  | nil => rfl
  | cons a t ih => exact (ih _).trans (hf b a)

theorem State.foldl_kept {α : Type} {f : State → α → State} (hf : ∀ (t : State) (a : α), (f t a).kept = t.kept) (l : List α) (s : State) :
    (l.foldl f s).kept = s.kept := foldl_kept_of id hf l s

theorem State.ite_kept {c : Prop} [Decidable c] {s t u : State} (ht : t.kept = s.kept) (hu : u.kept = s.kept) :
    (if c then t else u).kept = s.kept := by
  split
  exacts [ht, hu]

/-! ## Functions of Machine/Fields.lean -/

theorem State.wri_kept (s : State) (f : Fld) (inst i v : Nat) : (s.wri f inst i v).kept = s.kept := rfl

theorem State.wr_kept (s : State) (f : Fld) (inst v : Nat) : (s.wr f inst v).kept = s.kept := rfl

theorem State.bump_kept (s : State) (f : Fld) (inst n : Nat) : (s.bump f inst n).kept = s.kept := rfl

theorem State.bumpi_kept (s : State) (f : Fld) (inst i n : Nat) : (s.bumpi f inst i n).kept = s.kept := rfl

theorem State.bumpSat_kept (s : State) (f : Fld) (inst i n : Nat) : (s.bumpSat f inst i n).kept = s.kept := rfl

/-! ## Functions of Machine/Ops.lean -/

theorem State.fresh_kept (s : State) : s.fresh.2.kept = s.kept := rfl

theorem State.emit_kept (s : State) (o : Out) : (s.emit o).kept = s.kept := rfl

theorem State.count_kept (s : State) (k n : Nat) : (s.count k n).kept = s.kept := rfl

theorem State.countP_kept (s : State) (o j n : Nat) : (s.countP o j n).kept = s.kept := by
  unfold State.countP
  grind [State.count_kept]

theorem State.setOwner_kept (s : State) (k : ObjKind) (i o l : Nat) : (s.setOwner k i o l).kept = s.kept := rfl

theorem State.setDirty_kept (s : State) (z : ZeroItem) (b : Bool) : (s.setDirty z b).kept = s.kept := rfl

theorem State.sendMsix_kept (s : State) (o vec : Nat) : (s.sendMsix o vec).kept = s.kept := by
  unfold State.sendMsix
  grind [State.kept, State.emit_kept, State.count_kept, State.countP_kept]

theorem State.hostWrite_kept (s : State) (o addr : Nat) (bs : List Byte) (relaxed : Bool) :
    (s.hostWrite o addr bs relaxed).kept = s.kept := rfl

theorem State.hostRead_kept (s : State) (o addr len : Nat) : (s.hostRead o addr len).kept = s.kept := rfl

theorem State.ringPut_kept (s : State) (r : RingRegs) (rid o inst size : Nat) (mk : Nat → List Byte) :
    (s.ringPut r rid o inst size mk).kept = s.kept := by
  unfold State.ringPut
  grind [State.kept, State.wr_kept, State.bump_kept, State.count_kept, State.countP_kept, State.sendMsix_kept, State.hostWrite_kept]

theorem State.raise_kept (s : State) (o code arg0 arg1 : Nat) (src : Option Nat) :
    (s.raise o code arg0 arg1 src).kept = s.kept := by
  unfold State.raise
  grind [State.ringPut_kept]

theorem State.raiseAll_kept (s : State) (code arg0 arg1 : Nat) : (s.raiseAll code arg0 arg1).kept = s.kept := by
  unfold State.raiseAll
  grind [State.raise_kept, State.foldl_kept]

theorem State.pageErr_kept (s : State) (b : Block) (inst off : Nat) (e : PgErr) :
    (s.pageErr b inst off e).kept = s.kept := by
  unfold State.pageErr
  grind [State.wr_kept, State.raise_kept]

theorem State.illegal_kept (s : State) (b : Block) (inst off : Nat) : (s.illegal b inst off).kept = s.kept := by
  unfold State.illegal
  grind [State.pageErr_kept]

theorem State.mirror_kept (s : State) (c f v : Nat) : (s.mirror c f v).kept = s.kept := by
  unfold State.mirror
  grind [State.wr_kept, State.count_kept, State.hostWrite_kept, State.raise_kept]

theorem State.notifyIrq_kept (s : State) (c : Nat) : (s.notifyIrq c).kept = s.kept := by
  unfold State.notifyIrq
  grind [State.kept, State.sendMsix_kept]

theorem State.notifyAll_kept (s : State) (f : Nat) : (s.notifyAll f).kept = s.kept := by
  unfold State.notifyAll
  grind [State.mirror_kept, State.notifyIrq_kept, State.foldl_kept]

theorem State.countSignal_kept (s : State) (o : Nat) (e : Option Err) : (s.countSignal o e).kept = s.kept := by
  unfold State.countSignal
  grind [State.count_kept, State.countP_kept]

theorem State.signal_kept (s : State) (f : Nat) (e : Option Err) : (s.signal f e).kept = s.kept := by
  unfold State.signal
  grind [State.kept, State.notifyAll_kept, State.countSignal_kept]

theorem State.takeFence_kept (s : State) (o : Nat) (fe : Option Nat) (op : OpSel) :
    (s.takeFence o fe op).2.kept = s.kept := by
  unfold State.takeFence
  grind [State.kept]

theorem State.signalOpt_kept (s : State) (f : Option Nat) (e : Option Err) : (s.signalOpt f e).kept = s.kept := by
  unfold State.signalOpt
  grind [State.signal_kept]

/-! ## Functions of Machine/Runs.lean -/

theorem State.setRun_kept (s : State) (r : Run) : (s.setRun r).kept = s.kept := rfl

theorem State.modRun_kept (s : State) (id : Nat) (f : Run → Run) : (s.modRun id f).kept = s.kept := rfl

theorem State.header0_kept (s : State) (o : Nat) (b : BerthRef) (own len : Nat) :
    (s.header0 o b own len).kept = s.kept := by
  unfold State.header0
  grind [State.hostWrite_kept]

theorem State.returnBerths_kept (s : State) (r : Run) : (s.returnBerths r).kept = s.kept := by
  unfold State.returnBerths
  grind [State.kept, State.fresh_kept, State.header0_kept]

theorem State.berthReturns_kept (s : State) (id : Nat) : (s.berthReturns id).kept = s.kept := by
  unfold State.berthReturns
  grind [State.kept, State.header0_kept]

theorem State.dropTiles_kept (s : State) (id : Nat) : (s.dropTiles id).kept = s.kept := by
  unfold State.dropTiles
  grind [State.kept, State.bump_kept, State.foldl_kept]

theorem State.leaveFaults_kept (s : State) (id : Nat) : (s.leaveFaults id).kept = s.kept := rfl

theorem State.finishCtxReset_kept (s : State) (c : Nat) : (s.finishCtxReset c).kept = s.kept := by
  unfold State.finishCtxReset
  grind [State.wr_kept, State.bump_kept, State.foldl_kept]

theorem State.tdispReply_kept (s : State) (code p : Nat) (data : List Nat) : (s.tdispReply code p data).kept = s.kept := rfl

theorem State.cutPf_kept (s : State) (p : Nat) : (s.cutPf p).kept = s.kept := rfl

theorem State.finishLock_kept (s : State) (p : Nat) : (s.finishLock p).kept = s.kept := by
  unfold State.finishLock
  grind [State.kept, State.wr_kept, State.tdispReply_kept, State.cutPf_kept]

theorem State.leaveLocks_kept (s : State) (id : Nat) : (s.leaveLocks id).kept = s.kept := by
  unfold State.leaveLocks
  grind [State.kept, State.finishLock_kept, State.foldl_kept]

theorem State.idleEngines_kept (s : State) (id : Nat) : (s.idleEngines id).kept = s.kept := rfl

theorem State.finishRun_kept (s : State) (r : Run) (e : Option Err) : (s.finishRun r e).kept = s.kept := by
  unfold State.finishRun
  grind [State.kept, State.signal_kept, State.dropTiles_kept, State.leaveFaults_kept, State.finishCtxReset_kept, State.leaveLocks_kept, State.idleEngines_kept]

theorem State.lastFail_kept (s : State) (r : Run) : (s.lastFail r).kept = s.kept := by
  unfold State.lastFail
  grind [State.wr_kept]

theorem State.keepIdle_kept (s : State) (r : Run) : (s.keepIdle r).kept = s.kept := by
  unfold State.keepIdle
  grind [State.kept]

theorem State.failRun_kept (s : State) (id : Nat) (e : Err) : (s.failRun id e).kept = s.kept := by
  unfold State.failRun
  grind [State.returnBerths_kept, State.finishRun_kept, State.lastFail_kept, State.keepIdle_kept]

theorem State.completeRun_kept (s : State) (id : Nat) : (s.completeRun id).kept = s.kept := by
  unfold State.completeRun
  grind [State.finishRun_kept]

theorem State.failAll_kept (s : State) (q : Run → Bool) (e : Err) : (s.failAll q e).kept = s.kept := by
  unfold State.failAll
  grind [State.failRun_kept, State.foldl_kept]

theorem State.stopAll_kept (s : State) (q : Run → Bool) (e : Err) : (s.stopAll q e).kept = s.kept := rfl

theorem State.dropHolds_kept (s : State) (o : Nat) : (s.dropHolds o).kept = s.kept := rfl

/-! ## Functions of Machine/Health.lean -/

theorem State.setAsy_kept (s : State) (fe fd : Fld) (l v : Nat) : (s.setAsy fe fd l v).kept = s.kept := by
  unfold State.setAsy
  grind [State.wri_kept]

theorem State.setHealth_kept (s : State) (l v : Nat) : (s.setHealth l v).kept = s.kept := by
  unfold State.setHealth
  grind [State.setAsy_kept]

theorem State.setQueued_kept (s : State) (l v : Nat) : (s.setQueued l v).kept = s.kept := by
  unfold State.setQueued
  grind [State.setAsy_kept]

theorem State.setMarks_kept (s : State) (l v : Nat) : (s.setMarks l v).kept = s.kept := by
  unfold State.setMarks
  grind [State.setAsy_kept]

theorem State.setLastTick_kept (s : State) (l : Nat) : (s.setLastTick l).kept = s.kept := by
  unfold State.setLastTick
  grind [State.setAsy_kept]

theorem State.platformEvent_kept (s : State) (sensor old new : Nat) : (s.platformEvent sensor old new).kept = s.kept := by
  unfold State.platformEvent
  grind [State.emit_kept]

theorem State.sensorEvent_kept (s : State) (sensor old new : Nat) : (s.sensorEvent sensor old new).kept = s.kept := by
  unfold State.sensorEvent
  grind [State.platformEvent_kept]

theorem State.setFault_kept (s : State) (f : Fld) (v : Nat) : (s.setFault f v).kept = s.kept := by
  unfold State.setFault
  grind [State.wr_kept, State.raise_kept, State.sensorEvent_kept]

theorem State.cper_kept (s : State) (severity : Nat) (body : List Byte) : (s.cper severity body).kept = s.kept := by
  unfold State.cper
  grind [State.kept, State.ringPut_kept]

theorem State.setCause_kept (s : State) (c : Cause) : (s.setCause c).kept = s.kept := by
  unfold State.setCause
  grind [State.wr_kept, State.raise_kept, State.platformEvent_kept, State.cper_kept]

theorem State.asyEnded_kept (s : State) (l : Nat) (e : Option Err) : (s.asyEnded l e).kept = s.kept := by
  unfold State.asyEnded
  grind [State.kept, State.signal_kept, State.foldl_kept]

theorem State.dropAssay_kept (s : State) (l : Nat) : (s.dropAssay l).kept = s.kept := by
  unfold State.dropAssay
  grind [State.kept, State.asyEnded_kept]

theorem State.bench_kept (s : State) (l : Nat) : (s.bench l).kept = s.kept := by
  unfold State.bench
  grind [State.kept, State.raise_kept, State.failAll_kept, State.setHealth_kept, State.setQueued_kept, State.setCause_kept, State.dropAssay_kept, State.foldl_kept]

theorem State.mark_kept (s : State) (l : Nat) (m : MarkInfo) : (s.mark l m).kept = s.kept := by
  unfold State.mark
  grind [State.kept, State.setHealth_kept, State.setQueued_kept, State.setMarks_kept, State.setLastTick_kept, State.cper_kept, State.bench_kept]

/-! ## Functions of Machine/Memory.lean -/

theorem State.retireVault_kept (s : State) (v : Nat) : (s.retireVault v).kept = s.kept := by
  unfold State.retireVault
  grind [State.kept, State.wri_kept, State.raise_kept, State.setCause_kept, State.foldl_kept]

theorem State.testRetire_kept (s : State) (v : Nat) : (s.testRetire v).kept = s.kept := by
  unfold State.testRetire
  grind [State.retireVault_kept]

theorem State.plog_kept (s : State) (v a kind : Nat) (w : Who) : (s.plog v a kind w).kept = s.kept := by
  unfold State.plog
  grind [State.wri_kept, State.wr_kept, State.bump_kept, State.countP_kept]

theorem State.candRow_kept (s : State) (v l : Nat) : (s.candRow v l).kept = s.kept := by
  unfold State.candRow
  grind [State.kept, State.wri_kept, State.bump_kept]

theorem State.weakRow_kept (s : State) (v l : Nat) : (s.weakRow v l).kept = s.kept := by
  unfold State.weakRow
  grind [State.kept, State.candRow_kept]

theorem State.testWeak_kept (s : State) (t : Nat) : (s.testWeak t).kept = s.kept := by
  unfold State.testWeak
  grind [State.candRow_kept, State.foldl_kept]

theorem State.queueWb_kept (s : State) (v g : Nat) : (s.queueWb v g).kept = s.kept := by
  unfold State.queueWb
  grind [State.kept, State.bumpi_kept]

theorem State.countCe_kept (s : State) (v l : Nat) (w : Who) : (s.countCe v l w).kept = s.kept := by
  unfold State.countCe
  grind [State.bumpSat_kept, State.count_kept, State.countP_kept, State.weakRow_kept]

theorem State.countUe_kept (s : State) (v : Nat) : (s.countUe v).kept = s.kept := by
  unfold State.countUe
  grind [State.bumpSat_kept, State.count_kept, State.testRetire_kept]

theorem State.cancelWb_kept (s : State) (v g : Nat) : (s.cancelWb v g).kept = s.kept := rfl

theorem State.mirrorSpare_kept (s : State) (v l : Nat) (bs : List Byte) : (s.mirrorSpare v l bs).kept = s.kept := by
  unfold State.mirrorSpare
  grind [State.kept]

theorem State.readMere_kept (s : State) (o n : Nat) : (s.readMere o n).2.kept = s.kept := by
  unfold State.readMere
  grind []

/-! ## Functions of Machine/LongOps.lean -/

theorem State.setOp_kept (s : State) (o : LongOp) : (s.setOp o).kept = s.kept := rfl

theorem State.addOp_kept (s : State) (o : LongOp) : (s.addOp o).kept = s.kept := rfl

theorem State.dropOp_kept (s : State) (sel : OpSel) : (s.dropOp sel).kept = s.kept := rfl

theorem State.signalAll_kept (s : State) (fs : List Nat) (e : Option Err) : (s.signalAll fs e).kept = s.kept := by
  unfold State.signalAll
  grind [State.signal_kept, State.foldl_kept]

theorem State.endOp_kept (s : State) (o : LongOp) (e : Option Err) : (s.endOp o e).kept = s.kept := by
  unfold State.endOp
  grind [State.dropOp_kept, State.signalAll_kept]

theorem State.startOp_kept (s : State) (k : OpKind) (i owner : Nat) (fe : Option Nat) (total : Nat) (t : Task) :
    (s.startOp k i owner fe total t).kept = s.kept := by
  unfold State.startOp
  grind [State.takeFence_kept, State.addOp_kept]

theorem State.doneFence_kept (s : State) (owner : Nat) (fe : Option Nat) (op : OpSel) (e : Option Err) :
    (s.doneFence owner fe op e).kept = s.kept := by
  unfold State.doneFence
  grind [State.takeFence_kept, State.signalOpt_kept]

theorem State.resumeOp_kept (s : State) (k : OpKind) (i owner : Nat) (fe : Option Nat) (b : Block) (inst off : Nat) :
    (s.resumeOp k i owner fe b inst off).kept = s.kept := by
  unfold State.resumeOp
  grind [State.illegal_kept, State.takeFence_kept, State.setOp_kept]

theorem State.abortOp_kept {s : State} (k : OpKind) (i owner : Nat) (fe : Option Nat) (b : Block) (inst off : Nat)
    {post : State → LongOp → State} (hp : ∀ o, (post s o).kept = s.kept) : (s.abortOp k i owner fe b inst off post).kept = s.kept := by
  unfold State.abortOp; split
  · exact s.illegal_kept _ _ _
  · exact ((State.doneFence_kept _ _ _ _ _).trans (State.endOp_kept _ _ _)).trans (hp _)

theorem State.haltOps_kept (s : State) : s.haltOps.kept = s.kept := rfl

theorem State.freeErr_kept (s : State) : s.freeErr.2.kept = s.kept := rfl

theorem State.endFree_kept (s : State) (o : LongOp) : (s.endFree o).kept = s.kept := by
  unfold State.endFree
  grind [State.endOp_kept, State.freeErr_kept]

/-! ## Functions of Machine/Walk.lean -/

theorem State.countWalk_kept (s : State) (pt : HostTable) (c page : Nat) : (s.countWalk pt c page).kept = s.kept := by
  unfold State.countWalk
  grind [State.count_kept, State.countP_kept, State.hostRead_kept, State.foldl_kept]

theorem State.setMob_kept (s : State) (m : Mob) : (s.setMob m).kept = s.kept := rfl

theorem regWalk_kept (pt : HostTable) (pool n : Nat) (w : WalkOut) : (regWalk pt pool n w).st.kept = w.st.kept := by
  induction n generalizing w with
  | zero => rfl
  | succ n ih => unfold regWalk; grind [State.countWalk_kept]

theorem State.flush_kept (s : State) (c p n : Nat) : (s.flush c p n).kept = s.kept := rfl

theorem State.rewalkParts_kept (pt : HostTable) (n : Nat) (s : State) (todo : List (Nat × Nat × Nat)) (k : Nat) :
    (State.rewalkParts pt n s todo k).1.kept = s.kept := by
  induction n generalizing s todo k with
  | zero => rfl
  | succ n ih => unfold State.rewalkParts; grind [State.setMob_kept, State.countWalk_kept]

theorem State.liftHold_kept (s : State) (c p n : Nat) : (s.liftHold c p n).kept = s.kept := rfl

theorem State.breakHoles_kept (s : State) (todo : List (Nat × Nat × Nat)) : (s.breakHoles todo).kept = s.kept := rfl

theorem State.dropInval_kept (s : State) (o : LongOp) : (s.dropInval o).kept = s.kept := by
  unfold State.dropInval
  grind [State.liftHold_kept, State.breakHoles_kept]

theorem State.faultRecord_kept (s : State) (r : Run) (kind id va : Nat) (write rep : Bool) :
    (s.faultRecord r kind id va write rep).kept = s.kept := by
  unfold State.faultRecord
  grind [State.ringPut_kept]

theorem State.raiseFault_kept (s : State) (r : Run) (kind va : Nat) (write : Bool) :
    (s.raiseFault r kind va write).2.kept = s.kept := by
  unfold State.raiseFault
  grind [State.kept, State.count_kept, State.countP_kept, State.faultRecord_kept]

/-! ## Functions of Machine/Weir.lean -/

theorem State.borrow_kept (s : State) (o v lender n : Nat) : (s.borrow o v lender n).kept = s.kept := by
  unfold State.borrow
  grind [State.kept, State.wri_kept, State.count_kept, State.countP_kept]

theorem State.weir_kept (s : State) (o v n : Nat) : (s.weir o v n).kept = s.kept := by
  unfold State.weir
  grind [State.borrow_kept]

theorem State.weirFor_kept (s : State) (w : Who) (a n : Nat) : (s.weirFor w a n).kept = s.kept := by
  unfold State.weirFor
  grind [State.weir_kept]

/-! ## Functions of Machine/Access.lean -/

theorem State.countUnit_kept (s : State) (w : Who) (a j : Nat) : (s.countUnit w a j).kept = s.kept := by
  unfold State.countUnit
  grind [State.count_kept, State.countP_kept]

theorem State.xlFail_kept (s : State) (w : Who) (k va : Nat) (write : Bool) : (s.xlFail w k va write).kept = s.kept := by
  unfold State.xlFail
  grind [State.faultRecord_kept]

theorem State.readMereN_kept (n : Nat) (s : State) (o m : Nat) (acc : List Byte) : (State.readMereN n s o m acc).2.kept = s.kept := by
  induction n generalizing s o m acc with
  | zero => rfl
  | succ n ih => unfold State.readMereN; grind [State.readMere_state]

/-! ## Functions of Machine/Doorbell.lean -/

theorem State.c8step_kept (r : Run) (g : Rng) (st : State × List Err) (page : Nat) :
    (State.c8step r g st page).1.kept = st.1.kept := by
  unfold State.c8step; grind [State.faultRecord_kept, State.raiseFault_kept]

theorem State.check8_kept (s : State) (r : Run) (p : Plan) (l : Lode) : (s.check8 r p l).1.kept = s.kept := by
  unfold State.check8
  exact foldl_kept_of Prod.fst (fun st g => foldl_kept_of Prod.fst (State.c8step_kept r g) _ st) _ (s, [])

theorem State.holdBerths_kept (s : State) (r : Run) : (s.holdBerths r).kept = s.kept := by
  unfold State.holdBerths
  grind [State.setRun_kept, State.header0_kept]

theorem State.dropBlock_kept (s : State) (q reason fence tag : Nat) : (s.dropBlock q reason fence tag).kept = s.kept := by
  unfold State.dropBlock
  grind [State.bump_kept, State.count_kept, State.countP_kept, State.raise_kept]

theorem State.acceptRun_kept (s : State) (r : Run) : (s.acceptRun r).kept = s.kept := by
  unfold State.acceptRun
  grind [State.kept, State.setRun_kept, State.failRun_kept, State.check8_kept, State.holdBerths_kept]

theorem State.runBlock_kept (s : State) (q : Nat) (data : List Byte) : (s.runBlock q data).kept = s.kept := by
  unfold State.runBlock
  grind [State.kept, State.count_kept, State.countP_kept, State.dropBlock_kept, State.acceptRun_kept]

theorem State.doorbell_kept (s : State) (fn : Fn) (page off : Nat) (data : List Byte) :
    (s.doorbell fn page off data).kept = s.kept := by
  unfold State.doorbell
  grind [State.dropBlock_kept, State.runBlock_kept]

theorem State.deferredCheck_kept (s : State) (id : Nat) : (s.deferredCheck id).kept = s.kept := by
  unfold State.deferredCheck
  split
  · rfl
  split
  · rfl
  split
  · exact s.failRun_kept _ _
  split
  · exact s.failRun_kept _ _
  split
  · rfl
  split <;> grind [State.failRun_kept, State.check8_kept, State.holdBerths_kept]

theorem State.stagingStart_kept (s : State) (o : Nat) : (s.stagingStart o).kept = s.kept := by
  unfold State.stagingStart
  grind [State.hostRead_kept, State.setRun_kept, State.failRun_kept]

theorem State.stagingDone_kept (s : State) (id : Nat) (data : List Byte) : (s.stagingDone id data).kept = s.kept := by
  unfold State.stagingDone
  grind [State.count_kept, State.countP_kept, State.setRun_kept, State.header0_kept, State.berthReturns_kept]

theorem State.stagingFail_kept (s : State) (id : Nat) (how : Cpl) : (s.stagingFail id how).kept = s.kept := by
  unfold State.stagingFail
  grind [State.emit_kept, State.modRun_kept, State.berthReturns_kept, State.failRun_kept]

/-! ## Functions of Machine/Hasps.lean -/

theorem State.setHasp_kept (s : State) (n st ident : Nat) : (s.setHasp n st ident).kept = s.kept := rfl

theorem State.haspReturn_kept (s : State) (who : Agent) (ident status : Nat) :
    (s.haspReturn who ident status).kept = s.kept := by
  unfold State.haspReturn
  grind [State.emit_kept]

theorem State.haspAcquire_kept (s : State) (who : Agent) (n : Nat) : (s.haspAcquire who n).kept = s.kept := by
  unfold State.haspAcquire
  grind [State.emit_kept, State.raise_kept, State.setHasp_kept, State.haspReturn_kept]

theorem State.haspRelease_kept (s : State) (who : Agent) (n : Nat) : (s.haspRelease who n).kept = s.kept := by
  unfold State.haspRelease
  grind [State.setHasp_kept]

theorem State.breakHasps_kept (s : State) (q : Nat → Bool) : (s.breakHasps q).kept = s.kept := by
  unfold State.breakHasps
  grind [State.wri_kept, State.foldl_kept]

/-! ## Functions of Machine/Polders.lean -/

theorem State.pfDo_kept {s t : State} (fn : Fn) (h : t.kept = s.kept) : (s.pfDo fn t).kept = s.kept := by
  unfold State.pfDo; split
  exacts [h, rfl]

theorem State.ownDo_kept {s t : State} (fn : Fn) (h : t.kept = s.kept) : (s.ownDo fn t).kept = s.kept := by
  unfold State.ownDo; split
  exacts [h, rfl]

theorem State.ctxDo_kept {s t : State} (fn : Fn) (c : Nat) (h : t.kept = s.kept) : (s.ctxDo fn c t).kept = s.kept := by
  unfold State.ctxDo; split
  exacts [h, rfl]

theorem State.clearRegs_kept (s : State) (b : Block) (inst : Nat) (q : Nat → Bool) :
    (s.clearRegs b inst q).kept = s.kept := rfl

theorem State.clearContext_kept (s : State) (c : Nat) : (s.clearContext c).kept = s.kept := rfl

theorem State.clearBlock_kept (s : State) (b : Nat) : (s.clearBlock b).kept = s.kept := rfl

theorem State.clearMobBlock_kept (s : State) (b : Nat) : (s.clearMobBlock b).kept = s.kept := rfl

theorem State.clearObject_kept (s : State) (k : ObjKind) (i : Nat) : (s.clearObject k i).kept = s.kept := by
  unfold State.clearObject
  grind [State.clearRegs_kept, State.clearContext_kept, State.clearBlock_kept, State.clearMobBlock_kept]

theorem State.clearOwner_kept (s : State) (p : Nat) : (s.clearOwner p).kept = s.kept := rfl

theorem State.addZero_kept (s : State) (z : ZeroItem) (p : Nat) : (s.addZero z p).kept = s.kept := by
  unfold State.addZero
  grind [State.kept]

theorem State.beginZero_kept (s : State) (p : Nat) : (s.beginZero p).kept = s.kept := by
  unfold State.beginZero
  grind [State.wr_kept, State.addZero_kept, State.foldl_kept]

theorem State.cleaned_kept (s : State) (z : ZeroItem) : (s.cleaned z).kept = s.kept := by
  unfold State.cleaned
  grind [State.setOwner_kept, State.setDirty_kept]

theorem State.pldStatus_kept (s : State) (p v : Nat) : (s.pldStatus p v).kept = s.kept := rfl

theorem State.setAux_kept (s : State) (p : Nat) (a : PolderAux) : (s.setAux p a).kept = s.kept := rfl

theorem State.resetEpochs_kept (s : State) (o : Nat) : (s.resetEpochs o).kept = s.kept := rfl

theorem State.pldCreate_kept (s : State) (p : Nat) (fe : Option Nat) : (s.pldCreate p fe).kept = s.kept := by
  unfold State.pldCreate
  grind [State.kept, State.wr_kept, State.bump_kept, State.doneFence_kept, State.clearRegs_kept, State.clearOwner_kept, State.pldStatus_kept, State.setAux_kept, State.resetEpochs_kept, State.foldl_kept]

theorem State.pldActivate_kept (s : State) (p : Nat) (fe : Option Nat) : (s.pldActivate p fe).kept = s.kept := by
  unfold State.pldActivate
  grind [State.wr_kept, State.doneFence_kept, State.pldStatus_kept, State.setAux_kept]

theorem State.returnObjects_kept (s : State) (p : Nat) : (s.returnObjects p).kept = s.kept := by
  unfold State.returnObjects
  grind [State.setOwner_kept, State.clearObject_kept, State.foldl_kept]

theorem State.zeroOp_kept (s : State) (p : Nat) (fe : Option Nat) : (s.zeroOp p fe).kept = s.kept := by
  unfold State.zeroOp
  grind [State.dropOp_kept, State.startOp_kept]

theorem State.endPolderOps_kept (s : State) (p : Nat) : (s.endPolderOps p).kept = s.kept := by
  unfold State.endPolderOps
  grind [State.endOp_kept, State.foldl_kept]

theorem State.revokeGrants_kept (s : State) (p : Nat) : (s.revokeGrants p).kept = s.kept := rfl

theorem State.dropLines_kept (s : State) (p : Nat) : (s.dropLines p).kept = s.kept := rfl

theorem State.enterZeroing_kept (s : State) (p : Nat) : (s.enterZeroing p).kept = s.kept := by
  unfold State.enterZeroing
  grind [State.wr_kept, State.clearOwner_kept, State.beginZero_kept, State.returnObjects_kept]

theorem State.pldDestroy_kept (s : State) (p : Nat) (fe : Option Nat) : (s.pldDestroy p fe).kept = s.kept := by
  unfold State.pldDestroy
  grind [State.wr_kept, State.failAll_kept, State.stopAll_kept, State.breakHasps_kept, State.pldStatus_kept, State.zeroOp_kept, State.endPolderOps_kept, State.revokeGrants_kept, State.enterZeroing_kept]

theorem State.pldZero_kept (s : State) (p : Nat) (fe : Option Nat) : (s.pldZero p fe).kept = s.kept := by
  unfold State.pldZero
  grind [State.illegal_kept, State.takeFence_kept, State.setOp_kept, State.pldStatus_kept]

theorem State.pldAbort_kept (s : State) (p : Nat) (fe : Option Nat) : (s.pldAbort p fe).kept = s.kept := by
  unfold State.pldAbort
  grind [State.signalOpt_kept, State.setOp_kept, State.doneFence_kept, State.pldStatus_kept]

theorem State.drainComplete_kept (s : State) (p : Nat) : (s.drainComplete p).kept = s.kept := by
  unfold State.drainComplete
  grind [State.enterZeroing_kept]

theorem State.clearingDone_kept (s : State) (p : Nat) : (s.clearingDone p).kept = s.kept := by
  unfold State.clearingDone
  grind [State.wr_kept, State.beginZero_kept, State.zeroOp_kept]

theorem State.orderDone_kept (s : State) (p : Nat) : (s.orderDone p).kept = s.kept := rfl

theorem State.zeroingComplete_kept (s : State) (p : Nat) : (s.zeroingComplete p).kept = s.kept := by
  unfold State.zeroingComplete
  grind [State.wr_kept, State.setOwner_kept, State.endOp_kept, State.clearRegs_kept, State.addZero_kept, State.resetEpochs_kept, State.orderDone_kept, State.foldl_kept]

theorem State.clearObjects_kept (s : State) (p : Nat) : (s.clearObjects p).kept = s.kept := by
  unfold State.clearObjects
  grind [State.clearRegs_kept, State.clearContext_kept, State.clearMobBlock_kept, State.foldl_kept]

theorem State.functionReset_kept (s : State) (p : Nat) (order : Bool) : (s.functionReset p order).kept = s.kept := by
  unfold State.functionReset
  grind [State.wr_kept, State.bump_kept, State.failAll_kept, State.dropHolds_kept, State.breakHasps_kept, State.clearOwner_kept, State.setAux_kept, State.endPolderOps_kept, State.revokeGrants_kept, State.dropLines_kept, State.clearObjects_kept]

theorem State.zeroOrder_kept (s : State) (p : Nat) : (s.zeroOrder p).kept = s.kept := by
  unfold State.zeroOrder
  grind [State.wr_kept, State.functionReset_kept]

theorem State.assignOne_kept (s : State) (p : Nat) (k : ObjKind) (ctx i : Nat) :
    (s.assignOne p k ctx i).2.kept = s.kept := by
  unfold State.assignOne
  repeat' split
  all_goals first | rfl | exact (State.setOwner_kept _ _ _ _ _).trans (s.addZero_kept _ _) | skip
  all_goals grind [State.clearObject_kept, State.setOwner_kept, State.wr_kept]

theorem State.releaseOne_kept (s : State) (p : Nat) (k : ObjKind) (i : Nat) : (s.releaseOne p k i).2.kept = s.kept := by
  unfold State.releaseOne
  grind [State.setOwner_kept, State.failAll_kept, State.clearObject_kept, State.addZero_kept]

theorem objLoop_kept {f : State → Nat → Nat × State} (hf : ∀ (t : State) (i : Nat), (f t i).2.kept = t.kept) (n : Nat) (s : State) (i done : Nat) :
    (objLoop f n s i done).2.2.kept = s.kept := by
  induction n generalizing s i done with
  | zero => rfl
  | succ n ih => unfold objLoop; grind

theorem State.assignCmd_kept (s : State) (p count first : Nat) {f : State → Nat → Nat × State}
    (hf : ∀ (t : State) (i : Nat), (f t i).2.kept = t.kept) : (s.assignCmd p count first f).kept = s.kept := by
  have h := objLoop_kept hf
  unfold State.assignCmd
  grind [State.illegal_kept, State.wr_kept]

/-! ## Functions of Machine/HostObjects.lean -/

theorem State.rearm_kept (s : State) (fn : Fn) (block word data : Nat) : (s.rearm fn block word data).kept = s.kept := by
  unfold State.rearm
  grind [State.kept, State.bump_kept]

theorem State.ctxReset_kept (s : State) (c : Nat) : (s.ctxReset c).kept = s.kept := by
  unfold State.ctxReset
  grind [State.kept, State.wr_kept, State.finishCtxReset_kept, State.failAll_kept, State.stopAll_kept, State.endOp_kept, State.foldl_kept]

theorem State.blockReset_kept (s : State) (block : Nat) (fe : Option Nat) : (s.blockReset block fe).kept = s.kept := by
  unfold State.blockReset
  grind [State.wr_kept, State.illegal_kept, State.startOp_kept]

theorem State.fenceSweep_kept (block n : Nat) (s : State) (i : Nat) : (State.fenceSweep block n s i).kept = s.kept := by
  induction n generalizing s i with
  | zero => rfl
  | succ n ih => unfold State.fenceSweep; grind [State.bump_kept, State.kept]

theorem State.coalesce_kept (s : State) (c : Nat) : (s.coalesce c).kept = s.kept := by
  unfold State.coalesce
  grind [State.kept, State.sendMsix_kept]

theorem State.msixWrite_kept (s : State) (o d v : Nat) : (s.msixWrite o d v).kept = s.kept := by
  unfold State.msixWrite
  grind [State.kept, State.sendMsix_kept]

theorem State.bar4_kept (s : State) (o : Nat) (write : Bool) (off : Nat) (data : List Byte) :
    (s.bar4 o write off data).kept = s.kept := by
  unfold State.bar4
  grind [State.emit_kept, State.msixWrite_kept]

/-! ## Functions of Machine/Translation.lean -/

theorem State.mobStatus_kept (s : State) (o v walked : Nat) : (s.mobStatus o v walked).kept = s.kept := rfl

theorem State.mobWrite_kept (s : State) (o slot : Nat) (fe : Option Nat) : (s.mobWrite o slot fe).kept = s.kept := by
  unfold State.mobWrite
  grind [State.illegal_kept, State.startOp_kept, State.doneFence_kept, State.mobStatus_kept]

theorem State.mobWriteStep_kept (s : State) (op : LongOp) (m : Mob) (next n : Nat) (pt : HostTable) :
    (s.mobWriteStep op m next n pt).kept = s.kept := by
  unfold State.mobWriteStep
  grind [regWalk_kept, State.wr_kept, State.endOp_kept, State.setOp_kept, State.kept]

theorem State.deferRuns_kept (s : State) (c page pages : Nat) : (s.deferRuns c page pages).kept = s.kept := rfl

theorem State.takeHold_kept (s : State) (c page pages : Nat) : (s.takeHold c page pages).kept = s.kept := rfl

theorem State.mobClear_kept (s : State) (o slot : Nat) (fe : Option Nat) : (s.mobClear o slot fe).kept = s.kept := by
  unfold State.mobClear
  grind [State.illegal_kept, State.startOp_kept, State.doneFence_kept, State.mobStatus_kept, State.takeHold_kept]

theorem State.mobResume_kept (s : State) (o : Nat) (fe : Option Nat) : (s.mobResume o fe).kept = s.kept := by
  unfold State.mobResume
  grind [State.wr_kept, State.resumeOp_kept]

theorem State.mobAbort_kept (s : State) (o : Nat) (fe : Option Nat) : (s.mobAbort o fe).kept = s.kept := by
  unfold State.mobAbort; split
  · exact State.abortOp_kept _ _ _ _ _ _ _ fun o => (State.wr_kept _ _ _ _).trans (s.dropInval_kept o)
  · rfl

theorem State.dropFault_kept (s : State) (f : PFault) : (s.dropFault f).kept = s.kept := rfl

theorem State.fillFault_kept (s : State) (f : PFault) : (s.fillFault f).kept = s.kept := rfl

theorem State.failPinned_kept (s : State) (id kind va : Nat) (write : Bool) :
    (s.failPinned id kind va write).kept = s.kept := by
  unfold State.failPinned
  grind [State.failRun_kept, State.faultRecord_kept]

theorem State.failWaiters_kept (s : State) (f : PFault) (kind : Nat) : (s.failWaiters f kind).kept = s.kept := by
  unfold State.failWaiters
  grind [State.dropFault_kept, State.failPinned_kept, State.foldl_kept]

theorem State.repeatRecord_kept (s : State) (f : PFault) : (s.repeatRecord f).kept = s.kept := by
  unfold State.repeatRecord
  grind [State.faultRecord_kept]

theorem State.settleFault_kept (s : State) (f : PFault) : (s.settleFault f).kept = s.kept := by
  unfold State.settleFault
  grind [State.fillFault_kept, State.failWaiters_kept, State.repeatRecord_kept]

theorem State.walkFault_kept (s : State) (pt : HostTable) (f : PFault) : (s.walkFault pt f).kept = s.kept := by
  unfold State.walkFault
  grind [State.countWalk_kept, State.setMob_kept]

theorem State.retryFault_kept (s : State) (pt : HostTable) (f : PFault) : (s.retryFault pt f).kept = s.kept := by
  unfold State.retryFault
  grind [State.kept, State.countWalk_kept, State.repeatRecord_kept, State.settleFault_kept, State.walkFault_kept]

theorem State.fltRetry_kept (s : State) (c id : Nat) (pt : HostTable) : (s.fltRetry c id pt).kept = s.kept := by
  unfold State.fltRetry
  grind [State.bump_kept, State.retryFault_kept]

theorem State.fltFail_kept (s : State) (c id : Nat) : (s.fltFail c id).kept = s.kept := by
  unfold State.fltFail
  grind [State.bump_kept, State.failRun_kept, State.dropFault_kept, State.foldl_kept]

theorem State.faultFill_kept (s : State) (c id : Nat) (pt : HostTable) : (s.faultFill c id pt).kept = s.kept := by
  unfold State.faultFill
  grind [State.settleFault_kept, State.walkFault_kept]

theorem State.mobClearStep_kept (s : State) (op : LongOp) (slot c page pages : Nat) (ph : InvPhase) (todo : List (Nat × Nat × Nat)) (n : Nat) (pt : HostTable) :
    (s.mobClearStep op slot c page pages ph todo n pt).kept = s.kept := by
  unfold State.mobClearStep
  grind [State.kept, State.setOp_kept, State.endOp_kept, State.flush_kept, State.rewalkParts_kept, State.liftHold_kept, State.settleFault_kept, State.foldl_kept]

theorem State.invalidate_kept (s : State) (o c pages : Nat) (fe : Option Nat) :
    (s.invalidate o c pages fe).kept = s.kept := by
  unfold State.invalidate
  grind [State.wr_kept, State.illegal_kept, State.startOp_kept, State.takeHold_kept]

theorem State.invDrainEnd_kept (s : State) (c : Nat) : (s.invDrainEnd c).kept = s.kept := by
  unfold State.invDrainEnd
  grind [State.setOp_kept, State.flush_kept]

theorem State.invStep_kept (s : State) (op : LongOp) (ph : InvPhase) (page pages : Nat) (todo : List (Nat × Nat × Nat)) (n : Nat) (pt : HostTable) :
    (s.invStep op ph page pages todo n pt).kept = s.kept := by
  unfold State.invStep
  grind [State.bump_kept, State.count_kept, State.countP_kept, State.setOp_kept, State.endOp_kept, State.rewalkParts_kept, State.liftHold_kept, State.settleFault_kept, State.foldl_kept]

/-! ## Functions of Machine/Plans.lean -/

theorem State.armPlan_kept (s : State) (o : Nat) : (s.armPlan o).kept = s.kept := by
  unfold State.armPlan
  grind [State.kept]

theorem State.stagePlan_kept (s : State) (o : Nat) (p : Plan) : (s.stagePlan o p).kept = s.kept := by
  unfold State.stagePlan
  grind [State.kept, State.armPlan_kept]

theorem State.plnStatus_kept (s : State) (o v idx : Nat) : (s.plnStatus o v idx).kept = s.kept := rfl

theorem State.plnStart_kept (s : State) (o : Nat) (fe : Option Nat) (total : Nat) (t : Task) :
    (s.plnStart o fe total t).kept = s.kept := by
  unfold State.plnStart
  grind [State.wr_kept, State.startOp_kept, State.plnStatus_kept]

theorem State.plnLoad_kept (s : State) (o : Nat) (fe : Option Nat) (image : List Byte) (cpl : Cpl) :
    (s.plnLoad o fe image cpl).kept = s.kept := by
  unfold State.plnLoad
  grind [State.wr_kept, State.hostRead_kept, State.plnStart_kept]

theorem State.freeStatus_kept (s : State) : s.freeStatus.2.kept = s.kept := rfl

theorem State.planUnloadStep_kept (s : State) (op : LongOp) : (s.planUnloadStep op).kept = s.kept := by
  unfold State.planUnloadStep
  grind [State.endOp_kept, State.stagePlan_kept, State.plnStatus_kept]

theorem State.rvStatus_kept (s : State) (v lane polder : Nat) : (s.rvStatus v lane polder).kept = s.kept := rfl

theorem State.rvLoad_kept (s : State) (fe : Option Nat) (image : List Byte) (cpl : Cpl) :
    (s.rvLoad fe image cpl).kept = s.kept := by
  unfold State.rvLoad
  grind [State.wr_kept, State.hostRead_kept, State.startOp_kept, State.rvStatus_kept]

theorem State.frameLoadEnd_kept (s : State) (op : LongOp) (image : List Byte) (cpl : Cpl) :
    (s.frameLoadEnd op image cpl).kept = s.kept := by
  unfold State.frameLoadEnd
  grind [State.kept, State.endOp_kept, State.endFree_kept, State.freeStatus_kept, State.rvStatus_kept]

theorem State.frameLoadStep_kept (s : State) (op : LongOp) (image : List Byte) (cpl : Cpl) (n : Nat) :
    (s.frameLoadStep op image cpl n).kept = s.kept := by
  unfold State.frameLoadStep
  grind [State.wr_kept, State.setOp_kept, State.frameLoadEnd_kept]

theorem State.armStaged_kept (s : State) (b : Nat) : (s.armStaged b).kept = s.kept := rfl

theorem State.rvCommit_kept (s : State) (drop : Bool) (fe : Option Nat) : (s.rvCommit drop fe).kept = s.kept := by
  unfold State.rvCommit
  grind [State.kept, State.illegal_kept, State.takeFence_kept, State.signalOpt_kept, State.rvStatus_kept, State.armStaged_kept]

theorem State.releasePlan_kept (s : State) (o : Nat) : (s.releasePlan o).kept = s.kept := by
  unfold State.releasePlan
  grind [State.kept, State.armPlan_kept, State.plnStatus_kept]

theorem State.rvDiscard_kept (s : State) (fe : Option Nat) : (s.rvDiscard fe).kept = s.kept := by
  unfold State.rvDiscard
  grind [State.kept, State.illegal_kept, State.doneFence_kept, State.rvStatus_kept, State.releasePlan_kept, State.foldl_kept]

/-! ## Functions of Machine/Steps.lean -/

theorem State.unlessDenied_kept {s t : State} (h : t.kept = s.kept) : (s.unlessDenied t).kept = s.kept := by
  unfold State.unlessDenied; split
  exacts [rfl, h]

theorem State.onStep_kept {s : State} (id i : Nat) (e : Eng) {k : Act → State} (hk : ∀ a, (k a).kept = s.kept) :
    (s.onStep id i e k).kept = s.kept := by
  unfold State.onStep
  grind [State.unlessDenied_kept]

theorem State.late_kept (s : State) (id i : Nat) (e : Err) : (s.late id i e).kept = s.kept := rfl

theorem State.dropPaths_kept (s : State) (r : Run) (x : PStep) : (s.dropPaths r x).kept = s.kept := by
  unfold State.dropPaths
  grind [State.modRun_kept]

theorem State.workDone_kept (s : State) (a : Act) : (s.workDone a).kept = s.kept := rfl

theorem State.setData_kept (s : State) (id : Nat) (d : StepData) : (s.setData id d).kept = s.kept := rfl

theorem State.allowanceExpiry_kept (s : State) (id : Nat) : (s.allowanceExpiry id).kept = s.kept := by
  unfold State.allowanceExpiry
  grind [State.failRun_kept]

theorem State.flawed_kept {s : State} (a : Act) (f : Flaw) {k : State → State} (hk : ∀ t, t.kept = s.kept → (k t).kept = s.kept) :
    (s.flawed a f k).kept = s.kept := by
  unfold State.flawed
  grind [State.count_kept, State.mark_kept, State.failRun_kept]

theorem State.flawedLate_kept {s : State} (a : Act) (f : Flaw) {k : State → State} (hk : ∀ t, t.kept = s.kept → (k t).kept = s.kept) :
    (s.flawedLate a f k).kept = s.kept := by
  unfold State.flawedLate; split
  · exact (State.mark_kept _ _ _).trans (s.late_kept _ _ _)
  · exact State.flawed_kept a f hk

/-! ## Functions of Machine/Movers.lean -/

theorem State.stall_kept (s : State) (a : Act) (kind va : Nat) (write : Bool) :
    (s.stall a kind va write).kept = s.kept := by
  unfold State.stall
  grind [State.modRun_kept, State.failRun_kept, State.raiseFault_kept, State.allowanceExpiry_kept]

theorem State.outWrite_kept (s : State) (a : Act) (b : List Byte) : (s.outWrite a b).kept = s.kept := by
  unfold State.outWrite
  grind [State.count_kept, State.countP_kept, State.hostWrite_kept, State.modRun_kept, State.header0_kept]

/-! ## Functions of Machine/Hummock.lean -/

theorem State.setTable_kept (s : State) (o n : Nat) (t : Option TableSlot) : (s.setTable o n t).kept = s.kept := rfl

theorem State.sketchAdd_kept (s : State) (p t line : Nat) : (s.sketchAdd p t line).kept = s.kept := by
  unfold State.sketchAdd
  grind [State.kept, State.foldl_kept]

theorem State.missCand_kept (s : State) (p t line : Nat) : (s.missCand p t line).kept = s.kept := by
  unfold State.missCand
  grind [State.kept]

theorem State.install_kept (s : State) (p t line w : Nat) (pin : Bool) : (s.install p t line w pin).kept = s.kept := rfl

theorem State.dropLine_kept (s : State) (line : Nat) : (s.dropLine line).kept = s.kept := rfl

theorem State.lookup_kept (s : State) (o a : Nat) (bad : List Nat) : (s.lookup o a bad).2.kept = s.kept := by
  unfold State.lookup
  grind [State.count_kept, State.countP_kept, State.sketchAdd_kept, State.missCand_kept, State.dropLine_kept]

theorem State.halve_kept (s : State) : s.halve.kept = s.kept := by
  unfold State.halve
  grind [State.kept]

theorem State.tblStatus_kept (s : State) (o v off : Nat) : (s.tblStatus o v off).kept = s.kept := rfl

theorem State.freeFence_kept (s : State) (owner : Nat) (fe : Option Nat) (op : OpSel) :
    (s.freeFence owner fe op).kept = s.kept := by
  unfold State.freeFence
  grind [State.takeFence_kept, State.signalOpt_kept, State.freeErr_kept]

theorem State.tblWrite_kept (s : State) (o slot : Nat) (fe : Option Nat) (rec_ : List Byte) (cpl : Cpl) :
    (s.tblWrite o slot fe rec_ cpl).kept = s.kept := by
  unfold State.tblWrite
  grind [State.hostRead_kept, State.illegal_kept, State.startOp_kept, State.tblStatus_kept, State.freeFence_kept]

theorem State.tblWriteStep_kept (s : State) (op : LongOp) (slot : Nat) (r : List Byte) (cpl : Cpl) :
    (s.tblWriteStep op slot r cpl).kept = s.kept := by
  unfold State.tblWriteStep
  grind [State.fresh_kept, State.endOp_kept, State.endFree_kept, State.freeStatus_kept, State.setTable_kept, State.tblStatus_kept]

theorem State.tblClear_kept (s : State) (o slot : Nat) (fe : Option Nat) : (s.tblClear o slot fe).kept = s.kept := by
  unfold State.tblClear
  grind [State.illegal_kept, State.startOp_kept, State.setTable_kept, State.tblStatus_kept, State.freeFence_kept]

theorem State.tblClearStep_kept (s : State) (op : LongOp) (slot : Nat) : (s.tblClearStep op slot).kept = s.kept := by
  unfold State.tblClearStep
  grind [State.endOp_kept, State.setTable_kept, State.tblStatus_kept]

theorem State.tblUndo_kept (s : State) (op : LongOp) : (s.tblUndo op).kept = s.kept := by
  unfold State.tblUndo
  grind [State.setTable_kept, State.tblStatus_kept]

theorem State.polDo_kept {s : State} (fn : Fn) {k : Nat → State} (hk : ∀ p, (k p).kept = s.kept) : (s.polDo fn k).kept = s.kept := by
  unfold State.polDo; split
  · rfl
  · exact State.ownDo_kept _ (hk _)

theorem State.hmkStart_kept (s : State) (op table : Nat) (fe : Option Nat) (p : Nat) :
    (s.hmkStart op table fe p).kept = s.kept := by
  unfold State.hmkStart
  grind [State.wr_kept, State.illegal_kept, State.startOp_kept, State.freeFence_kept]

theorem State.unpin_kept (s : State) (p : Nat) (q : Nat → Bool) : (s.unpin p q).kept = s.kept := rfl

/-! ## Functions of Machine/Embedding.lean -/

theorem State.rowVault_kept (s : State) (a : Act) (t : TableSlot) (row : Nat) : (s.rowVault a t row).2.kept = s.kept := by
  unfold State.rowVault
  grind [State.xlFail_kept]

theorem State.punchCount_kept (s : State) (a : Act) (b : BagSet) (x : BagIdx) (trunc : Nat) :
    (s.punchCount a b x trunc).kept = s.kept := by
  unfold State.punchCount
  grind [State.count_kept, State.countP_kept]

theorem State.residueFail_kept (s : State) (a : Act) (ev : GatherEv) : (s.residueFail a ev).kept = s.kept := by
  unfold State.residueFail
  grind [State.bumpSat_kept, State.count_kept, State.failRun_kept, State.setFault_kept, State.mark_kept, State.foldl_kept]

/-! ## Functions of Machine/Epochs.lean -/

theorem State.batchRecord_kept (s : State) (a : Act) (body : List Byte) (n : Nat) :
    (s.batchRecord a body n).kept = s.kept := by
  unfold State.batchRecord
  grind [State.xlFail_kept]

theorem State.solderEnd_kept (s : State) (a : Act) : (s.solderEnd a).kept = s.kept := by
  unfold State.solderEnd
  grind [State.workDone_kept]

theorem State.epStart_kept (s : State) (o : Nat) (publish : Bool) (fe : Option Nat) :
    (s.epStart o publish fe).kept = s.kept := by
  unfold State.epStart
  grind [State.wr_kept, State.illegal_kept, State.startOp_kept]

theorem State.epClear_kept (s : State) (o : Nat) : (s.epClear o).kept = s.kept := rfl

theorem State.publishStep_kept (s : State) (op : LongOp) : (s.publishStep op).kept = s.kept := by
  unfold State.publishStep
  grind [State.wr_kept, State.endOp_kept, State.epClear_kept]

theorem State.epUndo_kept (s : State) (op : LongOp) : (s.epUndo op).kept = s.kept := by
  unfold State.epUndo
  grind [State.wr_kept]

/-! ## Functions of Machine/Anvil.lean -/

theorem State.loadScales_kept (s : State) (a : Act) (d : AnvilDesc) (bs : List Byte) :
    (s.loadScales a d bs).kept = s.kept := rfl

theorem State.dropScales_kept (s : State) (t run step : Nat) : (s.dropScales t run step).kept = s.kept := by
  unfold State.dropScales
  grind [State.kept]

theorem State.anvilMismatch_kept (s : State) (a : Act) (j exp obs : Nat) : (s.anvilMismatch a j exp obs).kept = s.kept := by
  unfold State.anvilMismatch
  grind [State.wr_kept, State.bumpSat_kept, State.count_kept, State.failRun_kept, State.mark_kept]

theorem State.tilePush_kept (s : State) (t : Nat) : (s.tilePush t).kept = s.kept := by
  unfold State.tilePush
  grind [State.kept, State.bump_kept, State.count_kept, State.countP_kept, State.workDone_kept, State.anvilMismatch_kept]

/-! ## Functions of Machine/Planisher.lean -/

theorem State.plDone_kept (s : State) (t op : Nat) (a : Act) (p : Pl) : (s.plDone t op a p).kept = s.kept := by
  unfold State.plDone
  grind [State.kept, State.count_kept, State.workDone_kept]

theorem State.plFail_kept (s : State) (t id : Nat) (e : Err) : (s.plFail t id e).kept = s.kept := by
  unfold State.plFail
  grind [State.bump_kept, State.failRun_kept]

theorem State.plRun_kept {s : State} (t op : Nat) (f : Flaw) {k : Act → Pl → Nat → State → PlRes}
    (hk : ∀ a p w, (k a p w s).2.kept = s.kept) : (s.plRun t op f k).kept = s.kept := by
  unfold State.plRun
  grind [State.plFail_kept, State.mark_kept, State.plDone_kept]

theorem State.plReg_kept (s : State) (t op : Nat) (f : Flaw) (k : Pl → Nat → Pl) : (s.plReg t op f k).kept = s.kept := by
  exact State.plRun_kept t op f fun _ _ _ => rfl

theorem State.plUn_kept (s : State) (t op : Nat) (f : Flaw) (g : Nat → Nat) : (s.plUn t op f g).kept = s.kept := by
  unfold State.plUn
  grind [State.plReg_kept]

theorem State.plBin_kept (s : State) (t op : Nat) (f : Flaw) (g : Nat → Nat → Nat) : (s.plBin t op f g).kept = s.kept := by
  unfold State.plBin
  grind [State.plReg_kept]

theorem State.plInt_kept (s : State) (t op : Nat) (f : Flaw) (g : Int → Int → Int) : (s.plInt t op f g).kept = s.kept := by
  unfold State.plInt
  grind [State.plReg_kept]

theorem State.plConv_kept (s : State) (t op : Nat) (f : Flaw) (g : Pl → Nat → Nat → Conv) :
    (s.plConv t op f g).kept = s.kept := by
  unfold State.plConv
  grind [State.plReg_kept]

theorem State.plMask_kept (s : State) (t op : Nat) (g : Bool → Bool → Bool) : (s.plMask t op g).kept = s.kept := by
  unfold State.plMask
  grind [State.plReg_kept]

theorem State.plTree_kept (s : State) (t op : Nat) (f : Flaw) (rows : Bool) (g : Nat → Nat → Nat) :
    (s.plTree t op f rows g).kept = s.kept := by
  unfold State.plTree
  grind [State.plReg_kept]

/-! ## Functions of Machine/TarnRiddle.lean -/

theorem State.slabStart_kept (s : State) (r : Run) (i : Nat) (x : PStep) : (s.slabStart r i x).kept = s.kept := by
  unfold State.slabStart
  grind [State.setData_kept]

theorem State.slabCodes_kept (s : State) (a : Act) (cap : Nat) (write : Bool) (gs : List Nat) :
    (s.slabCodes a cap write gs).2.kept = s.kept := by
  unfold State.slabCodes
  extract_lets mates f
  refine foldl_kept_of (fun x : List Err × List Nat × State => x.2.2) (fun x g => ?_) gs ([], [], s)
  grind [State.xlFail_kept]

theorem State.lateAll_kept (s : State) (a : Act) (es : List Err) : (s.lateAll a es).kept = s.kept := by
  unfold State.lateAll
  grind [State.late_kept, State.foldl_kept]

theorem State.tarnItems_kept (s : State) (a : Act) (n : Nat) : (s.tarnItems a n).kept = s.kept := by
  unfold State.tarnItems
  grind [State.count_kept, State.countP_kept]

/-! ## Functions of Machine/Causeway.lean -/

theorem State.setPort_kept (s : State) (n : Nat) (p : Port) : (s.setPort n p).kept = s.kept := rfl

theorem State.modPort_kept (s : State) (n : Nat) (f : Port → Port) : (s.modPort n f).kept = s.kept := rfl

theorem State.losePeers_kept (s : State) (n : Nat) : (s.losePeers n).kept = s.kept := rfl

theorem State.cwMove_kept (s : State) (n st : Nat) : (s.cwMove n st).kept = s.kept := by
  unfold State.cwMove
  grind [State.wr_kept, State.emit_kept, State.modPort_kept, State.losePeers_kept]

theorem State.cwDiscard_kept (s : State) (n : Nat) : (s.cwDiscard n).kept = s.kept := rfl

theorem State.cwDownPort_kept (s : State) (n : Nat) : (s.cwDownPort n).kept = s.kept := by
  unfold State.cwDownPort
  grind [State.cwMove_kept, State.cwDiscard_kept]

theorem State.faultQuarantine_kept (s : State) : s.faultQuarantine.kept = s.kept := by
  unfold State.faultQuarantine
  extract_lets s1
  split
  · exact (s1.setCause_kept _).trans rfl
  · rfl

theorem State.quarantine_kept (s : State) (n cause : Nat) : (s.quarantine n cause).kept = s.kept := by
  unfold State.quarantine
  grind [State.wr_kept, State.raise_kept, State.cwMove_kept, State.cwDiscard_kept, State.faultQuarantine_kept]

theorem State.countRetrain_kept (s : State) (n : Nat) : (s.countRetrain n).kept = s.kept := by
  unfold State.countRetrain
  grind [State.bump_kept, State.count_kept, State.modPort_kept, State.quarantine_kept]

theorem State.retrain_kept (s : State) (n : Nat) : (s.retrain n).kept = s.kept := by
  unfold State.retrain
  grind [State.cwMove_kept, State.cwDiscard_kept, State.countRetrain_kept]

theorem State.hostile_kept (s : State) (n : Nat) (f : Fld) : (s.hostile n f).kept = s.kept := by
  unfold State.hostile
  grind [State.bump_kept, State.count_kept, State.modPort_kept, State.quarantine_kept]

theorem State.inPort_kept {s t : State} (n : Nat) (sts : List Nat) (h : t.kept = s.kept) : (s.inPort n sts t).kept = s.kept := by
  unfold State.inPort; split
  exacts [h, rfl]

theorem State.authFail_kept (s : State) (n : Nat) : (s.authFail n).kept = s.kept := by
  unfold State.authFail
  grind [State.bumpSat_kept, State.quarantine_kept, State.inPort_kept]

theorem State.keyed_kept (s : State) (n : Nat) (x : Session) : (s.keyed n x).kept = s.kept := rfl

theorem State.linkUp_kept (s : State) (n : Nat) : (s.linkUp n).kept = s.kept := by
  unfold State.linkUp
  grind [State.bump_kept, State.modPort_kept, State.cwMove_kept, State.inPort_kept]

theorem State.sendNak_kept (s : State) (n : Nat) : (s.sendNak n).kept = s.kept := by
  unfold State.sendNak
  grind [State.bump_kept, State.emit_kept, State.count_kept, State.modPort_kept]

theorem State.sendFlit_kept (s : State) (n vc : Nat) (last : Bool) (dst src : Nat) (body : List Byte) :
    (s.sendFlit n vc last dst src body).kept = s.kept := rfl

theorem State.pump_kept (n fuel : Nat) (s : State) : (State.pump n fuel s).kept = s.kept := by
  induction fuel generalizing s with
  | zero => rfl
  | succ fuel ih => unfold State.pump; grind [State.modPort_kept, State.sendFlit_kept]

theorem State.say_kept (s : State) (n : Nat) (b : List Byte) : (s.say n b).kept = s.kept := by
  unfold State.say
  grind [State.modPort_kept, State.pump_kept]

theorem State.spdmIn_kept (s : State) (n : Nat) (b : List Byte) : (s.spdmIn n b).kept = s.kept := by
  unfold State.spdmIn
  grind [State.authFail_kept, State.say_kept]

theorem State.helloIn_kept (s : State) (n peer domain number : Nat) : (s.helloIn n peer domain number).kept = s.kept := rfl

theorem State.helloBad_kept (s : State) (n : Nat) : (s.helloBad n).kept = s.kept := by
  unfold State.helloBad
  grind [State.cwMove_kept, State.countRetrain_kept]

theorem State.trained_kept (s : State) (n peer roundTrip : Nat) : (s.trained n peer roundTrip).kept = s.kept := by
  unfold State.trained
  grind [State.wr_kept, State.modPort_kept, State.cwMove_kept, State.say_kept]

theorem State.freeBuf_kept (s : State) (n vc k : Nat) : (s.freeBuf n vc k).kept = s.kept := by
  unfold State.freeBuf
  grind [State.emit_kept, State.modPort_kept]

theorem State.deliver_kept (s : State) (n : Nat) (f : Flit) : (s.deliver n f).kept = s.kept := by
  unfold State.deliver
  grind [State.kept, State.modPort_kept, State.spdmIn_kept, State.freeBuf_kept]

theorem State.toTransit_kept (s : State) (n : Nat) (f : Flit) : (s.toTransit n f).kept = s.kept := by
  unfold State.toTransit
  grind [State.kept, State.bump_kept, State.freeBuf_kept]

theorem State.acceptFlit_kept (s : State) (n h : Nat) (body : List Byte) : (s.acceptFlit n h body).kept = s.kept := by
  unfold State.acceptFlit
  grind [State.emit_kept, State.count_kept, State.modPort_kept, State.hostile_kept, State.freeBuf_kept, State.deliver_kept, State.toTransit_kept]

theorem State.rxData_kept (s : State) (n : Nat) (b : List Byte) : (s.rxData n b).kept = s.kept := by
  unfold State.rxData
  grind [State.hostile_kept, State.linkUp_kept, State.sendNak_kept, State.acceptFlit_kept]

theorem State.control_kept {s t : State} (n : Nat) (ok : Bool) (h : t.kept = s.kept) : (s.control n ok t).kept = s.kept := by
  unfold State.control
  refine State.inPort_kept _ _ ?_
  split
  exacts [h, s.sendNak_kept _]

theorem State.rxAck_kept (s : State) (n seq : Nat) : (s.rxAck n seq).kept = s.kept := by
  unfold State.rxAck
  grind [State.modPort_kept, State.pump_kept]

theorem State.rxNak_kept (s : State) (n seq : Nat) : (s.rxNak n seq).kept = s.kept := by
  unfold State.rxNak
  grind [State.emit_kept, State.count_kept, State.setPort_kept, State.modPort_kept, State.retrain_kept, State.foldl_kept]

theorem State.rxCredit_kept (s : State) (n h : Nat) : (s.rxCredit n h).kept = s.kept := by
  unfold State.rxCredit
  grind [State.modPort_kept, State.pump_kept]

theorem State.secondEnd_kept (s : State) (n : Nat) : (s.secondEnd n).kept = s.kept := by
  unfold State.secondEnd
  grind [State.wr_kept, State.modPort_kept]

theorem State.lateRcvd_kept (s : State) (n : Nat) : (s.lateRcvd n).kept = s.kept := by
  unfold State.lateRcvd
  grind [State.wr_kept, State.bump_kept, State.secondEnd_kept]

theorem State.forward_kept (s : State) (n : Nat) : (s.forward n).kept = s.kept := by
  unfold State.forward
  grind [State.kept, State.bump_kept, State.count_kept, State.modPort_kept, State.sendFlit_kept, State.freeBuf_kept]

/-! ## Functions of Machine/Remote.lean -/

theorem State.newTag_kept (s : State) : s.newTag.2.kept = s.kept := rfl

theorem State.notSent_kept (s : State) (a : Act) (d : RemDesc) (e : Err) : (s.notSent a d e).kept = s.kept := rfl

theorem State.remoteCheck_kept (s : State) (a : Act) (d : RemDesc) : (s.remoteCheck a d).kept = s.kept := by
  unfold State.remoteCheck
  grind [State.workDone_kept]

theorem State.remoteAt_kept (s : State) (a : Act) (next flit tag all : Nat) :
    (s.remoteAt a next flit tag all).kept = s.kept := rfl

theorem State.remoteDeadline_kept (s : State) (a : Act) : (s.remoteDeadline a).kept = s.kept := by
  unfold State.remoteDeadline
  grind [State.countP_kept, State.failRun_kept, State.lateRcvd_kept, State.foldl_kept]

theorem State.takeMsg_kept {s t : State} {n : Nat} {q : Nat → Bool} {m : Msg} (h : s.takeMsg n q = some (m, t)) : t.kept = s.kept := by
  unfold State.takeMsg at h
  grind [State.freeBuf_kept, State.kept]

theorem State.closeReq_kept (s : State) (q : Request) (e : Option Err) : (s.closeReq q e).kept = s.kept := by
  unfold State.closeReq
  grind [State.kept]

theorem State.gntWrite_kept (s : State) : s.gntWrite.kept = s.kept := by
  unfold State.gntWrite
  grind [State.kept, State.wr_kept]

theorem State.settleGrant_kept (s : State) (n : Nat) : (s.settleGrant n).kept = s.kept := by
  unfold State.settleGrant
  grind [State.kept]

theorem State.gntRevoke_kept (s : State) : s.gntRevoke.kept = s.kept := by
  unfold State.gntRevoke
  grind [State.kept, State.wr_kept, State.illegal_kept, State.settleGrant_kept]

theorem State.gntRead_kept (s : State) : s.gntRead.kept = s.kept := rfl

theorem State.suspendGrants_kept (s : State) : s.suspendGrants.kept = s.kept := rfl

theorem State.refuse_kept (s : State) (m : Msg) (tag slot status : Nat) : (s.refuse m tag slot status).kept = s.kept := by
  unfold State.refuse
  grind [State.kept, State.count_kept, State.countP_kept]

theorem State.ingressChecks_kept (s : State) (m : Msg) (b : List Byte) : (s.ingressChecks m b).kept = s.kept := by
  unfold State.ingressChecks
  extract_lets slot op gr g tag rows off len key seen s0
  have h0 : s0.kept = s.kept := rfl
  have hr (st : Nat) : (s0.refuse m tag slot st).kept = s.kept := (s0.refuse_kept m tag slot st).trans h0
  clear_value s0
  refine State.ite_kept (s.hostile_kept _ _) ?_
  refine State.ite_kept (hr 2) (State.ite_kept (hr 1) (State.ite_kept ((s0.hostile_kept _ _).trans h0) ?_))
  refine State.ite_kept (hr 3) (State.ite_kept (hr 3) ?_)
  split
  · exact hr 3
  have hl : ((s0.refuse m tag slot 1).bump F.CW_CNT_SVC_LATE_SENT m.port 1).kept = s.kept := hr 1
  extract_lets n
  clear_value n
  split
  exacts [hl, State.ite_kept hl h0]

theorem State.ingress_kept (s : State) (n : Nat) : (s.ingress n).kept = s.kept := by
  unfold State.ingress
  grind [→ State.takeMsg_kept, State.bump_kept, State.ingressChecks_kept]

theorem State.sendMsg_kept (n vc dst fuel : Nat) (s : State) (b : List Byte) : (State.sendMsg n vc dst fuel s b).kept = s.kept := by
  induction fuel generalizing s b with
  | zero => rfl
  | succ fuel ih => unfold State.sendMsg; grind [State.sendFlit_kept]

theorem State.trustLoad_kept (s : State) (r : List Byte) (cpl : Cpl) (leafOk : Bool) :
    (s.trustLoad r cpl leafOk).kept = s.kept := by
  unfold State.trustLoad
  grind [State.hostRead_kept, State.illegal_kept, State.startOp_kept]

theorem State.trustStep_kept (s : State) (op : LongOp) (r : List Byte) (cpl : Cpl) (leafOk : Bool) :
    (s.trustStep op r cpl leafOk).kept = s.kept := by
  unfold State.trustStep
  grind [State.kept, State.wr_kept, State.endOp_kept, State.freeStatus_kept]

/-! ## Functions of Machine/Counters.lean -/

theorem State.dumpOverrun_kept (s : State) (seq : Nat) : (s.dumpOverrun seq).kept = s.kept := by
  unfold State.dumpOverrun
  grind [State.kept, State.raise_kept]

theorem State.dumpBoundary_kept (s : State) : s.dumpBoundary.kept = s.kept := by
  unfold State.dumpBoundary
  grind [State.kept, State.wr_kept, State.bump_kept, State.fresh_kept, State.count_kept, State.dumpOverrun_kept, State.foldl_kept]

theorem State.dumpTo_kept (s : State) (o : Nat) : (s.dumpTo o).kept = s.kept := by
  unfold State.dumpTo
  grind [State.kept, State.wr_kept, State.bump_kept, State.count_kept, State.sendMsix_kept, State.hostWrite_kept, State.dumpOverrun_kept]

/-! ## Functions of Machine/Reeve.lean -/

theorem State.railTo_kept (s : State) (lv : Nat) : (s.railTo lv).kept = s.kept := rfl

theorem State.railCommand_kept (s : State) : s.railCommand.kept = s.kept := by
  unfold State.railCommand
  grind [State.railTo_kept]

theorem State.applyLevel_kept (s : State) (lv : Nat) : (s.applyLevel lv).kept = s.kept := by
  unfold State.applyLevel
  grind [State.wr_kept, State.count_kept, State.railCommand_kept]

theorem State.applyTier_kept (s : State) (k : Nat) : (s.applyTier k).kept = s.kept := by
  unfold State.applyTier
  grind [State.wr_kept, State.count_kept, State.platformEvent_kept, State.haltOps_kept, State.foldl_kept]

theorem State.levelArrives_kept (s : State) : s.levelArrives.kept = s.kept := by
  unfold State.levelArrives
  grind [State.kept, State.raiseAll_kept]

theorem State.tierArrives_kept (s : State) : s.tierArrives.kept = s.kept := by
  unfold State.tierArrives
  grind [State.kept, State.wr_kept, State.raiseAll_kept, State.foldl_kept]

theorem State.samplePoint_kept (s : State) : s.samplePoint.kept = s.kept := by
  unfold State.samplePoint
  grind [State.kept, State.wr_kept, State.raiseAll_kept, State.haltOps_kept]

theorem State.retestRuns_kept (s : State) (old : SMap (Option Plan)) (o : Nat) : (s.retestRuns old o).kept = s.kept := by
  unfold State.retestRuns
  refine State.foldl_kept (fun t r => ?_) _ s
  grind [State.retestRuns.gone, State.failRun_kept, State.modRun_kept]

theorem State.retestRuns.gone_kept (old : SMap (Option Plan)) (o : Nat) (t : State) (r : Run) (e : Err) :
    (State.retestRuns.gone old o t r e).kept = t.kept := by
  unfold State.retestRuns.gone
  grind [State.failRun_kept, State.foldl_kept]

theorem State.switchPlan_kept (s : State) (o : Nat) : (s.switchPlan o).kept = s.kept := by
  unfold State.switchPlan
  grind [State.kept, State.retestRuns_kept]

theorem State.dropUnfit_kept (s : State) (f : Frame) (o : Nat) : (s.dropUnfit f o).kept = s.kept := by
  unfold State.dropUnfit
  grind [State.kept, State.wr_kept, State.retestRuns_kept]

theorem State.switchFrame_kept (s : State) (a : Armed) : (s.switchFrame a).kept = s.kept := by
  unfold State.switchFrame
  grind [State.kept, State.wr_kept, State.signalOpt_kept, State.suspendGrants_kept, State.switchPlan_kept, State.dropUnfit_kept, State.foldl_kept]

theorem State.planSwitches_kept (s : State) : s.planSwitches.kept = s.kept := by
  unfold State.planSwitches
  grind [State.wr_kept, State.switchPlan_kept, State.foldl_kept]

theorem State.switches_kept (s : State) : s.switches.kept = s.kept := by
  unfold State.switches
  grind [State.switchFrame_kept, State.planSwitches_kept]

theorem State.boundaryFails_kept (s : State) (tierCh levelCh : Bool) : (s.boundaryFails tierCh levelCh).kept = s.kept := by
  unfold State.boundaryFails
  grind [State.countP_kept, State.failRun_kept, State.foldl_kept]

theorem State.reloadCredit_kept (s : State) : s.reloadCredit.kept = s.kept := by
  unfold State.reloadCredit
  grind [State.kept, State.wri_kept, State.foldl_kept]

theorem State.framePulse_kept (s : State) : s.framePulse.kept = s.kept := by
  unfold State.framePulse
  grind [State.emit_kept, State.foldl_kept]

theorem State.boundaryRest_kept (s : State) : s.boundaryRest.kept = s.kept := by
  unfold State.boundaryRest
  grind [State.kept, State.count_kept, State.dumpBoundary_kept, State.reloadCredit_kept, State.framePulse_kept, State.foldl_kept]

theorem State.boundary_kept (s : State) : s.boundary.kept = s.kept := by
  unfold State.boundary
  grind [State.applyLevel_kept, State.applyTier_kept, State.switches_kept, State.boundaryFails_kept, State.boundaryRest_kept]

theorem State.firstFrame_kept (s : State) : s.firstFrame.kept = s.kept := by
  unfold State.firstFrame
  grind [State.kept, State.applyLevel_kept, State.applyTier_kept, State.switches_kept, State.boundaryRest_kept]

theorem State.admitRun_kept (s : State) (r : Run) (p : Plan) (l : Lode) (inst : Nat) :
    (s.admitRun r p l inst).kept = s.kept := by
  unfold State.admitRun
  grind [State.kept, State.wr_kept, State.count_kept, State.countP_kept, State.modRun_kept]

theorem State.windowOf_kept (s : State) (r : Run) (p : Plan) (l : Lode) : (s.windowOf r p l).kept = s.kept := by
  unfold State.windowOf
  grind [State.wr_kept, State.failRun_kept, State.faultRecord_kept, State.admitRun_kept]

theorem State.window_kept (s : State) (o lode : Nat) : (s.window o lode).kept = s.kept := by
  unfold State.window
  grind [State.kept, State.windowOf_kept, State.foldl_kept]

theorem State.admitTimeout_kept (s : State) (id : Nat) : (s.admitTimeout id).kept = s.kept := by
  unfold State.admitTimeout
  grind [State.failRun_kept]

theorem State.slabConflict_kept (s : State) (r : Run) (p : Plan) (i : Nat) (x : PStep) :
    (s.slabConflict r p i x).kept = s.kept := by
  unfold State.slabConflict
  grind [State.bump_kept, State.late_kept, State.foldl_kept]

theorem State.stepStart_kept (s : State) (id i : Nat) : (s.stepStart id i).kept = s.kept := by
  unfold State.stepStart
  grind [State.modRun_kept, State.failRun_kept, State.slabStart_kept, State.slabConflict_kept]

theorem State.stepCounts_kept (s : State) (r : Run) (p : Plan) (x : PStep) (i start : Nat) :
    (s.stepCounts r p x i start).kept = s.kept := by
  have h (t : State) (n : Nat) : (State.stepCounts.spine x t n).kept = t.kept :=
    State.foldl_kept (fun u j => by grind [State.count_kept]) _ t
  unfold State.stepCounts
  grind [State.dropScales_kept, State.count_kept, State.countP_kept, State.bump_kept, State.kept]

theorem State.stepCounts.spine_kept (x : PStep) (s : State) (busy : Nat) :
    (State.stepCounts.spine x s busy).kept = s.kept := by
  unfold State.stepCounts.spine
  grind [State.count_kept, State.foldl_kept]

theorem State.stepComplete_kept (s : State) (id i : Nat) : (s.stepComplete id i).kept = s.kept := by
  unfold State.stepComplete
  split
  · rfl
  rename_i r _
  split
  · rename_i p l x _ _ _
    extract_lets start
    clear_value start
    split
    · rfl
    rename_i t0
    have h1 : (((s.modRun id (fun q => q.setStep i .complete)).stepCounts r p x i t0).dropPaths r x).kept = s.kept :=
      (State.dropPaths_kept _ _ _).trans ((State.stepCounts_kept _ _ _ _ _ _).trans (s.modRun_kept _ _))
    refine State.ite_kept rfl ?_
    split
    · exact (State.failRun_kept _ _ _).trans h1
    · exact State.ite_kept h1 (State.ite_kept ((State.modRun_kept _ _ _).trans h1)
        ((State.completeRun_kept _ _).trans ((State.countP_kept _ _ _ _).trans h1)))
  · rfl

theorem State.stepDeadline_kept (s : State) (id i : Nat) : (s.stepDeadline id i).kept = s.kept := by
  have hcount (u : State) (x : PStep) : ((List.range x.laneCount).foldl (fun u j =>
      match spineCnt (x.lane + j) with | some k => u.count (k + 3) 1 | none => u) u).kept = u.kept :=
    State.foldl_kept (fun v j => by split <;> rfl) _ u
  have h (r : Run) (p : Plan) (l : Lode) : (State.stepDeadline.go id s r p l).kept = s.kept := by
    unfold State.stepDeadline.go
    extract_lets codes s1 s2
    have h1 : s1.kept = s.kept := State.foldl_kept (fun u y => by split; exacts [hcount _ _, rfl]) _ s
    clear_value s1
    have h2 : s2.kept = s1.kept := by grind [State.count_kept, State.countP_kept]
    clear_value s2
    grind [State.failRun_kept]
  unfold State.stepDeadline
  grind [State.remoteDeadline_kept]

theorem State.stepDeadline.go_kept (id : Nat) (s : State) (r : Run) (p : Plan) (l : Lode) :
    (State.stepDeadline.go id s r p l).kept = s.kept := by
  unfold State.stepDeadline.go
  grind [State.count_kept, State.countP_kept, State.failRun_kept, State.foldl_kept]

theorem State.runRelease_kept (s : State) (id : Nat) : (s.runRelease id).kept = s.kept := by
  unfold State.runRelease
  grind [State.completeRun_kept]

/-! ## Functions of Machine/Hallmark.lean -/

theorem State.wrWords_kept (s : State) (f : Fld) (first : Nat) (bs : List Byte) : (s.wrWords f first bs).kept = s.kept := by
  unfold State.wrWords
  grind [State.wri_kept, State.foldl_kept]

theorem State.hmMirror_kept (s : State) : s.hmMirror.kept = s.kept := by
  unfold State.hmMirror
  grind [State.wri_kept, State.wr_kept, State.wrWords_kept, State.foldl_kept]

theorem State.setLevelMaster_kept (s : State) (f : Fld) (v : Nat) : (s.setLevelMaster f v).kept = s.kept := by
  unfold State.setLevelMaster
  grind [State.wr_kept, State.railCommand_kept, State.levelArrives_kept]

theorem State.strikeEffect_kept (s : State) (setting : Nat) : (s.strikeEffect setting).kept = s.kept := by
  unfold State.strikeEffect
  grind [State.wri_kept, State.fresh_kept, State.cwDownPort_kept, State.setLevelMaster_kept, State.foldl_kept]

theorem State.reject_kept (s : State) : s.reject.kept = s.kept := rfl

theorem State.spareLeft_kept (s : State) (v : Nat) : (s.spareLeft v).kept = s.kept := by
  unfold State.spareLeft
  grind [State.wri_kept, State.setCause_kept]

/-! ## Functions of Machine/Towers.lean -/

theorem State.coolStep_kept (s : State) (t x k : Nat) : (s.coolStep t x k).kept = s.kept := by
  unfold State.coolStep
  grind [State.kept]

theorem State.stackSample_kept (s : State) (t : Nat) (rs : List (Option Nat)) : (s.stackSample t rs).kept = s.kept := by
  unfold State.stackSample
  grind [State.kept, State.wri_kept, State.wr_kept, State.fresh_kept, State.coolStep_kept, State.foldl_kept]

theorem State.raiseAdvisory_kept (s : State) : s.raiseAdvisory.kept = s.kept := by
  unfold State.raiseAdvisory
  grind [State.kept, State.raiseAll_kept]

theorem State.tempSample_kept (s : State) (rs : List (List (Option Nat))) (base : Nat) :
    (s.tempSample rs base).kept = s.kept := by
  unfold State.tempSample
  grind [State.wr_kept, State.tierArrives_kept, State.stackSample_kept, State.raiseAdvisory_kept, State.foldl_kept]

theorem State.thermalTrip_kept (s : State) (source : Nat) : (s.thermalTrip source).kept = s.kept := rfl

theorem State.twStatus_kept (s : State) (t v : Nat) : (s.twStatus t v).kept = s.kept := rfl

theorem State.twCmd_kept {s t : State} (i : Nat) (h : t.kept = s.kept) : (s.twCmd i t).kept = s.kept := by
  unfold State.twCmd; split
  exacts [s.illegal_kept _ _ _, h]

theorem State.twRetire_kept (s : State) (t v : Nat) (fe : Option Nat) : (s.twRetire t v fe).kept = s.kept := by
  unfold State.twRetire
  grind [State.retireVault_kept, State.doneFence_kept, State.twStatus_kept]

theorem State.twRepair_kept (s : State) (t c : Nat) (fe : Option Nat) : (s.twRepair t c fe).kept = s.kept := by
  unfold State.twRepair
  grind [State.wr_kept, State.startOp_kept, State.doneFence_kept, State.twStatus_kept]

theorem State.repairEnd_kept (s : State) (op : LongOp) (status : Nat) : (s.repairEnd op status).kept = s.kept := by
  unfold State.repairEnd
  grind [State.endOp_kept, State.twStatus_kept]

/-- The definition as it stands: unfolded at given arguments, its match makes the kernel evaluate the 24 hours of a scrub
pass, a number of nanoseconds, in unary. -/
theorem State.scrubPassEnd_eq : State.scrubPassEnd = delta% State.scrubPassEnd := rfl

theorem State.scrubPassEnd_kept (s : State) (v : Nat) : (s.scrubPassEnd v).kept = s.kept := by
  rw [State.scrubPassEnd_eq]
  beta_reduce
  extract_lets t late s1 s2 alive passes
  have h1 : s1.kept = s.kept := rfl
  clear_value s1
  have h2 : s2.kept = s.kept := State.ite_kept ((s1.bump_kept _ _ _).trans h1) h1
  clear_value s2 passes
  split
  · exact h2
  · exact (State.wr_kept _ _ _ _).trans h2

/-! ## Functions of Machine/Assay.lean -/

theorem State.asyCmd_kept {s t : State} (h : t.kept = s.kept) : (s.asyCmd t).kept = s.kept := by
  unfold State.asyCmd; split
  exacts [s.illegal_kept _ _ _, h]

theorem State.asyLoad_kept (s : State) (fe : Option Nat) (img : List Byte) (cpl : Cpl) :
    (s.asyLoad fe img cpl).kept = s.kept := by
  unfold State.asyLoad
  grind [State.wr_kept, State.hostRead_kept, State.startOp_kept, State.freeFence_kept]

theorem State.packEnd_kept (s : State) (op : LongOp) (img : List Byte) (cpl : Cpl) :
    (s.packEnd op img cpl).kept = s.kept := by
  unfold State.packEnd
  grind [State.kept, State.wr_kept, State.endOp_kept, State.endFree_kept, State.freeStatus_kept, State.foldl_kept]

theorem State.packStep_kept (s : State) (op : LongOp) (img : List Byte) (cpl : Cpl) (n : Nat) :
    (s.packStep op img cpl n).kept = s.kept := by
  unfold State.packStep
  grind [State.setOp_kept, State.packEnd_kept]

theorem State.showQueued_kept (s : State) (l : Nat) : (s.showQueued l).kept = s.kept := by
  unfold State.showQueued
  grind [State.setQueued_kept]

theorem State.schedule_kept (s : State) (l : Nat) : (s.schedule l).kept = s.kept := by
  unfold State.schedule
  grind [State.kept, State.showQueued_kept]

theorem State.asySweep_kept (s : State) (fe : Option Nat) : (s.asySweep fe).kept = s.kept := by
  unfold State.asySweep
  grind [State.kept, State.signal_kept, State.takeFence_kept, State.schedule_kept, State.foldl_kept]

theorem State.asyTest_kept (s : State) (block inst : Nat) (fe : Option Nat) : (s.asyTest block inst fe).kept = s.kept := by
  unfold State.asyTest
  grind [State.kept, State.wr_kept, State.illegal_kept, State.takeFence_kept, State.freeFence_kept, State.schedule_kept]

theorem State.verdict_kept (s : State) (r : AsyRun) (pass : Bool) (test digest : Nat) :
    (s.verdict r pass test digest).kept = s.kept := by
  unfold State.verdict
  grind [State.kept, State.setAsy_kept, State.setHealth_kept, State.setQueued_kept, State.setLastTick_kept, State.cper_kept, State.asyEnded_kept, State.bench_kept, State.showQueued_kept]

theorem State.assayStep_kept (s : State) (l : Nat) (output : List Byte) : (s.assayStep l output).kept = s.kept := by
  unfold State.assayStep
  grind [State.kept, State.verdict_kept]

theorem State.restartTest_kept (s : State) (l : Nat) : (s.restartTest l).kept = s.kept := rfl

/-! ## Functions of Machine/Background.lean -/

theorem State.clearEngine_kept (s : State) (l : Nat) : (s.clearEngine l).kept = s.kept := by
  unfold State.clearEngine
  grind [State.kept]

theorem State.rstEngine_kept (s : State) (block inst : Nat) (fe : Option Nat) :
    (s.rstEngine block inst fe).kept = s.kept := by
  unfold State.rstEngine
  grind [State.kept, State.wr_kept, State.illegal_kept, State.takeFence_kept]

theorem State.engineResetStep_kept (s : State) (l n : Nat) (f : Option Nat) : (s.engineResetStep l n f).kept = s.kept := by
  unfold State.engineResetStep
  grind [State.kept, State.wr_kept, State.bump_kept, State.count_kept, State.signalOpt_kept, State.restartTest_kept, State.clearEngine_kept]

theorem State.countBg_kept (s : State) (l : Nat) : (s.countBg l).kept = s.kept := by
  unfold State.countBg
  grind [State.count_kept]

/-! ## Functions of Machine/LongOpStep.lean -/

theorem State.fenceStep_kept (s : State) (op : LongOp) (block next n : Nat) :
    (s.fenceStep op block next n).kept = s.kept := by
  unfold State.fenceStep
  grind [State.setOp_kept, State.endOp_kept, State.fenceSweep_kept]

/-! ## Functions of Machine/Patina.lean -/

theorem State.patLifeUpdate_kept (s : State) : s.patLifeUpdate.kept = s.kept := rfl

theorem State.testLife_kept (s : State) : s.testLife.kept = s.kept := by
  unfold State.testLife
  grind [State.setCause_kept]

theorem State.testSpare_kept (s : State) : s.testSpare.kept = s.kept := by
  unfold State.testSpare
  grind [State.setCause_kept]

theorem State.cycleMon_kept (s : State) (t : Nat) : (s.cycleMon t).kept = s.kept := by
  unfold State.cycleMon
  grind [State.kept]

theorem State.showScores_kept (s : State) : s.showScores.kept = s.kept := rfl

theorem State.patinaSample_kept (s : State) (ro bond eye amps : List (Option Nat)) :
    (s.patinaSample ro bond eye amps).kept = s.kept := by
  unfold State.patinaSample
  grind [State.kept, State.wr_kept, State.bump_kept, State.testLife_kept, State.cycleMon_kept, State.showScores_kept, State.foldl_kept]

theorem State.dailyPoint_kept (s : State) : s.dailyPoint.kept = s.kept := by
  unfold State.dailyPoint
  grind [State.kept, State.patLifeUpdate_kept]

/-! ## Functions of Machine/Power.lean -/

theorem State.sensorEvents_kept (s old : State) : (s.sensorEvents old).kept = s.kept := by
  unfold State.sensorEvents
  grind [State.sensorEvent_kept, State.foldl_kept]

theorem State.leaveL1_kept (s : State) (st : Nat) : (s.leaveL1 st).kept = s.kept := by
  unfold State.leaveL1
  grind [State.kept]

theorem State.l1Entry_kept (s : State) : s.l1Entry.kept = s.kept := by
  unfold State.l1Entry
  grind [State.kept, State.fresh_kept]

theorem State.pwrMove_kept (s : State) (st : Nat) : (s.pwrMove st).kept = s.kept := by
  unfold State.pwrMove
  grind [State.wr_kept, State.sensorEvent_kept, State.leaveL1_kept]

theorem State.pwrReq_kept (s : State) (req level : Nat) : (s.pwrReq req level).kept = s.kept := by
  unfold State.pwrReq
  grind [State.kept, State.wr_kept, State.illegal_kept, State.haltOps_kept, State.setLevelMaster_kept, State.pwrMove_kept]

theorem State.enterRetain_kept (s : State) : s.enterRetain.kept = s.kept := by
  unfold State.enterRetain
  grind [State.kept, State.wr_kept, State.sensorEvent_kept, State.cwDownPort_kept, State.foldl_kept]

theorem State.powerReport_kept (s : State) (rs : List (Option Nat)) : (s.powerReport rs).kept = s.kept := by
  unfold State.powerReport
  grind [State.kept, State.wr_kept, State.bump_kept, State.fresh_kept]

/-! ## Functions of Machine/Resets.lean -/

theorem State.setPhase_kept (s : State) (n : Nat) : (s.setPhase n).kept = s.kept := rfl

theorem State.startFails_kept (s : State) (fail : Nat) : (s.startFails fail).kept = s.kept := rfl

theorem State.planesGo_kept (s : State) : s.planesGo.kept = s.kept := rfl

theorem State.goReady_kept (s : State) : s.goReady.kept = s.kept := by
  unfold State.goReady
  grind [State.kept, State.wri_kept, State.wr_kept, State.setCause_kept, State.levelArrives_kept, State.tierArrives_kept, State.setPhase_kept, State.foldl_kept]

theorem State.suspects_kept (s : State) : s.suspects.kept = s.kept := by
  unfold State.suspects
  grind [State.kept, State.setHealth_kept, State.setQueued_kept, State.setMarks_kept, State.foldl_kept]

theorem State.coldValues_kept (s : State) : s.coldValues.kept = s.kept := by
  unfold State.coldValues
  grind [State.wri_kept, State.wr_kept, State.hmMirror_kept, State.suspects_kept, State.foldl_kept]

theorem State.restart_kept (s : State) : s.restart.kept = s.kept := by
  unfold State.restart
  grind [State.planesGo_kept]

theorem State.rstDo_kept {s t : State} (fn : Fn) (h : t.kept = s.kept) : (s.rstDo fn t).kept = s.kept := by
  unfold State.rstDo; split
  exacts [h, rfl]

theorem State.hostScope_kept (s : State) (scope : Nat) : (s.hostScope scope).kept = s.kept := by
  unfold State.hostScope
  grind [State.wr_kept]

theorem State.mgcReset_kept (s : State) : s.mgcReset.kept = s.kept := by
  unfold State.mgcReset
  grind [State.kept, State.wr_kept, State.bump_kept, State.breakHasps_kept]

/-! ## Functions of Machine/Mgc.lean -/

theorem State.pinsStart_kept (s : State) : s.pinsStart.kept = s.kept := by
  unfold State.pinsStart
  grind [State.wri_kept, State.foldl_kept]

theorem State.mbxAbandon_kept (s : State) : s.mbxAbandon.kept = s.kept := by
  unfold State.mbxAbandon
  grind [State.wr_kept]

theorem State.romRecovery_kept (s : State) (fail : Nat) : (s.romRecovery fail).kept = s.kept := by
  unfold State.romRecovery
  grind [State.kept, State.setFault_kept, State.startFails_kept, State.mbxAbandon_kept]

theorem State.mbxAnswer_kept (s : State) (result : Nat) (rsp : List Byte) : (s.mbxAnswer result rsp).kept = s.kept := by
  unfold State.mbxAnswer
  grind [State.wr_kept, State.wrWords_kept, State.foldl_kept]

theorem State.mbx_kept {s : State} (op len need : Nat) (cut : MbxCut) {early act : State → State}
    (he : ∀ t, (early t).kept = t.kept) (ha : ∀ t, (act t).kept = t.kept) : (s.mbx op len need cut early act).kept = s.kept := by
  unfold State.mbx
  split
  · exact s.illegal_kept _ _ _
  extract_lets s1
  have h1 : s1.kept = s.kept := State.foldl_kept (f := fun (t : State) (p : Fld × Nat) => t.wr p.1 0 p.2) (fun _ _ => rfl) _ s
  clear_value s1
  exact State.ite_kept h1 (State.ite_kept (State.ite_kept ((s1.mbxAnswer_kept _ _).trans h1) h1)
    (State.ite_kept ((ha _).trans h1) ((he _).trans h1)))

theorem State.mbxGetInfo_kept (s : State) : s.mbxGetInfo.kept = s.kept := by
  unfold State.mbxGetInfo
  grind [State.mbxAnswer_kept]

theorem State.strikeWords_kept (s : State) (r : List Byte) : (s.strikeWords r).2.kept = s.kept := by
  unfold State.strikeWords
  grind [State.fresh_kept]

theorem State.authHold_kept (s : State) : s.authHold.kept = s.kept := by
  unfold State.authHold
  grind [State.kept, State.reject_kept, State.mbxAnswer_kept]

theorem State.logRead_kept (s : State) : s.logRead.kept = s.kept := by
  unfold State.logRead
  grind [State.mbxAnswer_kept]

theorem State.freeWords_kept (s : State) (n : Nat) : (s.freeWords n).2.kept = s.kept := by
  unfold State.freeWords
  refine foldl_kept_of (β := List Byte × State) Prod.snd (fun x i => ?_) (List.range n) ([], s)
  exact x.2.fresh_kept

theorem State.packRead_kept (s : State) : s.packRead.kept = s.kept := by
  unfold State.packRead
  grind [State.wr_kept, State.mbxAnswer_kept, State.freeWords_kept]

theorem State.patinaRead_kept (s : State) : s.patinaRead.kept = s.kept := by
  unfold State.patinaRead
  grind [State.mbxAnswer_kept, State.freeWords_kept]

theorem State.pldm_kept (s : State) (type cmd : Nat) (data : List Nat) : (s.pldm type cmd data).kept = s.kept := rfl

theorem State.effect_kept {s t : State} (cmd : Nat) (accept : Bool) (h : t.kept = s.kept) :
    (s.effect cmd accept t).kept = s.kept := by
  unfold State.effect; split
  · rfl
  split
  exacts [(t.pldm_kept _ _ _).trans h, s.pldm_kept _ _ _]

theorem State.mgcPorts_kept (s : State) (states : List (Option Nat)) : (s.mgcPorts states).kept = s.kept := by
  unfold State.mgcPorts
  grind [State.wr_kept, State.cwDownPort_kept, State.foldl_kept]

/-! ## Functions of Machine/Manage.lean -/

theorem State.answer_kept {s t : State} (h : t.kept = s.kept) : (s.answer t).kept = s.kept := by
  unfold State.answer; split
  exacts [h, rfl]

theorem State.answerRun_kept {s t : State} (h : t.kept = s.kept) : (s.answerRun t).kept = s.kept := by
  unfold State.answerRun; split
  exacts [h, rfl]

theorem State.mctpSetEid_kept (s : State) (pcie : Bool) (op eid : Nat) : (s.mctpSetEid pcie op eid).kept = s.kept := by
  unfold State.mctpSetEid
  grind [State.kept, State.emit_kept]

theorem State.mctpVersion_kept (s : State) (type : Nat) : (s.mctpVersion type).kept = s.kept := by
  unfold State.mctpVersion
  grind [State.fresh_kept, State.emit_kept]

theorem State.setTid_kept (s : State) (tid : Nat) : (s.setTid tid).kept = s.kept := by
  unfold State.setTid
  grind [State.kept, State.pldm_kept]

theorem State.pldmVersion_kept (s : State) (type : Nat) : (s.pldmVersion type).kept = s.kept := by
  unfold State.pldmVersion
  grind [State.fresh_kept, State.pldm_kept]

theorem State.getPdr_kept (s : State) (handle : Nat) : (s.getPdr handle).kept = s.kept := by
  unfold State.getPdr
  grind [State.fresh_kept, State.pldm_kept]

theorem State.pdrInfo_kept (s : State) : s.pdrInfo.kept = s.kept := rfl

theorem State.sensorReading_kept (s : State) (id : Nat) : (s.sensorReading id).kept = s.kept := by
  unfold State.sensorReading
  grind [State.pldm_kept]

theorem State.setUpd_kept (s : State) (u : Update) : (s.setUpd u).kept = s.kept := rfl

theorem State.inState_kept {s t : State} (cmd : Nat) (ok : List Nat) (h : t.kept = s.kept) :
    (s.inState cmd ok t).kept = s.kept := by
  unfold State.inState; split
  exacts [h, s.pldm_kept _ _ _]

theorem State.requestUpdate_kept (s : State) (maxTransfer : Nat) : (s.requestUpdate maxTransfer).kept = s.kept := by
  unfold State.requestUpdate
  grind [State.pldm_kept, State.setUpd_kept]

theorem State.passComponent_kept (s : State) (comp : Nat) (last : Bool) : (s.passComponent comp last).kept = s.kept := by
  unfold State.passComponent
  grind [State.pldm_kept, State.setUpd_kept, State.inState_kept]

theorem State.updateComponent_kept (s : State) (comp size : Nat) : (s.updateComponent comp size).kept = s.kept := by
  unfold State.updateComponent
  grind [State.pldm_kept, State.setUpd_kept, State.inState_kept]

theorem State.firmwareData_kept (s : State) (bytes : List Byte) : (s.firmwareData bytes).kept = s.kept := by
  unfold State.firmwareData
  grind [State.pldm_kept, State.setUpd_kept]

theorem State.transferComplete_kept (s : State) : s.transferComplete.kept = s.kept := by
  unfold State.transferComplete
  grind [State.pldm_kept, State.setUpd_kept]

theorem State.verifyComplete_kept (s : State) (sigOk : Bool) (svn version : Nat) :
    (s.verifyComplete sigOk svn version).kept = s.kept := by
  unfold State.verifyComplete
  grind [State.kept, State.pldm_kept, State.setUpd_kept]

theorem State.applyComplete_kept (s : State) : s.applyComplete.kept = s.kept := by
  unfold State.applyComplete
  grind [State.kept, State.pldm_kept]

theorem State.activateFirmware_kept (s : State) (selfContained : Bool) :
    (s.activateFirmware selfContained).kept = s.kept := by
  unfold State.activateFirmware
  grind [State.kept, State.wr_kept, State.mgcReset_kept, State.pldm_kept, State.inState_kept]

theorem State.cancelComponent_kept (s : State) : s.cancelComponent.kept = s.kept := by
  unfold State.cancelComponent
  grind [State.pldm_kept, State.setUpd_kept, State.inState_kept]

theorem State.cancelUpdate_kept (s : State) : s.cancelUpdate.kept = s.kept := by
  unfold State.cancelUpdate
  grind [State.pldm_kept, State.setUpd_kept, State.inState_kept]

theorem State.setSpdm_kept (s : State) (doe : Bool) (c : Spdm) : (s.setSpdm doe c).kept = s.kept := rfl

theorem State.spdmSay_kept (s : State) (doe : Bool) (code : Nat) (data : List Nat) :
    (s.spdmSay doe code data).kept = s.kept := rfl

theorem State.spdmAt_kept {s t : State} (doe : Bool) (phase : Nat) (h : t.kept = s.kept) : (s.spdmAt doe phase t).kept = s.kept := by
  unfold State.spdmAt
  refine State.answerRun_kept ?_
  split
  exacts [h, s.spdmSay_kept _ _ _]

theorem State.spdmFree_kept (s : State) (doe : Bool) (code : Nat) (data : List Nat) :
    (s.spdmFree doe code data).kept = s.kept := rfl

theorem State.getMeasurements_kept (s : State) (doe : Bool) (index : Nat) :
    (s.getMeasurements doe index).kept = s.kept := by
  unfold State.getMeasurements
  grind [State.spdmSay_kept, State.spdmFree_kept]

theorem State.inSession_kept {s t : State} (doe : Bool) (sid : Nat) (h : t.kept = s.kept) : (s.inSession doe sid t).kept = s.kept := by
  unfold State.inSession
  refine State.spdmAt_kept _ _ ?_
  split
  exacts [h, s.spdmSay_kept _ _ _]

/-! ## Functions of Machine/StartUp.lean -/

theorem State.setTrain_kept (s : State) (t v : Nat) : (s.setTrain t v).kept = s.kept := rfl

/-! ## Functions of Machine/Pins.lean -/

theorem State.pmxWrite_kept (s : State) (n v : Nat) : (s.pmxWrite n v).kept = s.kept := by
  unfold State.pmxWrite
  grind [State.kept, State.wri_kept, State.illegal_kept, State.foldl_kept]

/-! ## Functions of Machine/Tdisp.lean -/

theorem State.ifReport_kept (s : State) (p : Nat) : (s.ifReport p).kept = s.kept := rfl

theorem State.tdispError_kept (s : State) (p : Nat) : (s.tdispError p).kept = s.kept := rfl

theorem State.tdispLock_kept (s : State) (p : Nat) (ideBound : Bool) : (s.tdispLock p ideBound).kept = s.kept := by
  unfold State.tdispLock
  grind [State.finishLock_kept, State.setAux_kept, State.tdispError_kept]

theorem State.tdispStart_kept (s : State) (p : Nat) : (s.tdispStart p).kept = s.kept := by
  unfold State.tdispStart
  grind [State.wr_kept, State.tdispReply_kept, State.tdispError_kept]

theorem State.tdispStop_kept (s : State) (p : Nat) : (s.tdispStop p).kept = s.kept := by
  unfold State.tdispStop
  grind [State.tdispReply_kept, State.beginZero_kept, State.setAux_kept, State.zeroOp_kept]

theorem State.ideFailure_kept (s : State) (p : Nat) : (s.ideFailure p).kept = s.kept := by
  unfold State.ideFailure
  grind [State.wr_kept, State.failAll_kept, State.setAux_kept]

/-! ## Functions of Machine/RegWrite.lean -/

theorem State.passItems_kept (s : State) (zs : List ZeroItem) : (s.passItems zs).kept = s.kept := by
  unfold State.passItems
  grind [State.kept, State.addZero_kept, State.foldl_kept]

theorem State.afterWrite_kept (s old : State) (b : Block) (inst off i : Nat) :
    (s.afterWrite old b inst off i).kept = s.kept := by
  unfold State.afterWrite
  grind [State.kept, State.wr_kept, State.testRetire_kept, State.testWeak_kept, State.cwDownPort_kept, State.passItems_kept, State.foldl_kept]

theorem State.writeField_kept (s : State) (w : WordWrite) (b : Block) (inst i : Nat) (locked : Bool) (f : Fld) :
    (s.writeField w b inst i locked f).kept = s.kept := by
  unfold State.writeField
  grind [State.wri_kept]

theorem State.rearmErr_kept (s : State) (b : Block) (inst : Nat) : (s.rearmErr b inst).kept = s.kept := by
  unfold State.rearmErr
  grind [State.wr_kept]

theorem State.writeWord_kept (s : State) (o : Nat) (b : Block) (inst off : Nat) (w : WordWrite) :
    (s.writeWord o b inst off w).kept = s.kept := by
  unfold State.writeWord
  split
  · rfl
  split
  · rfl
  refine State.ite_kept (s.pageErr_kept _ _ _ _) ?_
  extract_lets new writable locked s1 s2
  have h1 : s1.kept = s.kept := State.foldl_kept (fun t f => t.writeField_kept _ _ _ _ _ _) _ s
  clear_value s1
  have h2 : s2.kept = s.kept := by grind [State.rearmErr_kept, State.afterWrite_kept]
  clear_value s2
  grind [State.pageErr_kept, State.illegal_kept]

theorem State.writeWords_kept (o : Nat) (b : Block) (inst : Nat) (data : List Byte) (n off : Nat) (s : State) :
    (State.writeWords o b inst data n off s).kept = s.kept := by
  induction n generalizing data off s with
  | zero => rfl
  | succ n ih => exact (ih _ _ _).trans (s.writeWord_kept _ _ _ _ _)

theorem State.rearmWords_kept (fn : Fn) (block : Nat) (data : List Byte) (n word : Nat) (s : State) :
    (State.rearmWords fn block data n word s).kept = s.kept := by
  induction n generalizing data word s with
  | zero => rfl
  | succ n ih => exact (ih _ _ _).trans (s.rearm_kept _ _ _ _)

theorem State.regWrite_kept (s : State) (fn : Fn) (bar2 : Bool) (page off : Nat) (data : List Byte) :
    (s.regWrite fn bar2 page off data).kept = s.kept := by
  unfold State.regWrite
  grind [State.pageErr_kept, State.writeWord_kept, State.writeWords_kept, State.rearmWords_kept]

theorem State.badRead_kept (s : State) (fn : Fn) (bar2 : Bool) (page off size : Nat) :
    (s.badRead fn bar2 page off size).kept = s.kept := by
  unfold State.badRead
  grind [State.emit_kept, State.pageErr_kept]

/-! ## Functions of Machine/Tick.lean -/

theorem State.slotCounts_kept (s : State) (t : Nat) : (s.slotCounts t).kept = s.kept := rfl

theorem State.portTick_kept (s : State) (n : Nat) : (s.portTick n).kept = s.kept := by
  unfold State.portTick
  grind [State.fresh_kept, State.count_kept]

theorem State.tickCounts_kept (s : State) : s.tickCounts.kept = s.kept := by
  unfold State.tickCounts
  grind [State.count_kept, State.countP_kept, State.slotCounts_kept, State.portTick_kept, State.foldl_kept]

theorem State.passNs_kept (s : State) (n : Nat) : (s.passNs n).kept = s.kept := rfl

theorem State.noted_kept (s : State) (a : Act) (f : Flaw) : (s.noted a f).kept = s.kept := by
  cases f <;> unfold State.noted <;> grind [State.count_kept]

end Sys2Proof.Machine
end

section
/-! SUPPORT. What the functions that write memory or the bank keep all the same (`Kept.Keeps`): the queue, the canonical form of
both memories (R192, R538), and every entry of the bank (R487). -/

namespace Sys2Proof.Machine
open Sys2Proof

/-- Every list of the bank continues what it was. -/
structure Bank.Grows (a b : Bank) : Prop where
  log : a.log <+: b.log
  ownerRows : a.ownerRows <+: b.ownerRows
  signerRows : a.signerRows <+: b.signerRows

theorem Bank.Grows.refl (a : Bank) : a.Grows a := ⟨List.prefix_rfl, List.prefix_rfl, List.prefix_rfl⟩

theorem Bank.Grows.trans {a b c : Bank} (h : a.Grows b) (k : b.Grows c) : a.Grows c :=
  ⟨h.log.trans k.log, h.ownerRows.trans k.ownerRows, h.signerRows.trans k.signerRows⟩

/-- `b` is what a step may make of `a`: the same queue, memories that stay canonical, a bank that grows. -/
structure Kept.Keeps (a b : Kept) : Prop where
  pending : b.pending = a.pending
  vault : Memory.wf a.vault = true → Memory.wf b.vault = true
  mere : Memory.wf a.mere = true → Memory.wf b.mere = true
  bank : a.bank.Grows b.bank

theorem Kept.Keeps.refl (a : Kept) : a.Keeps a := ⟨rfl, id, id, .refl _⟩

theorem Kept.Keeps.trans {a b c : Kept} (h : a.Keeps b) (k : b.Keeps c) : a.Keeps c :=
  ⟨k.pending.trans h.pending, fun x => k.vault (h.vault x), fun x => k.mere (h.mere x), h.bank.trans k.bank⟩

theorem foldl_keeps_of {α β : Type} (π : β → State) {f : β → α → β} (hf : ∀ b a, (π b).kept.Keeps (π (f b a)).kept) (l : List α) (b : β) :
    (π b).kept.Keeps (π (l.foldl f b)).kept := by
  induction l generalizing b with
  | nil => exact .refl _
  | cons a t ih => exact (hf b a).trans (ih _)

theorem State.foldl_keeps {α : Type} {f : State → α → State} (hf : ∀ (t : State) (a : α), t.kept.Keeps (f t a).kept) (l : List α) (s : State) :
    s.kept.Keeps (l.foldl f s).kept := foldl_keeps_of id hf l s

theorem Kept.Keeps.of_eq {a b : Kept} (hp : b.pending = a.pending) (hb : b.bank = a.bank) (hv : b.vault = a.vault)
    (hm : b.mere = a.mere) : a.Keeps b :=
  ⟨hp, fun h => by rw [hv]; exact h, fun h => by rw [hm]; exact h, by rw [hb]; exact .refl _⟩

theorem Kept.Keeps.of_kept {a b : Kept} (h : b = a) : a.Keeps b := h ▸ .refl a

/-! ## Functions of Machine/Steps.lean -/

theorem State.onStep_keeps {s : State} (id i : Nat) (e : Eng) {k : Act → State} (hk : ∀ a, s.kept.Keeps (k a).kept) :
    s.kept.Keeps (s.onStep id i e k).kept := by
  unfold State.onStep State.unlessDenied
  grind [Kept.Keeps.refl]

theorem State.flawed_keeps {s : State} (a : Act) (f : Flaw) {k : State → State}
    (hk : ∀ t, t.kept = s.kept → s.kept.Keeps (k t).kept) : s.kept.Keeps (s.flawed a f k).kept := by
  unfold State.flawed
  grind [State.count_kept, State.mark_kept, State.failRun_kept, Kept.Keeps.of_kept]

theorem State.flawedLate_keeps {s : State} (a : Act) (f : Flaw) {k : State → State}
    (hk : ∀ t, t.kept = s.kept → s.kept.Keeps (k t).kept) : s.kept.Keeps (s.flawedLate a f k).kept := by
  unfold State.flawedLate; split
  · exact .of_kept ((State.mark_kept _ _ _).trans (s.late_kept _ _ _))
  · exact State.flawed_keeps a f hk

/-! ## Functions of Machine/Planisher.lean -/

theorem State.plRun_keeps {s : State} (t op : Nat) (f : Flaw) {k : Act → Pl → Nat → State → PlRes}
    (hk : ∀ a p w, s.kept.Keeps (k a p w s).2.kept) : s.kept.Keeps (s.plRun t op f k).kept := by
  unfold State.plRun
  grind [State.plFail_kept, State.mark_kept, State.plDone_kept, Kept.Keeps.refl]

/-! ## Functions of Machine/Memory.lean -/

theorem State.readVault_keeps (s : State) (w : Who) (a n : Nat) : s.kept.Keeps (s.readVault w a n).2.kept := by
  have h := s.sameMem_readVault w a n
  unfold State.readVault at h ⊢
  grind [Kept.Keeps.of_eq, State.kept, State.countCe_kept, State.queueWb_kept, State.cancelWb_kept, State.plog_kept,
    State.countUe_kept, Kept.Keeps.refl]

theorem State.writeVault_keeps (s : State) (w : Who) (a : Nat) (bs : List Byte) : s.kept.Keeps (s.writeVault w a bs).2.kept := by
  unfold State.writeVault
  split
  · exact .refl _
  split
  · exact .refl _
  extract_lets k g s0 store s1
  have h0 : s0.kept = s.kept := by
    simp only [s0]
    grind [State.setDirty_kept, State.mirrorSpare_kept, State.cancelWb_kept]
  have hs : s.kept.Keeps (store s0).kept := 
    .trans (.of_kept h0) ⟨rfl, writeMem_wf _ _ _, id, .refl _⟩
  have h1 : s0.kept.Keeps s1.kept := .of_eq rfl rfl rfl rfl
  clear_value s1
  split
  · exact hs
  split
  · exact hs
  · exact hs.trans (.of_kept (State.countCe_kept ..))
  · refine Kept.Keeps.trans (.of_kept h0) (h1.trans (.of_kept ?_))
    exact (State.countUe_kept ..).trans (State.plog_kept ..)
  · exact .of_kept ((State.plog_kept ..).trans h0)

theorem State.writeMere_keeps (s : State) (o : Nat) (bs : List Byte) : s.kept.Keeps (s.writeMere o bs).2.kept := by
  unfold State.writeMere
  extract_lets ecc s0
  split
  · exact .refl _
  · exact ⟨rfl, id, writeMem_wf bs _ o, .refl _⟩

/-! ## Functions of Machine/Weir.lean -/

theorem State.readWeir_keeps (s : State) (w : Who) (a n : Nat) : s.kept.Keeps (s.readWeir w a n).2.kept := by
  unfold State.readWeir
  grind [Kept.Keeps.refl, → Kept.Keeps.trans, State.readVault_keeps, State.weirFor_kept]

theorem State.writeWeir_keeps (s : State) (w : Who) (a : Nat) (bs : List Byte) :
    s.kept.Keeps (s.writeWeir w a bs).2.kept := by
  unfold State.writeWeir
  grind [Kept.Keeps.refl, → Kept.Keeps.trans, State.writeVault_keeps, State.weirFor_kept]

/-! ## Functions of Machine/Access.lean -/

theorem State.readPiece_keeps (s : State) (c va n : Nat) (pinned first : Bool) (w : Who) :
    s.kept.Keeps (s.readPiece c va n pinned first w).2.kept := by
  unfold State.readPiece
  grind [Kept.Keeps.refl, → Kept.Keeps.trans, State.readMere_kept, State.readWeir_keeps, State.countUnit_kept, State.xlFail_kept]

theorem State.writePiece_keeps (s : State) (c va : Nat) (bs : List Byte) (pinned first : Bool) (w : Who) :
    s.kept.Keeps (s.writePiece c va bs pinned first w).2.kept := by
  unfold State.writePiece
  grind [Kept.Keeps.refl, → Kept.Keeps.trans, State.writeMere_keeps, State.writeWeir_keeps, State.countUnit_kept, State.xlFail_kept]

theorem State.readLoop_keeps (c : Nat) (pinned : Bool) (w : Who) (n : Nat) (first : Bool) (s : State) (va m : Nat) (acc : List Byte) :
    s.kept.Keeps (State.readLoop c pinned w n first s va m acc).2.kept := by
  induction n generalizing first s va m acc with
  | zero => exact .refl _
  | succ n ih => unfold State.readLoop; grind [Kept.Keeps.refl, → Kept.Keeps.trans, State.readPiece_keeps]

theorem State.readVa_keeps (s : State) (c va n : Nat) (pinned : Bool) (w : Who) :
    s.kept.Keeps (s.readVa c va n pinned w).2.kept := by
  unfold State.readVa
  grind [Kept.Keeps.refl, → Kept.Keeps.trans, State.readLoop_keeps]

theorem State.writeLoop_keeps (c : Nat) (pinned : Bool) (w : Who) (n : Nat) (first : Bool) (s : State) (va : Nat) (bs : List Byte) :
    s.kept.Keeps (State.writeLoop c pinned w n first s va bs).2.kept := by
  induction n generalizing first s va bs with
  | zero => exact .refl _
  | succ n ih => unfold State.writeLoop; grind [Kept.Keeps.refl, → Kept.Keeps.trans, State.writePiece_keeps]

theorem State.writeVa_keeps (s : State) (c va : Nat) (bs : List Byte) (pinned : Bool) (w : Who) :
    s.kept.Keeps (s.writeVa c va bs pinned w).2.kept := by
  unfold State.writeVa
  grind [Kept.Keeps.refl, → Kept.Keeps.trans, State.writeLoop_keeps]

theorem State.readPhys_keeps (w : Who) (n : Nat) (s : State) (a m : Nat) (acc : List Byte) :
    s.kept.Keeps (State.readPhys w n s a m acc).2.kept := by
  induction n generalizing s a m acc with
  | zero => exact .refl _
  | succ n ih => unfold State.readPhys; grind [Kept.Keeps.refl, → Kept.Keeps.trans, State.readVault_keeps]

theorem State.writePhys_keeps (w : Who) (n : Nat) (s : State) (a : Nat) (bs : List Byte) :
    s.kept.Keeps (State.writePhys w n s a bs).2.kept := by
  induction n generalizing s a bs with
  | zero => exact .refl _
  | succ n ih => unfold State.writePhys; grind [Kept.Keeps.refl, → Kept.Keeps.trans, State.writeVault_keeps]

/-! ## Functions of Machine/Polders.lean -/

theorem State.zeroBytes_keeps (s : State) (z : ZeroItem) (off n : Nat) : s.kept.Keeps (s.zeroBytes z off n).kept := by
  have zeros (k m : Nat) (v : SMap Byte) (h : Memory.wf v = true) := zeroRange_wf k m h
  cases z with
  | way w => exact .of_eq rfl rfl rfl rfl
  | mereUnit u => exact ⟨rfl, id, zeros _ _ _, .refl _⟩
  | extent e =>
    simp only [State.zeroBytes]
    refine Kept.Keeps.trans ?_ (State.foldl_keeps (fun t i => ?_) _ _)
    · exact .of_eq rfl rfl rfl rfl
    split
    · exact .refl _
    split
    · exact .refl _
    · exact ⟨rfl, zeros _ _ _, id, .refl _⟩

theorem State.zeroStep_keeps (s : State) (j : ZeroJob) (n : Nat) : s.kept.Keeps (s.zeroStep j n).kept := by
  unfold State.zeroStep
  grind [Kept.Keeps.refl, → Kept.Keeps.trans, State.kept, State.bump_kept, State.zeroBytes_keeps, State.cleaned_kept]

theorem State.resourceZeroed_keeps (s : State) : s.kept.Keeps s.resourceZeroed.kept := by
  unfold State.resourceZeroed
  grind [Kept.Keeps.refl, → Kept.Keeps.trans, State.zeroStep_keeps]

/-! ## Functions of Machine/Plans.lean -/

theorem State.planLoadEnd_keeps (s : State) (op : LongOp) (image : List Byte) (cpl : Cpl) (va ctx : Nat) :
    s.kept.Keeps (s.planLoadEnd op image cpl va ctx).kept := by
  unfold State.planLoadEnd
  grind [Kept.Keeps.refl, → Kept.Keeps.trans, State.endOp_kept, State.endFree_kept, State.writeVa_keeps, State.stagePlan_kept, State.plnStatus_kept, State.freeStatus_kept]

theorem State.planLoadStep_keeps (s : State) (op : LongOp) (image : List Byte) (cpl : Cpl) (va ctx n : Nat) :
    s.kept.Keeps (s.planLoadStep op image cpl va ctx n).kept := by
  unfold State.planLoadStep
  grind [Kept.Keeps.refl, → Kept.Keeps.trans, State.wr_kept, State.setOp_kept, State.planLoadEnd_keeps]

/-! ## Functions of Machine/Steps.lean -/

theorem State.descOf_keeps (s : State) (a : Act) : s.kept.Keeps (s.descOf a).2.kept := by
  unfold State.descOf
  grind [Kept.Keeps.refl, → Kept.Keeps.trans, State.readVa_keeps]

theorem State.withDesc_keeps {s0 s : State} (h : s0.kept.Keeps s.kept) (a : Act) {k : List Byte → State → State}
    (hk : ∀ d t, s0.kept.Keeps t.kept → s0.kept.Keeps (k d t).kept) : s0.kept.Keeps (s.withDesc a k).kept := by
  have hd := h.trans (s.descOf_keeps a)
  unfold State.withDesc
  split <;> rename_i he <;> rw [he] at hd
  · exact hk _ _ hd
  · exact hd.trans (.of_kept (State.failRun_kept _ _ _))

theorem State.withDescLate_keeps {s0 s : State} (h : s0.kept.Keeps s.kept) (a : Act) {k : List Byte → State → State}
    (hk : ∀ d t, s0.kept.Keeps t.kept → s0.kept.Keeps (k d t).kept) : s0.kept.Keeps (s.withDescLate a k).kept := by
  have hd := h.trans (s.descOf_keeps a)
  unfold State.withDescLate
  split <;> rename_i he <;> rw [he] at hd
  · exact hk _ _ hd
  · exact hd.trans (.of_kept (State.late_kept _ _ _ _))

theorem State.get_keeps (s : State) (a : Act) (va n : Nat) : s.kept.Keeps (s.get a va n).2.kept := by
  unfold State.get
  grind [Kept.Keeps.refl, → Kept.Keeps.trans, State.readVa_keeps]

theorem State.put_keeps (s : State) (a : Act) (va : Nat) (bs : List Byte) : s.kept.Keeps (s.put a va bs).2.kept := by
  unfold State.put
  grind [Kept.Keeps.refl, → Kept.Keeps.trans, State.writeVa_keeps]

theorem State.putRows_keeps (s : State) (a : Act) (l : List (Nat × List Byte)) : s.kept.Keeps (s.putRows a l).2.kept := by
  induction l generalizing s with
  | nil => exact .refl _
  | cons x l ih => unfold State.putRows; grind [Kept.Keeps.refl, → Kept.Keeps.trans, State.put_keeps]

theorem State.getAll_keeps (s : State) (a : Act) (l : List (Nat × Nat)) (acc : List Byte) : s.kept.Keeps (s.getAll a l acc).2.kept := by
  induction l generalizing s acc with
  | nil => exact .refl _
  | cons x l ih => unfold State.getAll; grind [Kept.Keeps.refl, → Kept.Keeps.trans, State.get_keeps]

/-! ## Functions of Machine/Movers.lean -/

theorem State.ladleUnit_keeps (s : State) (a : Act) (d : LadleDesc) (o : Nat) :
    s.kept.Keeps (s.ladleUnit a d o).2.kept := by
  unfold State.ladleUnit
  grind [Kept.Keeps.refl, → Kept.Keeps.trans, State.fresh_kept, State.get_keeps]

theorem State.ladleLoop_keeps (a : Act) (d : LadleDesc) (n : Nat) (s : State) (o : Nat) : s.kept.Keeps (State.ladleLoop a d n s o).kept := by
  induction n generalizing s o with
  | zero => exact .of_kept (s.workDone_kept a)
  | succ n ih =>
    unfold State.ladleLoop
    grind [Kept.Keeps.refl, → Kept.Keeps.trans, State.workDone_kept, State.setData_kept, State.stall_kept,
      State.ladleUnit_keeps, State.put_keeps, State.failRun_kept]

theorem State.ladle_keeps (s : State) (id i op : Nat) (f : Flaw) : s.kept.Keeps (s.ladle id i op f).kept := by
  unfold State.ladle
  refine State.onStep_keeps _ _ _ fun a => State.flawed_keeps a f fun t ht => State.withDesc_keeps (.of_kept ht) a fun d u hu => ?_
  grind [Kept.Keeps.refl, → Kept.Keeps.trans, State.ladleLoop_keeps, State.count_kept, State.countP_kept, State.late_kept,
    State.foldl_kept]

theorem State.output_keeps (s : State) (id i : Nat) : s.kept.Keeps (s.output id i).kept := by
  unfold State.output
  refine State.onStep_keeps _ _ _ fun a => State.withDesc_keeps (.refl _) a fun d u hu => ?_
  grind [Kept.Keeps.refl, → Kept.Keeps.trans, State.workDone_kept, State.bumpi_kept, State.failRun_kept, State.get_keeps,
    State.outWrite_kept]

/-! ## Functions of Machine/Hummock.lean -/

theorem State.dredgeLoop_keeps (w : Who) (o : Nat) (bad : List Nat) (n : Nat) (first hit : Bool) (s : State) (a m : Nat) (acc : List Byte) :
    s.kept.Keeps (State.dredgeLoop w o bad n first hit s a m acc).2.kept := by
  induction n generalizing first hit s a m acc with
  | zero => exact .refl _
  | succ n ih => unfold State.dredgeLoop; grind [Kept.Keeps.refl, → Kept.Keeps.trans, State.lookup_kept, State.countUnit_kept, State.readWeir_keeps]

theorem State.dredge_keeps (s : State) (w : Who) (o : Nat) (bad : List Nat) (a n : Nat) :
    s.kept.Keeps (s.dredge w o bad a n).2.kept := by
  unfold State.dredge
  grind [Kept.Keeps.refl, → Kept.Keeps.trans, State.dredgeLoop_keeps]

theorem State.lineReads_keeps (s : State) (line : Nat) : s.kept.Keeps (s.lineReads line).2.kept := by
  unfold State.lineReads
  refine foldl_keeps_of (β := Bool × State) Prod.snd (fun x i => ?_) _ (true, s)
  grind [State.readVault_keeps]

theorem State.pinLine_keeps {s t : State} {p line : Nat} (h : s.pinLine p line = some t) : s.kept.Keeps t.kept := by
  unfold State.pinLine at h
  grind [Kept.Keeps.refl, → Kept.Keeps.trans, State.install_kept, State.countP_kept, State.lineReads_keeps]

theorem State.pinRow_keeps {s t : State} {p row : Nat} {x : TableSlot} (h : s.pinRow p x row = some t) : s.kept.Keeps t.kept := by
  have hl (l : List Nat) (x : Option State) (hx : ∀ u, x = some u → s.kept.Keeps u.kept) (t : State)
      (ht : l.foldl (fun x l => x.bind (fun u => u.pinLine p l)) x = some t) : s.kept.Keeps t.kept := by
    induction l generalizing x with
    | nil => exact hx t ht
    | cons i l ih =>
      refine ih _ (fun u hu => ?_) ht
      obtain ⟨v, hv, hu⟩ := Option.bind_eq_some_iff.1 hu
      exact (hx v hv).trans (State.pinLine_keeps hu)
  unfold State.pinRow at h
  split at h
  · exact Option.some.inj h ▸ .refl _
  · exact hl _ _ (fun u hu => Option.some.inj hu ▸ .refl _) t h

theorem State.hmkRows_keeps (p op table n : Nat) (s : State) (row k : Nat) : s.kept.Keeps (State.hmkRows p op table n s row k).2.2.kept := by
  induction n generalizing s row k with
  | zero => exact .refl _
  | succ n ih => unfold State.hmkRows; grind [Kept.Keeps.refl, → Kept.Keeps.trans, → State.pinRow_keeps, State.unpin_kept]

theorem State.hmkStep_keeps (s : State) (op : LongOp) (code table first count n : Nat) :
    s.kept.Keeps (s.hmkStep op code table first count n).kept := by
  unfold State.hmkStep
  grind [Kept.Keeps.refl, → Kept.Keeps.trans, State.wr_kept, State.setOp_kept, State.endOp_kept, State.endFree_kept, State.unpin_kept, State.hmkRows_keeps]

/-! ## Functions of Machine/Embedding.lean -/

theorem State.hashRow_keeps (s : State) (a : Act) (t : TableSlot) (x : Nat) : s.kept.Keeps (s.hashRow a t x).2.kept := by
  unfold State.hashRow
  grind [Kept.Keeps.refl, → Kept.Keeps.trans, State.readVa_keeps]

theorem State.punchBag_keeps (a : Act) (slot : Nat) (t : TableSlot) (q : Nat → Bool) (l : List Nat) (s : State) (rows : List (Nat × Nat))
    (vs : List Nat) (es : List Err) : s.kept.Keeps (State.punchBag a slot t q l s rows vs es).1.kept := by
  induction l generalizing s rows vs es with
  | nil => exact .refl _
  | cons x l ih => unfold State.punchBag; grind [Kept.Keeps.refl, → Kept.Keeps.trans, State.hashRow_keeps, State.rowVault_kept]

theorem State.punchOne_keeps (s : State) (a : Act) (b : BagSet) (q : Nat → Bool) (slot : Nat) (idx : List Nat)
    (x : PunchOut × List Nat) : s.kept.Keeps (s.punchOne a b q slot idx x).1.st.kept := by
  unfold State.punchOne
  grind [Kept.Keeps.refl, State.punchBag_keeps]

theorem State.punchBags_keeps (s : State) (a : Act) (b : BagSet) (x : BagIdx) : s.kept.Keeps (s.punchBags a b x).1.st.kept := by
  unfold State.punchBags
  extract_lets q start bags
  have h : s.kept.Keeps bags.1.st.kept :=
    foldl_keeps_of (fun x : PunchOut × List Nat => x.1.st) (fun x _ => x.1.st.punchOne_keeps _ _ _ _ _ x) _ start
  exact h.trans (foldl_keeps_of (fun x : PunchOut × List Nat => x.1.st) (fun x _ => x.1.st.punchOne_keeps _ _ _ _ _ x) _ bags)

theorem State.punchAll_keeps (s : State) (a : Act) (b : BagSet) (x : BagIdx) : s.kept.Keeps (s.punchAll a b x).st.kept := by
  unfold State.punchAll
  grind [Kept.Keeps.refl, State.punchBags_keeps, State.punchCount_kept]

theorem State.punchWork_keeps (s : State) (a : Act) (b : BagSet) : s.kept.Keeps (s.punchWork a b).kept := by
  have h := s.punchAll_keeps a b (bagBounds a b)
  unfold State.punchWork
  grind [State.foldl_kept, State.late_kept, State.modRun_kept, State.setData_kept, State.workDone_kept]

theorem gatherRow_keeps (a : Act) (bad : List Nat) (bag slot row : Nat) (g : GatherOut) :
    g.st.kept.Keeps (gatherRow a bad bag slot row g).st.kept := by
  unfold gatherRow
  split
  · exact .refl _
  split
  · exact .refl _
  next t _ =>
  split
  · next x _ =>
    split
    · exact .refl _
    split
    · exact .refl _
    have h := g.st.dredge_keeps a.who a.run.owner bad x t.readLen
    split <;> rename_i he <;> rw [he] at h
    · exact h
    · split <;> exact h
  · exact .refl _
  · exact .of_kept (State.xlFail_kept ..)
  · exact .of_kept (State.xlFail_kept ..)

theorem State.scalesOf_keeps (s : State) (a : Act) (t : TableSlot) : s.kept.Keeps (s.scalesOf a t).2.kept := by
  unfold State.scalesOf
  grind [Kept.Keeps.refl, → Kept.Keeps.trans, State.readVa_keeps]

theorem State.finishBags_keeps (a : Act) (b : BagSet) (bags : List (List (Nat × Nat))) (parts : List (Nat × Nat × List Nat)) (n i : Nat)
    (s : State) : s.kept.Keeps (State.finishBags a b bags parts n i s).kept := by
  induction n generalizing i s with
  | zero => exact .of_kept (s.workDone_kept a)
  | succ n ih =>
    unfold State.finishBags
    extract_lets single slot mean va rows
    split
    · exact .of_kept (s.workDone_kept a)
    split
    · exact .of_kept (s.failRun_kept _ _)
    next t _ =>
    have h := s.scalesOf_keeps a t
    split <;> rename_i he <;> rw [he] at h
    · exact h.trans (.of_kept (State.failRun_kept ..))
    next sc s1 =>
    extract_lets out
    split
    · exact h.trans (.of_kept ((State.stall_kept ..).trans (State.setData_kept ..)))
    have h2 := h.trans (s1.put_keeps a va out)
    split <;> rename_i he <;> rw [he] at h2
    · exact h2.trans (.of_kept (State.failRun_kept ..))
    · exact h2.trans (ih _ _)

theorem State.gatherAll_keeps (s : State) (a : Act) (ev : GatherEv) (bags : List (List (Nat × Nat))) : s.kept.Keeps (s.gatherAll a ev bags).st.kept := by
  unfold State.gatherAll
  exact foldl_keeps_of GatherOut.st (fun g x => foldl_keeps_of GatherOut.st (fun h r => gatherRow_keeps _ _ _ _ _ h) _ g) _
    { st := s, parts := _, gone := _, rows := _, fail := _ }

theorem State.finishFrom_keeps (s : State) (a : Act) (b : BagSet) (bags : List (List (Nat × Nat))) (parts : List (Nat × Nat × List Nat)) (i : Nat) :
    s.kept.Keeps (s.finishFrom a b bags parts i).kept := by
  unfold State.finishFrom
  grind [Kept.Keeps.refl, → Kept.Keeps.trans, State.countP_kept, State.finishBags_keeps]

theorem State.gatherWork_keeps (s : State) (a : Act) (ev : GatherEv) (b : BagSet) (bags : List (List (Nat × Nat))) :
    s.kept.Keeps (s.gatherWork a ev b bags).kept := by
  have h := s.gatherAll_keeps a ev bags
  unfold State.gatherWork
  grind [→ Kept.Keeps.trans, State.finishFrom_keeps, State.countP_kept, State.failRun_kept, State.residueFail_kept,
    State.late_kept, State.setData_kept, State.workDone_kept]

/-! ## Functions of Machine/Epochs.lean -/

theorem State.solderUpdate_keeps (s : State) (id i : Nat) : s.kept.Keeps (s.solderUpdate id i).kept := by
  unfold State.solderUpdate
  refine State.onStep_keeps _ _ _ fun a => ?_
  grind [Kept.Keeps.refl, → Kept.Keeps.trans, State.descOf_keeps, State.late_kept, State.setData_kept, State.batchRecord_kept, State.solderEnd_kept]

theorem State.readTag_keeps (s : State) (a : Act) (va : Nat) : s.kept.Keeps (s.readTag a va).2.kept := by
  unfold State.readTag
  grind [Kept.Keeps.refl, → Kept.Keeps.trans, State.readVa_keeps]

theorem State.journal_keeps (s : State) (o granule slot : Nat) : s.kept.Keeps (s.journal o granule slot).2.kept := by
  unfold State.journal
  grind [Kept.Keeps.refl, → Kept.Keeps.trans, State.wr_kept, State.bump_kept, State.writeMere_keeps]

theorem State.writeCopy_keeps (s : State) (a : Act) (va : Nat) (bs : List Byte) :
    s.kept.Keeps (s.writeCopy a va bs).2.kept := by
  unfold State.writeCopy
  grind [Kept.Keeps.refl, → Kept.Keeps.trans, State.writeVa_keeps]

theorem State.applyEntry_keeps (s : State) (a : Act) (h body : List Byte) (x : UpdEntry) (t : TableSlot) : s.kept.Keeps (s.applyEntry a h body x t).2.2.kept := by
  unfold State.applyEntry
  extract_lets o va c strict tower
  have h1 := s.readTag_keeps a va
  split
  next t0 s1 he =>
  rw [he] at h1
  have h2 := h1.trans (s1.readTag_keeps a (va + c))
  split
  next t1 s2 he =>
  rw [he] at h2
  extract_lets src inPlace target
  clear_value src
  split
  · exact h2
  split
  next got s3 he =>
  have h3 : s.kept.Keeps s3.kept := by
    split at he
    · cases he; exact h2
    · next k _ _ =>
      have h := h2.trans (s2.readVa_keeps a.run.ctx (va + k * c) c true a.who)
      rw [he] at h
      exact h
  split
  · exact h3
  next old =>
  have h4 := h3.trans (s3.scalesOf_keeps a t)
  split <;> rename_i he4 <;> rw [he4] at h4
  · exact h4
  next scales s4 =>
  extract_lets acc
  split
  next pay acc' sat _ =>
  extract_lets cnt pad data
  have hc (u : State) (hu : s.kept.Keeps u.kept) : s.kept.Keeps (cnt u).kept := by
    simp only [cnt]
    split
    · exact hu.trans (.of_kept ((State.countP_kept ..).trans ((State.count_kept ..).trans (State.bump_kept ..))))
    · exact hu
  clear_value cnt
  split
  · exact hc _ h4
  split
  next je s5 he5 =>
  have h5 : s.kept.Keeps s5.kept := by
    split at he5
    · cases he5; exact h4
    split at he5
    · next p _ =>
      have h := h4.trans (s4.journal_keeps o (p / 32) x.slot)
      rw [he5] at h
      exact h
    · cases he5; exact h4
  split
  · exact h5
  have h7 := h5.trans (s5.writeCopy_keeps a (va + target * c) (data ++ leBytes (c - data.length) pad))
  split <;> rename_i he7 <;> rw [he7] at h7
  · exact h7
  · exact hc _ (h7.trans (.of_kept ((State.countP_kept ..).trans ((State.count_kept ..).trans (State.wr_kept ..)))))

theorem State.updateEntry_keeps (s : State) (id i op : Nat) : s.kept.Keeps (s.updateEntry id i op).kept := by
  unfold State.updateEntry
  refine State.onStep_keeps _ _ _ fun a => ?_
  extract_lets d last fin
  split
  · exact .refl _
  have h := s.descOf_keeps a
  split <;> rename_i he <;> rw [he] at h
  · exact h.trans (.of_kept (State.late_kept ..))
  next bs s1 =>
  split
  · exact .refl _
  split
  · exact .refl _
  next head body _ _ x t _ _ =>
  split
  · exact .refl _
  extract_lets tower
  have hf (u : State) (hu : s.kept.Keeps u.kept) : s.kept.Keeps (fin u).kept := by
    simp only [fin]
    split
    · exact hu.trans (.of_kept (State.solderEnd_kept ..))
    · exact hu
  split
  · exact hf _ (h.trans (.of_kept (State.setData_kept ..)))
  have h2 := h.trans (s1.applyEntry_keeps a head body x t)
  split
  next e stop s2 he =>
  rw [he] at h2
  extract_lets d' s3
  have h3 : s.kept.Keeps s3.kept := h2.trans (.of_kept (State.setData_kept ..))
  refine hf _ ?_
  split
  · exact h3.trans (.of_kept (State.late_kept ..))
  · exact h3

theorem State.abandonEntry_keeps (s : State) (o i : Nat) : s.kept.Keeps (s.abandonEntry o i).kept := by
  unfold State.abandonEntry
  grind [Kept.Keeps.refl, → Kept.Keeps.trans, State.writePhys_keeps, State.readMereN_kept]

theorem State.abandonStep_keeps (s : State) (op : LongOp) (n : Nat) : s.kept.Keeps (s.abandonStep op n).kept := by
  unfold State.abandonStep
  grind [Kept.Keeps.refl, → Kept.Keeps.trans, State.wr_kept, State.setOp_kept, State.endOp_kept, State.epClear_kept, State.abandonEntry_keeps, State.foldl_kept, State.foldl_keeps]

/-! ## Functions of Machine/Anvil.lean -/

theorem State.getList_keeps (s : State) (a : Act) (l : List (Nat × Nat)) (acc : List (List Byte)) :
    s.kept.Keeps (s.getList a l acc).2.kept := by
  induction l generalizing s acc with
  | nil => exact .refl _
  | cons x l ih => unfold State.getList; grind [Kept.Keeps.refl, → Kept.Keeps.trans, State.get_keeps]

theorem State.anvilIn_keeps (s : State) (a : Act) (d : AnvilDesc) : s.kept.Keeps (s.anvilIn a d).2.kept := by
  unfold State.anvilIn
  grind [Kept.Keeps.refl, → Kept.Keeps.trans, State.getList_keeps, State.loadScales_kept]

theorem State.tilesOut_keeps (s : State) (a : Act) (d : AnvilDesc) (i : AnvilIn) (l : List (Nat × Nat)) :
    s.kept.Keeps (s.tilesOut a d i l).2.kept := by
  induction l generalizing s with
  | nil => exact .refl _
  | cons x l ih => unfold State.tilesOut; grind [Kept.Keeps.refl, → Kept.Keeps.trans, State.putRows_keeps, State.count_kept, State.countP_kept]

theorem State.anvil_keeps (s : State) (id i path : Nat) (f : Flaw) (hit : Option (Nat × Nat)) :
    s.kept.Keeps (s.anvil id i path f hit).kept := by
  unfold State.anvil
  refine State.onStep_keeps _ _ _ fun a => State.flawed_keeps a f fun t ht => State.withDesc_keeps (.of_kept ht) a fun d u hu => ?_
  grind [Kept.Keeps.refl, → Kept.Keeps.trans, State.kept, State.anvilIn_keeps, State.tilesOut_keeps, State.failRun_kept,
    State.anvilMismatch_kept, State.workDone_kept]

/-! ## Functions of Machine/Planisher.lean -/

theorem State.plLoad_keeps (s : State) (t op : Nat) (f : Flaw) : s.kept.Keeps (s.plLoad t op f).kept := by
  unfold State.plLoad
  refine State.plRun_keeps _ _ _ fun a p w => ?_
  grind [State.getList_keeps]

theorem State.plStore_keeps (s : State) (t op : Nat) (f : Flaw) : s.kept.Keeps (s.plStore t op f).kept := by
  unfold State.plStore
  refine State.plRun_keeps _ _ _ fun a p w => ?_
  grind [Kept.Keeps.refl, → Kept.Keeps.trans, State.getList_keeps, State.putRows_keeps]

/-! ## Functions of Machine/TarnRiddle.lean -/

theorem State.slabRead_keeps (s : State) (a : Act) (bad : List Nat) (va n : Nat) :
    s.kept.Keeps (s.slabRead a bad va n).2.kept := by
  unfold State.slabRead
  refine foldl_keeps_of (β := Got × State) Prod.snd (fun x p => ?_) _ (.bytes [], s)
  grind [Kept.Keeps.refl, State.dredge_keeps]

theorem State.slabWrite_keeps (s : State) (a : Act) (va : Nat) (bs : List Byte) :
    s.kept.Keeps (s.slabWrite a va bs).2.kept := by
  unfold State.slabWrite
  grind [Kept.Keeps.refl, → Kept.Keeps.trans, State.writeVa_keeps]

theorem State.slabHeader_keeps (s : State) (a : Act) (bad : List Nat) (b : Slab) :
    s.kept.Keeps (s.slabHeader a bad b).2.2.kept := by
  unfold State.slabHeader
  grind [Kept.Keeps.refl, → Kept.Keeps.trans, State.slabRead_keeps]

theorem State.slabOpen_keeps (s : State) (a : Act) (d : TarnDesc) (bad : List Nat) (ranges : Slab → Option SlabHdr → List (Nat × Nat)) :
    s.kept.Keeps (s.slabOpen a d bad ranges).2.kept := by
  unfold State.slabOpen
  grind [Kept.Keeps.refl, → Kept.Keeps.trans, State.slabCodes_kept, State.slabHeader_keeps]

theorem State.slabOp_keeps {s : State} (id i op : Nat) (f : Flaw) (bad : List Nat) {q : TarnDesc → Slab → Option SlabHdr → List (Nat × Nat)}
    {go : Act → TarnDesc → Slab → SlabHdr → State → List Err × State}
    (hg : ∀ (a : Act) (d : TarnDesc) (b : Slab) (h : SlabHdr) (t : State), t.kept.Keeps (go a d b h t).2.kept) : s.kept.Keeps (s.slabOp id i op f bad q go).kept := by
  unfold State.slabOp
  refine State.onStep_keeps _ _ _ fun a => State.flawedLate_keeps a f fun t ht =>
    State.withDescLate_keeps (.of_kept ht) a fun bs u hu => ?_
  extract_lets d
  split
  · exact .refl _
  have h := hu.trans (u.slabOpen_keeps a d bad (q d))
  split <;> rename_i he <;> rw [he] at h
  · exact h.trans (.of_kept (State.lateAll_kept ..))
  next b hd gs t =>
  have h2 := (h.trans (.of_kept (t.tarnItems_kept a gs.length))).trans (hg a d b hd _)
  split <;> rename_i he <;> rw [he] at h2
  · exact h2.trans (.of_kept (State.workDone_kept ..))
  · exact h2.trans (.of_kept (State.lateAll_kept ..))

theorem State.slabList_keeps (s : State) (a : Act) (bad : List Nat) (n : Nat) (l : List Nat) (acc : List (List Byte)) :
    s.kept.Keeps (s.slabList a bad n l acc).2.kept := by
  induction l generalizing s acc with
  | nil => exact .refl _
  | cons x l ih => unfold State.slabList; grind [Kept.Keeps.refl, → Kept.Keeps.trans, State.slabRead_keeps]

theorem State.windowLayers_keeps (s : State) (a : Act) (bad : List Nat) (d : TarnDesc) (b : Slab) (slots l : List Nat) :
    s.kept.Keeps (s.windowLayers a bad d b slots l).2.kept := by
  induction l generalizing s with
  | nil => exact .refl _
  | cons x l ih => unfold State.windowLayers; grind [Kept.Keeps.refl, → Kept.Keeps.trans, State.slabList_keeps, State.put_keeps]

theorem State.slabRows_keeps (s : State) (a : Act) (l : List (Nat × List Byte)) : s.kept.Keeps (s.slabRows a l).2.kept := by
  induction l generalizing s with
  | nil => exact .refl _
  | cons x l ih => unfold State.slabRows; grind [Kept.Keeps.refl, → Kept.Keeps.trans, State.slabWrite_keeps]

theorem State.slabUnpin_keeps (s : State) (a : Act) (b : Slab) (h : SlabHdr) : s.kept.Keeps (s.slabUnpin a b h).2.kept := by
  unfold State.slabUnpin
  grind [Kept.Keeps.refl, → Kept.Keeps.trans, State.unpin_kept, State.slabWrite_keeps]

theorem State.slabPinLine_keeps (s : State) (a : Act) (bad : List Nat) (p line : Nat) :
    s.kept.Keeps (s.slabPinLine a bad p line).2.2.kept := by
  unfold State.slabPinLine
  grind [Kept.Keeps.refl, → Kept.Keeps.trans, State.bump_kept, State.countP_kept, State.install_kept, State.dredge_keeps]

theorem State.appendBeam_keeps (s : State) (id i : Nat) (f : Flaw) : s.kept.Keeps (s.appendBeam id i f).kept := by
  unfold State.appendBeam
  refine State.onStep_keeps _ _ _ fun a => State.flawed_keeps a f fun t ht => State.withDesc_keeps (.of_kept ht) a fun d u hu => ?_
  grind [Kept.Keeps.refl, → Kept.Keeps.trans, State.get_keeps, State.getList_keeps, State.putRows_keeps, State.failRun_kept,
    State.late_kept, State.workDone_kept]

theorem State.riddle_keeps (s : State) (id i : Nat) (beam : Bool) (f : Flaw) :
    s.kept.Keeps (s.riddle id i beam f).kept := by
  unfold State.riddle
  refine State.onStep_keeps _ _ _ fun a => State.flawed_keeps a f fun t ht => State.withDescLate_keeps (.of_kept ht) a fun d u hu => ?_
  grind [Kept.Keeps.refl, → Kept.Keeps.trans, State.getList_keeps, State.put_keeps, State.late_kept, State.bump_kept, State.count_kept,
    State.countP_kept, State.workDone_kept]

/-! ## Functions of Machine/Remote.lean -/

theorem State.reqData_keeps (s : State) (a : Act) (d : RemDesc) (r : Nat) : s.kept.Keeps (s.reqData a d r).2.kept := by
  unfold State.reqData
  grind [Kept.Keeps.refl, → Kept.Keeps.trans, State.get_keeps]

theorem State.sendReqs_keeps (a : Act) (d : RemDesc) (g : GrantRef) (n : Nat) (s : State) (r j tag all : Nat) :
    s.kept.Keeps (State.sendReqs a d g n s r j tag all).kept := by
  induction n generalizing s r j tag all with
  | zero => exact .refl _
  | succ n ih =>
    have sk (t : State) (h : s.kept.Keeps t.kept) (e : Err) : s.kept.Keeps (t.notSent a d e).kept :=
      h.trans (.of_kept (t.notSent_kept a d e))
    unfold State.sendReqs
    split
    · exact .of_kept ((State.remoteCheck_kept _ _ _).trans (s.remoteAt_kept a r 0 0 all))
    have skip (t : State) (h : s.kept.Keeps t.kept) : s.kept.Keeps (State.sendReqs a d g n t (r + 1) 0 0 all).kept :=
      h.trans (ih _ _ _ _ _)
    extract_lets sk' q key tooMany 
    split
    · exact skip _ (.refl _)
    split
    · exact skip _ (sk _ (.refl _) _)
    split
    · exact skip _ (sk _ (.refl _) _)
    split
    · split
      · exact skip _ (sk _ (.refl _) _)
      · exact skip _ (.refl _)
    split
    · exact skip _ (sk _ (.refl _) _)
    split
    · exact .of_kept ((State.stall_kept ..).trans (s.remoteAt_kept a r j tag all))
    have h := s.reqData_keeps a d r
    split <;> rename_i he <;> rw [he] at h
    · exact skip _ (sk _ h _)
    · exact h.trans (.of_kept (State.failRun_kept _ _ _))
    next data s1 =>
    split
    · exact h.trans (.of_kept (State.remoteAt_kept ..))
    have hn : s.kept.Keeps (if j = 0 then s1.newTag else (tag, s1)).2.kept := by
      split
      · exact h.trans (.of_kept (State.newTag_kept _))
      · exact h
    split
    next tag' s2 hx =>
    rw [hx] at hn
    extract_lets msg k s3 x s4
    have h3 : s.kept.Keeps s3.kept := hn.trans (.of_kept (State.sendFlit_kept ..))
    have h4 : s.kept.Keeps s4.kept := by
      refine h3.trans (.of_kept ?_)
      simp only [s4]
      split
      · exact (State.countP_kept ..).trans rfl
      · rfl
    split
    · exact h4.trans (ih ..)
    · exact h4.trans (ih ..)

theorem State.remoteStep_keeps (s : State) (a : Act) (push : Bool) : s.kept.Keeps (s.remoteStep a push).kept := by
  unfold State.remoteStep
  grind [Kept.Keeps.refl, → Kept.Keeps.trans, State.failRun_kept, State.descOf_keeps, State.sendReqs_keeps]

theorem State.response_keeps (s : State) (n : Nat) : s.kept.Keeps (s.response n).kept := by
  unfold State.response
  split
  · exact .refl _
  next m s0 hm =>
  have h0 := State.takeMsg_kept hm
  extract_lets s1 tag status len
  have h1 : s1.kept = s.kept := (State.count_kept ..).trans h0
  clear_value s1
  split
  · exact .of_kept ((State.bump_kept ..).trans h1)
  split
  split
  · split
    · exact .of_kept (State.stall_kept ..)
    · exact .refl _
  split
  · refine .of_kept ((State.closeReq_kept ..).trans ((State.countP_kept ..).trans ?_))
    split
    · exact (State.lateRcvd_kept ..).trans h1
    · exact h1
  split
  · exact .of_kept ((State.closeReq_kept ..).trans h1)
  split
  · exact .of_kept ((State.closeReq_kept ..).trans h1)
  split
  rename_i q _ _ _ _ _ _ _ _ _ r _ _ e s2 he

  have h2 : s.kept.Keeps s2.kept := by
    split at he
    · cases he; exact .of_kept h1
    · have h := s1.writeVa_keeps r.ctx q.dst (slice m.body 16 len) false (.run r.id r.owner)
      rw [he] at h
      exact .trans (.of_kept h1) h
  split
  · exact h2.trans (.of_kept (State.failRun_kept ..))
  extract_lets s3
  have h3 : s.kept.Keeps s3.kept := h2.trans (.of_kept ((State.countP_kept ..).trans (State.closeReq_kept ..)))
  clear_value s3
  split
  · exact h3
  next a _ =>
  have h4 := h3.trans (s3.descOf_keeps a)
  split <;> rename_i he <;> rw [he] at h4
  · exact h4.trans (.of_kept (State.remoteCheck_kept ..))
  · exact h4.trans (.of_kept (State.failRun_kept ..))

theorem State.serveGather_keeps (s : State) (v : Service) (g : GrantW) (ev : GatherEv) : s.kept.Keeps (s.serveGather v g ev).2.kept := by
  unfold State.serveGather
  split
  · exact .refl _
  next t _ =>
  split
  · exact .refl _
  extract_lets a
  have h := State.punchBag_keeps a g.table t (fun _ => true) v.rows s [] [] []
  split
  next s1 rows _ codes he =>
  rw [he] at h
  split
  · exact h
  extract_lets out
  have h2 : s.kept.Keeps out.st.kept := 
    h.trans (foldl_keeps_of GatherOut.st (fun h r => gatherRow_keeps _ _ _ _ _ h) rows
      { st := s1, parts := [], gone := false, rows := 0, fail := none })
  split
  · exact h2
  split
  · exact h2.trans (.of_kept (State.residueFail_kept ..))
  have h3 := h2.trans (State.scalesOf_keeps out.st a t)
  split <;> rename_i he <;> rw [he] at h3
  · exact h3
  · exact h3

theorem State.serve_keeps (s : State) (v : Service) (ev : GatherEv) : s.kept.Keeps (s.serve v ev).2.2.2.kept := by
  unfold State.serve
  grind [Kept.Keeps.refl, → Kept.Keeps.trans, State.writeVa_keeps, State.serveGather_keeps]

theorem State.serviceEnd_keeps (s : State) (n tag : Nat) (ev : GatherEv) : s.kept.Keeps (s.serviceEnd n tag ev).kept := by
  unfold State.serviceEnd
  split
  · exact .refl _
  split
  · exact .refl _
  split
  · exact .refl _
  next i _ _ v _ =>
  extract_lets k p
  split
  · exact .refl _
  have h0 : s.kept.Keeps (State.kept { s with services := s.services.eraseIdx i }) := .of_eq rfl rfl rfl rfl
  revert h0; generalize ({ s with services := s.services.eraseIdx i } : State) = s0; intro h0
  have h := h0.trans (s0.serve_keeps v ev)
  split
  next st len data s1 he =>
  rw [he] at h
  extract_lets s2 s3
  have h2 : s.kept.Keeps s2.kept := by
    simp only [s2]
    split
    · exact h
    split
    · exact h.trans (.of_kept (State.countP_kept ..))
    · exact h.trans (.of_kept ((State.countP_kept ..).trans (State.count_kept ..)))
  refine .trans ?_ (.of_kept (State.settleGrant_kept ..))
  simp only [s3]
  split
  · exact h2.trans (.of_kept (State.sendMsg_kept ..))
  · exact h2

/-! ## Functions of Machine/Hallmark.lean -/

theorem State.logAppend_keeps (s : State) (e : LogEntry) : s.kept.Keeps (s.logAppend e).kept := by
  unfold State.logAppend
  refine .trans ?_ (.of_kept (State.hmMirror_kept _))
  exact ⟨rfl, id, id, List.prefix_append _ _, List.prefix_rfl, List.prefix_rfl⟩

theorem State.logAppend_bank_keeps (s : State) (e : LogEntry) (b : Bank) (h : s.bank.Grows b) : s.kept.Keeps (State.logAppend { s with bank := b } e).kept := by
  refine .trans ?_ (State.logAppend_keeps _ e)
  exact ⟨rfl, id, id, h⟩

theorem State.strike_keeps (s : State) (setting target : Nat) (claim : Bool) (old new : Nat) (valueOk : Bool)
    (row : Option (List Byte)) : s.kept.Keeps (s.strike setting target claim old new valueOk row).2.kept := by
  unfold State.strike
  extract_lets n i e b b1
  have hb : s.bank.Grows b1 := by
    simp only [b1, b]
    split
    · exact .refl _
    split
    · exact ⟨List.prefix_rfl, List.prefix_append _ _, List.prefix_rfl⟩
    · exact ⟨List.prefix_rfl, List.prefix_rfl, List.prefix_append _ _⟩
  split
  · exact .of_kept (s.reject_kept)
  split
  · exact State.logAppend_keeps _ _
  split
  · exact State.logAppend_keeps _ _
  · exact (s.logAppend_bank_keeps _ b1 hb).trans (.of_kept (State.strikeEffect_kept ..))

/-! ## Functions of Machine/Towers.lean -/

theorem State.readGranule_keeps (s : State) (v l : Nat) : s.kept.Keeps (s.readGranule v l).kept := by
  unfold State.readGranule
  extract_lets g
  split
  · exact .refl _
  · exact .of_kept ((State.queueWb_kept ..).trans (State.countCe_kept ..))
  split
  next a s1 hx =>
  have h : s1.kept = s.kept := by
    split at hx <;> cases hx <;> rfl
  split
  · refine .trans (.of_kept h) (.trans ?_ (.of_kept ((State.countUe_kept ..).trans ((State.plog_kept ..).trans (State.cancelWb_kept ..)))))
    exact .of_eq rfl rfl rfl rfl
  · exact .of_kept ((State.plog_kept ..).trans h)

theorem State.moveRow_keeps (s : State) (v b r : Nat) : s.kept.Keeps (s.moveRow v b r).kept := by
  refine ⟨rfl, fun h => ?_, id, .refl _⟩
  refine List.foldlRecOn (motive := fun m => Memory.wf m = true) _ _ h fun m hm k _ => writeMem_wf _ m k hm

theorem State.copyGranule_keeps (s : State) (v l : Nat) : s.kept.Keeps (s.copyGranule v l).kept := by
  unfold State.copyGranule
  grind [Kept.Keeps.refl, → Kept.Keeps.trans, State.kept, State.cancelWb_kept, State.readGranule_keeps]

theorem State.repairStrike_keeps (s : State) (op : LongOp) (c v : Nat) : s.kept.Keeps (s.repairStrike op c v).kept := by
  unfold State.repairStrike
  extract_lets t b r
  split
  · exact .of_kept (State.repairEnd_kept ..)
  split
  · exact .of_kept (State.repairEnd_kept ..)
  have h := State.strike_keeps s hmRepair v false (s.bank.strikes hmRepair v) (b + r * 16) true none
  split <;> rename_i he <;> rw [he] at h
  · exact h.trans (.of_kept (State.repairEnd_kept ..))
  · exact h.trans (.of_kept (State.repairEnd_kept ..))
  · exact h.trans (.of_kept (State.repairEnd_kept ..))
  · extract_lets rows
    refine .trans ?_ (.of_kept ((State.endOp_kept ..).trans ((State.twStatus_kept ..).trans (State.spareLeft_kept ..))))
    refine .trans ?_ (.of_kept (State.wri_kept ..))
    refine .trans ?_ (State.moveRow_keeps _ v b r)
    exact h.trans (.of_eq rfl rfl rfl rfl)

theorem State.repairStep_keeps (s : State) (op : LongOp) (c v n : Nat) : s.kept.Keeps (s.repairStep op c v n).kept := by
  unfold State.repairStep
  grind [Kept.Keeps.refl, → Kept.Keeps.trans, State.wr_kept, State.setOp_kept, State.repairEnd_kept, State.copyGranule_keeps, State.repairStrike_keeps, State.foldl_kept, State.foldl_keeps]

theorem State.scrub_keeps (s : State) (v n : Nat) : s.kept.Keeps (s.scrub v n).kept := by
  unfold State.scrub
  grind [Kept.Keeps.refl, → Kept.Keeps.trans, State.kept, State.readGranule_keeps, State.scrubPassEnd_kept, State.foldl_kept, State.foldl_keeps]

/-! ## Functions of Machine/Background.lean -/

theorem State.writeBack_keeps (s : State) (v n : Nat) : s.kept.Keeps (s.writeBack v n).kept := by
  exact .of_eq rfl rfl rfl rfl

theorem State.promote_keeps (s : State) (p t line : Nat) : s.kept.Keeps (s.promote p t line).kept := by
  unfold State.promote
  extract_lets s0
  have h0 : s.kept.Keeps s0.kept := .of_eq rfl rfl rfl rfl
  clear_value s0
  split
  · exact h0
  split
  · exact h0
  extract_lets better
  have h1 := h0.trans (s0.lineReads_keeps line)
  split
  next ok s1 hx =>
  rw [hx] at h1
  split
  · exact h1.trans (.of_kept ((State.countP_kept ..).trans ((State.count_kept ..).trans (State.install_kept ..))))
  · exact h1

theorem State.zeroTick_keeps (s : State) (j : ZeroJob) : s.kept.Keeps (s.zeroTick j).kept := by
  unfold State.zeroTick
  grind [Kept.Keeps.refl, → Kept.Keeps.trans, State.zeroStep_keeps]

theorem State.midRank_keeps {s t : State} {l slots : Nat} (h : s.midRank l slots = some t) : s.kept.Keeps t.kept := by
  unfold State.midRank at h
  split at h
  · split at h
    · exact Option.some.inj h ▸ State.writeBack_keeps ..
    split at h
    · exact Option.some.inj h ▸ State.repairStep_keeps ..
    split at h
    · split at h
      · exact Option.some.inj h ▸ State.hmkStep_keeps ..
      · contradiction
    split at h
    · contradiction
    split at h
    · exact Option.some.inj h ▸ State.promote_keeps ..
    · contradiction
  split at h
  · obtain ⟨o, _, rfl⟩ := Option.map_eq_some_iff.1 h
    exact State.abandonStep_keeps ..
  split at h
  · split at h
    · split at h
      · exact Option.some.inj h ▸ State.zeroTick_keeps ..
      · contradiction
    · contradiction
  · contradiction

theorem State.scrubTick_keeps (s : State) (l slots : Nat) : s.kept.Keeps (s.scrubTick l slots).kept := by
  unfold State.scrubTick
  grind [Kept.Keeps.refl, → Kept.Keeps.trans, State.count_kept, State.scrub_keeps]

theorem State.serveTurn_keeps (s : State) (l turn : Nat) (output : List Byte) :
    s.kept.Keeps (s.serveTurn l turn output).kept := by
  unfold State.serveTurn
  grind [Kept.Keeps.refl, → State.midRank_keeps, State.assayStep_kept, State.scrubTick_keeps, State.engineResetStep_kept]

theorem State.bgTick_keeps (s : State) (l : Nat) (output : List Byte) : s.kept.Keeps (s.bgTick l output).kept := by
  unfold State.bgTick
  split
  · exact .refl _
  extract_lets kind n s1
  have h1 : s.kept.Keeps s1.kept := .of_eq rfl rfl rfl rfl
  clear_value s1
  split
  · split
    · exact h1.trans (.of_kept ((State.countP_kept ..).trans ((State.count_kept ..).trans (State.bump_kept ..))))
    · exact h1.trans ((State.serveTurn_keeps ..).trans (.of_kept (State.countBg_kept ..)))
  split
  · exact State.scrubTick_keeps ..
  · exact .refl _

/-! ## Functions of Machine/LongOpStep.lean -/

theorem State.opStep_keeps (s : State) (op : LongOp) (n : Nat) (pt : HostTable) : s.kept.Keeps (s.opStep op n pt).kept := by
  unfold State.opStep
  grind [Kept.Keeps.refl, → Kept.Keeps.trans, State.mobWriteStep_kept, State.mobClearStep_kept, State.invStep_kept, State.planLoadStep_keeps, State.planUnloadStep_kept, State.frameLoadStep_kept, State.tblWriteStep_kept, State.tblClearStep_kept, State.hmkStep_keeps, State.publishStep_kept, State.abandonStep_keeps, State.trustStep_kept, State.repairStep_keeps, State.packStep_kept, State.fenceStep_kept]

/-! ## Functions of Machine/Power.lean -/

theorem State.powerOff_keeps (s : State) : s.kept.Keeps s.powerOff.kept := by
  exact ⟨rfl, fun _ => rfl, fun _ => rfl, .refl _⟩

/-! ## Functions of Machine/Resets.lean -/

theorem State.coldReset_keeps (s : State) : s.kept.Keeps s.coldReset.kept := by
  unfold State.coldReset
  grind [Kept.Keeps.refl, → Kept.Keeps.trans, State.kept, State.wr_kept, State.powerOff_keeps, State.setPhase_kept, State.coldValues_kept, State.foldl_kept, State.foldl_keeps]

theorem State.warmReset_keeps (s : State) (cause : Nat) : s.kept.Keeps (s.warmReset cause).kept := by
  have hv (b : Bool) (p : Nat × Byte → Bool) (h : Memory.wf s.vault = true) :
      Memory.wf (if b = true then s.vault else s.vault.filter p) = true := by
    split
    · exact h
    · exact SMap.wf_filter _ _ h
  unfold State.warmReset
  extract_lets kept live isExt quar zero board empty base s1 busy s2 s3 s4 s5
  have h0 : s.kept.Keeps base.kept := by
    refine ⟨rfl, fun h => ?_, fun _ => rfl, .refl _⟩
    change Memory.wf (if kept = true then s.vault else s.vault.filter _) = true
    exact hv _ _ h
  clear_value base
  have h1 : s1.kept = base.kept := State.foldl_kept (fun t p => State.wr_kept ..) _ _
  have h2 : s2.kept = s1.kept := by
    refine (State.wr_kept ..).trans ?_
    split
    · rfl
    · exact State.wr_kept ..
  have h3 : s3.kept = s2.kept := State.foldl_kept (fun t p => by
    split
    · exact (State.bump_kept ..).trans (State.wr_kept ..)
    · rfl) _ _
  have h4 : s4.kept = s3.kept := State.foldl_kept (fun t p => by
    split
    · exact State.wr_kept ..
    · rfl) _ _
  have h5 : s5.kept = s4.kept := State.foldl_kept (fun t p => by
    split
    · exact State.setQueued_kept ..
    · rfl) _ _
  exact h0.trans (.of_kept ((State.sensorEvents_kept ..).trans ((State.breakHasps_kept ..).trans
    (h5.trans (h4.trans (h3.trans (h2.trans h1)))))))

theorem State.beginReset_keeps (s : State) (cause : Nat) : s.kept.Keeps (s.beginReset cause).kept := by
  unfold State.beginReset
  grind [Kept.Keeps.refl, → Kept.Keeps.trans, State.coldReset_keeps, State.warmReset_keeps]

theorem State.junctionReset_keeps (s : State) : s.kept.Keeps s.junctionReset.kept := by
  unfold State.junctionReset
  grind [Kept.Keeps.refl, → Kept.Keeps.trans, State.beginReset_keeps, State.restart_kept]

/-! ## Functions of Machine/Mgc.lean -/

theorem State.voidRow_keeps (s : State) (r : Nat × Nat) : s.kept.Keeps (s.voidRow r).kept := by
  unfold State.voidRow
  grind [Kept.Keeps.refl, → Kept.Keeps.trans, State.fresh_kept, State.logAppend_keeps]

theorem State.firmwareRuns_keeps (s : State) (i : Nat) : s.kept.Keeps (s.firmwareRuns i).kept := by
  unfold State.firmwareRuns
  grind [Kept.Keeps.refl, → Kept.Keeps.trans, State.kept, State.wr_kept, State.railTo_kept, State.railCommand_kept, State.hmMirror_kept, State.patLifeUpdate_kept, State.testLife_kept, State.testSpare_kept, State.voidRow_keeps, State.mbxAbandon_kept, State.foldl_kept, State.foldl_keeps]

theorem State.mgcBoot_keeps (s : State) (sig0 sig1 : Bool) : s.kept.Keeps (s.mgcBoot sig0 sig1).kept := by
  unfold State.mgcBoot
  grind [Kept.Keeps.refl, → Kept.Keeps.trans, State.pinsStart_kept, State.firmwareRuns_keeps, State.romRecovery_kept]

theorem State.strikeCmd_keeps (s : State) : s.kept.Keeps s.strikeCmd.2.kept := by
  unfold State.strikeCmd
  grind [Kept.Keeps.refl, → Kept.Keeps.trans, State.reject_kept, State.strike_keeps, State.strikeWords_kept]

theorem State.strikeRow_keeps (s : State) (h : s.kept.Keeps s.strikeCmd.2.kept) : s.kept.Keeps s.strikeRow.kept := by
  have hb := h.bank
  unfold State.strikeRow
  split
  next he => 
    rw [he] at hb
    exact ⟨rfl, id, id, List.prefix_rfl, hb.ownerRows, hb.signerRows⟩
  · exact .refl _

theorem State.tornEntry_keeps (s : State) : s.kept.Keeps s.tornEntry.kept := by
  unfold State.tornEntry
  grind [Kept.Keeps.refl, → Kept.Keeps.trans, State.fresh_kept, State.logAppend_keeps]

theorem State.strikeEarly_keeps (s : State) (cut : MbxCut) : s.kept.Keeps (s.strikeEarly cut).kept := by
  have h := s.strikeCmd_keeps
  have hr := s.strikeRow_keeps h
  unfold State.strikeEarly
  split
  next i t he =>
  rw [he] at h
  split
  · exact .refl _
  · exact hr
  · split
    · exact .refl _
    · exact hr.trans (State.tornEntry_keeps _)
  · split
    · exact .refl _
    · exact h

end Sys2Proof.Machine
end

section
/-! SUPPORT. What each command leaves alone, and what each step keeps: the queue, the canonical memories, the growing bank. -/

namespace Sys2Proof.Machine
open Sys2Proof

/-- The state that a command answers has `P`. -/
def Res.All (P : State → Prop) : Res → Prop
  | .next t => P t
  | _ => True

theorem State.ite_keeps {c : Prop} [Decidable c] {k : Kept} {t u : State} (ht : k.Keeps t.kept) (hu : k.Keeps u.kept) :
    k.Keeps (if c then t else u).kept := by
  split
  exacts [ht, hu]

theorem State.pfDo_keeps {s t : State} (fn : Fn) (h : s.kept.Keeps t.kept) : s.kept.Keeps (s.pfDo fn t).kept :=
  State.ite_keeps h (.refl _)

theorem execFltRetryAll_kept (fn : Fn) (c : Fin 256) (pt : HostTable) (s : State) : Res.All (·.kept = s.kept) (execFltRetryAll fn c pt s) :=
  State.ctxDo_kept _ _ (State.foldl_kept (fun _ _ => State.retryFault_kept ..) _ _)

theorem execLevelApplyNoFrame_kept (s : State) : Res.All (·.kept = s.kept) (execLevelApplyNoFrame s) := by
  unfold execLevelApplyNoFrame
  split
  · exact State.ite_kept (State.applyLevel_kept ..) rfl
  · rfl

theorem execTierApplyNoFrame_kept (s : State) : Res.All (·.kept = s.kept) (execTierApplyNoFrame s) := by
  unfold execTierApplyNoFrame
  split
  · exact State.ite_kept (State.applyTier_kept ..) rfl
  · rfl

theorem execPop_kept (t : Fin 8) (flaw : Flaw) (s : State) : Res.All (·.kept = s.kept) (execPop t flaw s) := by
  refine State.plRun_kept _ _ _ fun a p w => ?_
  split
  · exact (State.countP_kept ..).trans ((State.count_kept ..).trans (State.bump_kept ..))
  · rfl

theorem execRemoteDeadline_kept (run step : Nat) (s : State) : Res.All (·.kept = s.kept) (execRemoteDeadline run step s) := by
  unfold execRemoteDeadline
  split
  · exact State.ite_kept (State.remoteDeadline_kept ..) rfl
  · rfl

theorem execAssaySweepInterval_kept (s : State) : Res.All (·.kept = s.kept) (execAssaySweepInterval s) := by
  have h (u : State) (b : Assay) (hu : u = { s with assay := b }) :
      (if u.assay.force.isSome then u.asySweep none else u).kept = s.kept := by
    have h1 : u.kept = s.kept := hu ▸ rfl
    exact State.ite_kept ((State.asySweep_kept ..).trans h1) h1
  exact State.ite_kept (h _ _ rfl) rfl

theorem execDumpWrite_kept (s : State) : Res.All (·.kept = s.kept) (execDumpWrite s) := by
  unfold execDumpWrite
  split
  · rfl
  · exact State.dumpTo_kept ..

theorem execTrainComplete_kept (port : Fin 12) (peer : BitVec 8) (domain : BitVec 16) (number : Fin 12)
    (roundTrip : Nat) (s : State) :
    Res.All (·.kept = s.kept) (execTrainComplete port peer domain number roundTrip s) :=
  State.inPort_kept _ _ (State.ite_kept ((State.trained_kept ..).trans (State.helloIn_kept ..))
    ((State.helloBad_kept ..).trans (State.helloIn_kept ..)))

theorem execRailOkRise_kept (s : State) : Res.All (·.kept = s.kept) (execRailOkRise s) :=
  State.ite_kept rfl (State.ite_kept (State.levelArrives_kept ..) rfl)

theorem execEffecterZeroOrder_kept (states : List (Option Nat)) (s : State) :
    Res.All (·.kept = s.kept) (execEffecterZeroOrder states s) := by
  refine State.effect_kept _ _ (State.foldl_kept (fun t p => ?_) _ _)
  split
  · exact State.zeroOrder_kept ..
  · rfl
  · rfl

theorem execPldmGetStateSensorReadings_kept (id : Nat) (s : State) :
    Res.All (·.kept = s.kept) (execPldmGetStateSensorReadings id s) := by
  refine State.answerRun_kept ?_
  split <;> rfl

theorem execSpdmKeyExchange_kept (doe : Bool) (slot sid : Nat) (s : State) :
    Res.All (·.kept = s.kept) (execSpdmKeyExchange doe slot sid s) :=
  State.spdmAt_kept _ _ (State.ite_kept (State.spdmSay_kept ..) ((State.spdmFree_kept ..).trans (State.setSpdm_kept ..)))

theorem execSpdmFinish_kept (doe : Bool) (sid : Nat) (ok : Bool) (s : State) :
    Res.All (·.kept = s.kept) (execSpdmFinish doe sid ok s) :=
  State.spdmAt_kept _ _ (State.ite_kept (State.spdmSay_kept ..) (State.ite_kept
    ((State.spdmSay_kept ..).trans (State.setSpdm_kept ..)) ((State.spdmSay_kept ..).trans (State.setSpdm_kept ..))))

theorem execPwrGoodRise_kept (straps : Fin 16) (s : State) : Res.All (·.kept = s.kept) (execPwrGoodRise straps s) := by
  unfold execPwrGoodRise
  refine State.ite_kept rfl ?_
  extract_lets _ s1 s2
  have h : s2.kept = s.kept := State.ite_kept rfl ((State.setPhase_kept ..).trans (State.wr_kept ..))
  exact State.ite_kept ((State.wr_kept ..).trans h) h

theorem execPwrGoodFall_kept (s : State) : Res.All (·.kept = s.kept) (execPwrGoodFall s) :=
  State.ite_kept rfl (State.ite_kept rfl (State.setPhase_kept ..))

theorem execStackTrainDone_kept (t : Fin 8) (s : State) : Res.All (·.kept = s.kept) (execStackTrainDone t s) :=
  State.ite_kept (State.ite_kept ((State.setPhase_kept ..).trans (State.setTrain_kept ..)) (State.setTrain_kept ..)) rfl

theorem execTrainAttemptTimeout_kept (t : Fin 8) (s : State) : Res.All (·.kept = s.kept) (execTrainAttemptTimeout t s) := by
  refine State.ite_kept rfl (State.ite_kept ?_ (State.ite_kept ?_ rfl))
  · exact (State.wr_kept ..).trans (s.setTrain_kept t.val 1)
  · exact (State.setFault_kept ..).trans ((State.startFails_kept _ 3).trans ((State.wr_kept ..).trans (s.setTrain_kept t.val 3)))

theorem execParkEnd_kept (n : Fin 8) (s : State) : Res.All (·.kept = s.kept) (execParkEnd n s) :=
  State.ite_kept rfl rfl

theorem execLongOpStep_keeps (op : OpSel) (amount : Nat) (pt : HostTable) (s : State) :
    Res.All (s.kept.Keeps ·.kept) (execLongOpStep op amount pt s) := by
  unfold execLongOpStep
  split
  · exact .refl _
  · exact State.ite_keeps (State.opStep_keeps ..) (.refl _)

theorem execPunchHash_keeps (run step : Nat) (flaw : Flaw) (s : State) : Res.All (s.kept.Keeps ·.kept) (execPunchHash run step flaw s) := by
  refine State.onStep_keeps _ _ _ fun a => State.flawed_keeps a flaw fun t ht => ?_
  have h := (Kept.Keeps.of_kept ht).trans (t.descOf_keeps a)
  split <;> rename_i he <;> rw [he] at h
  · exact h.trans (State.punchWork_keeps ..)
  · exact h.trans (.of_kept (State.late_kept ..))

theorem execGatherPool_keeps (run step : Nat) (ev : GatherEv) (s : State) : Res.All (s.kept.Keeps ·.kept) (execGatherPool run step ev s) := by
  refine State.onStep_keeps _ _ _ fun a => ?_
  have h := State.withDesc_keeps (.refl s.kept) a fun d t ht => ht.trans (t.gatherWork_keeps a ev (bagSet d) (a.run.dataOf a.step.dep0).bags)
  split
  · split
    · exact h
    · exact h
    · exact .refl _
  · exact .refl _

theorem execPlanisherPrologue_keeps (run step : Nat) (s : State) : Res.All (s.kept.Keeps ·.kept) (execPlanisherPrologue run step s) :=
  State.onStep_keeps _ _ _ fun a => State.ite_keeps (.refl _)
    (State.withDesc_keeps (.refl _) a fun _ _ h => h.trans (.of_eq rfl rfl rfl rfl))

theorem execStf_keeps (t : Fin 8) (s : State) : Res.All (s.kept.Keeps ·.kept) (execStf t s) := by
  refine State.plRun_keeps _ _ _ fun a p w => ?_
  have h := s.put_keeps a (p.rowVa w 0) (p.flags.map (BitVec.ofNat 8))
  split <;> rename_i he <;> rw [he] at h <;> exact h

theorem State.mbx_keeps {s : State} (op len need : Nat) (cut : MbxCut) {early act : State → State}
    (he : ∀ t : State, t.kept.Keeps (early t).kept)
    (ha : ∀ t : State, t.kept.Keeps (act t).kept) : s.kept.Keeps (s.mbx op len need cut early act).kept := by
  unfold State.mbx
  split
  · exact .of_kept (State.illegal_kept ..)
  extract_lets s1
  have h1 : s.kept.Keeps s1.kept := .of_kept (State.foldl_kept (fun _ _ => State.wr_kept ..) _ _)
  clear_value s1
  refine State.ite_keeps h1 (State.ite_keeps (State.ite_keeps (h1.trans (.of_kept (State.mbxAnswer_kept ..))) h1) ?_)
  exact State.ite_keeps (h1.trans (ha _)) (h1.trans (he _))

theorem execMbxStrike_keeps (fn : Fn) (len : Nat) (cut : MbxCut) (s : State) : Res.All (s.kept.Keeps ·.kept) (execMbxStrike fn len cut s) := by
  unfold execMbxStrike
  refine State.pfDo_keeps _ (State.mbx_keeps _ _ _ _ (fun t => ?_) fun t => ?_)
  · exact t.strikeEarly_keeps cut
  · have h := t.strikeCmd_keeps
    split
    next x u he =>
    rw [he] at h
    exact h.trans (.of_kept (State.mbxAnswer_kept ..))

theorem execRailRemoval_keeps (s : State) : Res.All (s.kept.Keeps ·.kept) (execRailRemoval s) :=
  State.ite_keeps (State.powerOff_keeps ..) (.refl _)

theorem execHotReset_keeps (s : State) : Res.All (s.kept.Keeps ·.kept) (execHotReset s) :=
  State.ite_keeps ((State.beginReset_keeps ..).trans (.of_kept (State.restart_kept ..))) (.refl _)

theorem execPfFlr_keeps (s : State) : Res.All (s.kept.Keeps ·.kept) (execPfFlr s) :=
  State.ite_keeps ((State.beginReset_keeps ..).trans (.of_kept (State.restart_kept ..))) (.refl _)

theorem execRetainExit_keeps (s : State) : Res.All (s.kept.Keeps ·.kept) (execRetainExit s) := by
  unfold execRetainExit
  refine State.ite_keeps ?_ (.refl _)
  extract_lets s0
  have h : s0.kept = s.kept := rfl
  clear_value s0
  exact .trans (.of_kept h) ((State.beginReset_keeps ..).trans (.of_kept (State.restart_kept ..)))

theorem execPerstNAssert_keeps (s : State) : Res.All (s.kept.Keeps ·.kept) (execPerstNAssert s) := by
  unfold execPerstNAssert
  refine State.ite_keeps (.refl _) ?_
  extract_lets _ s1
  have h : s1.kept = s.kept := rfl
  clear_value s1
  exact State.ite_keeps (.of_kept h) (.trans (.of_kept h) (State.beginReset_keeps ..))

theorem execVddAonPowerUp_keeps (s : State) : Res.All (s.kept.Keeps ·.kept) (execVddAonPowerUp s) :=
  State.ite_keeps (.refl _) ((State.powerOff_keeps s).trans (.of_kept (State.coldValues_kept ..)))

theorem execWindowRead_keeps (run step : Nat) (flaw : Flaw) (bad : List Nat) (s : State) :
    Res.All (s.kept.Keeps ·.kept) (execWindowRead run step flaw bad s) := by
  refine State.slabOp_keeps _ _ _ _ _ fun a d b h t => ?_
  extract_lets slots
  have hp := t.put_keeps a (d.out + a.off) (leBytes 4 slots.length ++ leBytes 4 0 ++ leBytes 8 h.seq ++ leBytes 48 0)
  split <;> rename_i he <;> rw [he] at hp
  · exact hp
  · exact hp.trans (State.windowLayers_keeps ..)

theorem execAppendHistory_keeps (run step : Nat) (flaw : Flaw) (bad : List Nat) (s : State) :
    Res.All (s.kept.Keeps ·.kept) (execAppendHistory run step flaw bad s) := by
  refine State.slabOp_keeps _ _ _ _ _ fun a d b h t => ?_
  extract_lets n h'
  have hg := t.get_keeps a (d.src + a.off) (d.newEv * b.layers * n)
  split <;> rename_i he <;> rw [he] at hg
  · exact hg
  next src s2 =>
  extract_lets rows
  have hr := hg.trans (s2.slabRows_keeps a (rows ++ [(b.base, h'.bytes)]))
  split <;> rename_i he <;> rw [he] at hr <;> exact hr

theorem execEvict_keeps (run step : Nat) (flaw : Flaw) (bad : List Nat) (s : State) :
    Res.All (s.kept.Keeps ·.kept) (execEvict run step flaw bad s) :=
  State.slabOp_keeps _ _ _ _ _ fun _ _ _ _ _ => State.slabUnpin_keeps ..

theorem execTarnPin_keeps (run step : Nat) (flaw : Flaw) (bad : List Nat) (s : State) :
    Res.All (s.kept.Keeps ·.kept) (execTarnPin run step flaw bad s) := by
  refine State.slabOp_keeps _ _ _ _ _ fun a d b h t => ?_
  extract_lets p
  split
  next ok err s2 hf =>
  have hl : t.kept.Keeps s2.kept := by
    rw [show s2 = _ from (congrArg (·.2.2) hf).symm]
    refine foldl_keeps_of (β := Bool × Option Err × State) (·.2.2) (fun x l => ?_) _ (true, none, t)
    split
    · exact .refl _
    · exact State.slabPinLine_keeps ..
  split
  · exact hl
  have hw := hl.trans (s2.slabWrite_keeps a b.base { h with hot := ok }.bytes)
  split <;> rename_i he <;> rw [he] at hw <;> exact hw

theorem execTarnUnpin_keeps (run step : Nat) (flaw : Flaw) (bad : List Nat) (s : State) :
    Res.All (s.kept.Keeps ·.kept) (execTarnUnpin run step flaw bad s) :=
  State.slabOp_keeps _ _ _ _ _ fun _ _ _ _ _ => State.slabUnpin_keeps ..

theorem execRemoteGather_keeps (run step : Nat) (s : State) : Res.All (s.kept.Keeps ·.kept) (execRemoteGather run step s) :=
  State.onStep_keeps _ _ _ fun _ => State.remoteStep_keeps ..

theorem execRemotePush_keeps (run step : Nat) (s : State) : Res.All (s.kept.Keeps ·.kept) (execRemotePush run step s) :=
  State.onStep_keeps _ _ _ fun _ => State.remoteStep_keeps ..

theorem Res.All.imp {P Q : State → Prop} (h : ∀ t, P t → Q t) : ∀ {r : Res}, Res.All P r → Res.All Q r
  | .next t, hr => h t hr
  | .fault _, _ => trivial
  | .refused _, _ => trivial

theorem Runs.of_all {P : State → Prop} {c : Instr} {s t : State} (h : Res.All P (exec c s)) (ht : Runs c s t) : P t := by
  rwa [ht] at h

/-- The commands that may write a byte of memory, its code, or the Hallmark bank. -/
def writesMemory : Instr → Bool
  | .resourceZeroingDone | .longOpStep _ _ _ | .punchHash _ _ _ | .gatherPool _ _ _ | .ladleCopy _ _ _
  | .ladleFill _ _ _ | .ladleZero _ _ _ | .ladleLoad _ _ _ | .outputWrite _ _ | .anvilInteger _ _ _ _
  | .anvilExpand _ _ _ | .anvilProductTable _ _ _ | .planisherPrologue _ _ | .stf _ | .ldF32 _ _ | .ldBf16 _ _
  | .ldQ8 _ _ | .ldQ4 _ _ | .ldE4m3 _ _ | .ldE5m2 _ _ | .stF32 _ _ | .stBf16 _ _ | .stQ8 _ _ | .stQ4 _ _
  | .stE4m3 _ _ | .stE5m2 _ _ | .windowRead _ _ _ _ | .appendHistory _ _ _ _ | .appendBeam _ _ _ | .evict _ _ _ _
  | .tarnPin _ _ _ _ | .tarnUnpin _ _ _ _ | .riddleTopk _ _ _ | .riddleBeam _ _ _ | .solderUpdate _ _
  | .updateAssign _ _ | .updateAdd _ _ | .updateSgd _ _ | .updateAdagradRow _ _ | .remoteGather _ _
  | .remotePush _ _ | .backgroundTick _ _ | .requestServiceComplete _ _ _ | .responseReceived _ | .railRemoval
  | .retainExit | .coldReset | .warmReset | .perstNAssert | .hotReset | .pfFlr | .mgcBoot _ _ | .mbxStrike _ _ _
  | .vddAonPowerUp | .powerRemoval => true
  | _ => false

/-- Every command that `writesMemory` does not list leaves the queue, the memories, their codes and the bank as they were. -/
theorem exec_kept (c : Instr) (s : State) (hc : writesMemory c = false) : Res.All (·.kept = s.kept) (exec c s) := by
  cases c with
  | doorbellWrite => exact State.doorbell_kept ..
  | deferredCheckComplete => exact State.deferredCheck_kept ..
  | stagingStart => exact State.stagingStart_kept ..
  | stagingComplete => exact State.stagingDone_kept ..
  | stagingReadFailed => exact State.stagingFail_kept ..
  | fenceRearm => exact State.rearm_kept ..
  | registerWrite => exact State.regWrite_kept ..
  | bar4Access => exact State.bar4_kept ..
  | haspAcquire => exact State.haspAcquire_kept ..
  | haspRelease => exact State.haspRelease_kept ..
  | pldCreate => exact State.pfDo_kept _ (State.pldCreate_kept ..)
  | pldActivate => exact State.pfDo_kept _ (State.pldActivate_kept ..)
  | pldDestroy => exact State.pfDo_kept _ (State.pldDestroy_kept ..)
  | pldZero => exact State.pfDo_kept _ (State.pldZero_kept ..)
  | pldAbort => exact State.pfDo_kept _ (State.pldAbort_kept ..)
  | pldAssign => exact State.pfDo_kept _ (State.assignCmd_kept _ _ _ _ fun _ _ => State.assignOne_kept ..)
  | pldRelease => exact State.pfDo_kept _ (State.assignCmd_kept _ _ _ _ fun _ _ => State.releaseOne_kept ..)
  | polderDrainComplete => exact State.drainComplete_kept ..
  | polderClearingDone => exact State.clearingDone_kept ..
  | polderZeroingComplete => exact State.zeroingComplete_kept ..
  | mgcZeroOrder => exact State.zeroOrder_kept ..
  | tdispGetTdispVersion => exact State.tdispReply_kept ..
  | tdispGetTdispCapabilities => exact State.tdispReply_kept ..
  | tdispLockInterfaceRequest => exact State.tdispLock_kept ..
  | tdispGetDeviceIfReport => exact State.ifReport_kept ..
  | tdispGetDeviceIfState => exact State.tdispReply_kept ..
  | tdispStartInterfaceRequest => exact State.tdispStart_kept ..
  | tdispStopInterfaceRequest => exact State.tdispStop_kept ..
  | ideFailure => exact State.ideFailure_kept ..
  | ctxReset => exact State.ctxDo_kept _ _ (State.ctxReset_kept ..)
  | fncBlockReset => exact State.pfDo_kept _ (State.blockReset_kept ..)
  | msixCoalesceTimeout => exact State.coalesce_kept ..
  | mobWrite => exact State.ownDo_kept _ (State.mobWrite_kept ..)
  | mobClear => exact State.ownDo_kept _ (State.mobClear_kept ..)
  | mobResume => exact State.ownDo_kept _ (State.mobResume_kept ..)
  | mobAbort => exact State.ownDo_kept _ (State.mobAbort_kept ..)
  | fltRetry => exact State.ctxDo_kept _ _ (State.fltRetry_kept ..)
  | fltRetryAll => exact execFltRetryAll_kept ..
  | fltFail => exact State.ctxDo_kept _ _ (State.fltFail_kept ..)
  | faultFill => exact State.faultFill_kept ..
  | faultAllowanceExpiry => exact State.allowanceExpiry_kept ..
  | invInvalidate => exact State.ctxDo_kept _ _ (State.invalidate_kept ..)
  | invResume => exact State.ctxDo_kept _ _ (State.resumeOp_kept ..)
  | invAbort => exact State.ctxDo_kept _ _ (State.abortOp_kept _ _ _ _ _ _ _ fun _ => State.dropInval_kept ..)
  | invDrainEnd => exact State.invDrainEnd_kept ..
  | plnLoad => exact State.ownDo_kept _ (State.plnLoad_kept ..)
  | plnUnload => exact State.ownDo_kept _ (State.plnStart_kept ..)
  | plnResume => exact State.ownDo_kept _ (State.resumeOp_kept ..)
  | plnAbort => exact State.ownDo_kept _ (State.abortOp_kept _ _ _ _ _ _ _ fun _ => State.plnStatus_kept ..)
  | rvLoad => exact State.pfDo_kept _ (State.rvLoad_kept ..)
  | rvCommit => exact State.pfDo_kept _ (State.rvCommit_kept ..)
  | rvResume => exact State.pfDo_kept _ (State.resumeOp_kept ..)
  | rvAbort => exact State.pfDo_kept _ (State.abortOp_kept _ _ _ _ _ _ _ fun _ => State.rvStatus_kept ..)
  | rvDiscard => exact State.pfDo_kept _ (State.rvDiscard_kept ..)
  | frameBoundary => exact State.boundary_kept ..
  | samplePoint => exact State.samplePoint_kept ..
  | firstFrameStart => exact State.firstFrame_kept ..
  | levelApplyNoFrame => exact execLevelApplyNoFrame_kept ..
  | tierApplyNoFrame => exact execTierApplyNoFrame_kept ..
  | admissionWindow => exact State.window_kept ..
  | admissionTimeout => exact State.admitTimeout_kept ..
  | stepStart => exact State.stepStart_kept ..
  | stepComplete => exact State.stepComplete_kept ..
  | stepDeadline => exact State.stepDeadline_kept ..
  | runRelease => exact State.runRelease_kept ..
  | anvilTilePush => exact State.tilePush_kept ..
  | nop => exact State.plReg_kept ..
  | loop => exact State.plReg_kept ..
  | clrf => exact State.plReg_kept ..
  | pop => exact execPop_kept ..
  | fadd => exact State.plBin_kept ..
  | fsub => exact State.plBin_kept ..
  | fmul => exact State.plBin_kept ..
  | fma => exact State.plReg_kept ..
  | fmax => exact State.plBin_kept ..
  | fmin => exact State.plBin_kept ..
  | fabs => exact State.plUn_kept ..
  | fneg => exact State.plUn_kept ..
  | frcp => exact State.plUn_kept ..
  | frsq => exact State.plUn_kept ..
  | fexp2 => exact State.plUn_kept ..
  | flog2 => exact State.plUn_kept ..
  | ftanh => exact State.plUn_kept ..
  | fsigm => exact State.plUn_kept ..
  | fcmp => exact State.plReg_kept ..
  | icmp => exact State.plReg_kept ..
  | mkand => exact State.plMask_kept ..
  | mkor => exact State.plMask_kept ..
  | mknot => exact State.plReg_kept ..
  | mkrange => exact State.plReg_kept ..
  | sel => exact State.plReg_kept ..
  | mov => exact State.plReg_kept ..
  | iadd => exact State.plInt_kept ..
  | isub => exact State.plInt_kept ..
  | imul => exact State.plInt_kept ..
  | imax => exact State.plInt_kept ..
  | imin => exact State.plInt_kept ..
  | ishr => exact State.plReg_kept ..
  | cvtif => exact State.plConv_kept ..
  | cvtfi => exact State.plConv_kept ..
  | qnt8 => exact State.plConv_kept ..
  | qnt4 => exact State.plConv_kept ..
  | qnt8s => exact State.plConv_kept ..
  | qnt4s => exact State.plConv_kept ..
  | frbf => exact State.plReg_kept ..
  | rsum => exact State.plTree_kept ..
  | rmax => exact State.plTree_kept ..
  | csum => exact State.plTree_kept ..
  | cmax => exact State.plTree_kept ..
  | remoteDeadline => exact execRemoteDeadline_kept ..
  | tblWrite => exact State.ownDo_kept _ (State.tblWrite_kept ..)
  | tblClear => exact State.ownDo_kept _ (State.tblClear_kept ..)
  | tblResume => exact State.ownDo_kept _ (State.resumeOp_kept ..)
  | tblAbort => exact State.ownDo_kept _ (State.abortOp_kept _ _ _ _ _ _ _ fun _ => State.tblUndo_kept ..)
  | hmkPin => exact State.polDo_kept _ fun _ => State.hmkStart_kept ..
  | hmkUnpin => exact State.polDo_kept _ fun _ => State.hmkStart_kept ..
  | hmkUnpinAll => exact State.polDo_kept _ fun _ => State.hmkStart_kept ..
  | hmkResume => exact State.polDo_kept _ fun _ => State.resumeOp_kept ..
  | hmkAbort => exact State.polDo_kept _ fun _ => State.abortOp_kept _ _ _ _ _ _ _ fun _ => State.wr_kept ..
  | sketchHalving => exact State.halve_kept ..
  | epPublish => exact State.ownDo_kept _ (State.epStart_kept ..)
  | epAbandon => exact State.ownDo_kept _ (State.epStart_kept ..)
  | epResume => exact State.ownDo_kept _ (State.resumeOp_kept ..)
  | epAbort => exact State.ownDo_kept _ (State.abortOp_kept _ _ _ _ _ _ _ fun _ => State.epUndo_kept ..)
  | tempSample => exact State.tempSample_kept ..
  | advisoryHoldoffEnd => exact State.ite_kept (State.raiseAdvisory_kept ..) rfl
  | thermalTrip => exact State.thermalTrip_kept ..
  | twrRetire => exact State.pfDo_kept _ (State.twCmd_kept _ (State.twRetire_kept ..))
  | twrRepair => exact State.pfDo_kept _ (State.twCmd_kept _ (State.twRepair_kept ..))
  | twrResume => exact State.pfDo_kept _ (State.resumeOp_kept ..)
  | twrAbort => exact State.pfDo_kept _ (State.abortOp_kept _ _ _ _ _ _ _ fun _ => State.twStatus_kept ..)
  | asyLoad => exact State.pfDo_kept _ (State.asyCmd_kept (State.asyLoad_kept ..))
  | asySweep => exact State.pfDo_kept _ (State.asyCmd_kept (State.ite_kept ((State.freeFence_kept ..).trans (State.wr_kept ..)) ((State.asySweep_kept ..).trans (State.wr_kept ..))))
  | asyTest => exact State.pfDo_kept _ (State.asyCmd_kept (State.asyTest_kept ..))
  | assaySweepInterval => exact execAssaySweepInterval_kept ..
  | patinaSample => exact State.patinaSample_kept ..
  | dailyPoint => exact State.dailyPoint_kept ..
  | dumpWrite => exact execDumpWrite_kept ..
  | linkEnable => exact State.ite_kept (State.cwMove_kept ..) rfl
  | signalDetect => exact State.inPort_kept _ _ (State.cwMove_kept ..)
  | seekRetry => exact State.ite_kept (State.cwMove_kept ..) rfl
  | trainComplete => exact execTrainComplete_kept ..
  | helloMismatch => exact State.inPort_kept _ _ (State.ite_kept rfl ((State.helloBad_kept ..).trans (State.helloIn_kept ..)))
  | trainTimeout => exact State.ite_kept ((State.countRetrain_kept ..).trans ((State.bump_kept ..).trans (State.cwMove_kept ..))) rfl
  | authTimeout => exact State.ite_kept ((State.countRetrain_kept ..).trans ((State.cwDiscard_kept ..).trans (State.cwMove_kept ..))) rfl
  | spdmSessionEstablished => exact State.inPort_kept _ _ (State.ite_kept (State.keyed_kept ..) (State.authFail_kept ..))
  | authFailure => exact State.ite_kept rfl (State.authFail_kept ..)
  | firstFlitVerified => exact State.ite_kept (State.linkUp_kept ..) rfl
  | dataFlitReceived => exact State.inPort_kept _ _ (State.rxData_kept ..)
  | controlFlitIdle => exact State.control_kept _ _ rfl
  | controlFlitAck => exact State.control_kept _ _ (State.rxAck_kept ..)
  | controlFlitNak => exact State.control_kept _ _ (State.rxNak_kept ..)
  | controlFlitCredit => exact State.control_kept _ _ (State.rxCredit_kept ..)
  | fecBurst => exact State.inPort_kept _ _ (State.ite_kept ((State.retrain_kept ..).trans ((State.count_kept ..).trans (State.bump_kept ..))) (State.count_kept ..))
  | keepaliveSend => exact State.inPort_kept _ _ (State.ite_kept ((State.say_kept ..).trans (State.modPort_kept ..)) rfl)
  | keepaliveMissing => exact State.inPort_kept _ _ (State.ite_kept (State.retrain_kept ..) rfl)
  | keyUpdate => exact State.inPort_kept _ _ (State.modPort_kept ..)
  | slowUpdate => exact State.secondEnd_kept ..
  | cwRetrain => exact State.pfDo_kept _ (State.ite_kept ((State.cwDiscard_kept ..).trans (State.cwMove_kept ..)) (State.illegal_kept ..))
  | cwPortReset => exact State.pfDo_kept _ (State.cwDownPort_kept ..)
  | cwTrustLoad => exact State.pfDo_kept _ (State.trustLoad_kept ..)
  | cwGntWrite => exact State.pfDo_kept _ (State.gntWrite_kept ..)
  | cwGntRevoke => exact State.pfDo_kept _ (State.gntRevoke_kept ..)
  | cwGntRead => exact State.pfDo_kept _ (State.gntRead_kept ..)
  | flitForward => exact State.forward_kept ..
  | requestIngress => exact State.ingress_kept ..
  | pwrReqLevel => exact State.pfDo_kept _ (State.pwrReq_kept ..)
  | pwrReqStandby => exact State.pfDo_kept _ (State.pwrReq_kept ..)
  | pwrReqRetain => exact State.pfDo_kept _ (State.pwrReq_kept ..)
  | pwrReqOff => exact State.pfDo_kept _ (State.pwrReq_kept ..)
  | pwrReqActive => exact State.pfDo_kept _ (State.pwrReq_kept ..)
  | standbyEntry => exact State.ite_kept (State.pwrMove_kept ..) rfl
  | wakeComplete => exact State.ite_kept (State.pwrMove_kept ..) rfl
  | retainEntry => exact State.ite_kept (State.enterRetain_kept ..) rfl
  | offReadyEntry => exact State.ite_kept ((State.wr_kept ..).trans (State.pwrMove_kept ..)) rfl
  | railOkRise => exact execRailOkRise_kept ..
  | boardPowerReport => exact State.powerReport_kept ..
  | warmReady => exact State.ite_kept (State.goReady_kept ..) rfl
  | vfFlr => exact State.ite_kept rfl (State.functionReset_kept ..)
  | rstCmdScope => exact State.rstDo_kept _ (State.hostScope_kept ..)
  | rstCmdMgc => exact State.rstDo_kept _ (State.ite_kept (State.hostScope_kept ..) ((State.mgcReset_kept ..).trans (State.hostScope_kept ..)))
  | mgcWatchdogExpiry => exact State.ite_kept (State.mgcReset_kept ..) rfl
  | rstEngine => exact State.pfDo_kept _ (State.rstEngine_kept ..)
  | mbxGetInfo => exact State.pfDo_kept _ (State.mbx_kept _ _ _ _ (fun _ => rfl) State.mbxGetInfo_kept)
  | mbxAuthHold => exact State.pfDo_kept _ (State.mbx_kept _ _ _ _ (fun _ => rfl) State.authHold_kept)
  | mbxLogRead => exact State.pfDo_kept _ (State.mbx_kept _ _ _ _ (fun _ => rfl) State.logRead_kept)
  | mbxPackRead => exact State.pfDo_kept _ (State.mbx_kept _ _ _ _ (fun _ => rfl) State.packRead_kept)
  | mbxPatinaRead => exact State.pfDo_kept _ (State.mbx_kept _ _ _ _ (fun _ => rfl) State.patinaRead_kept)
  | effecterMgcCeiling => exact State.effect_kept _ _ (State.setLevelMaster_kept ..)
  | effecterLeaveRetain => exact State.effect_kept _ _ (State.ite_kept rfl rfl)
  | effecterResetScope => exact State.effect_kept _ _ (State.wr_kept ..)
  | effecterPortEnable => exact State.effect_kept _ _ (State.mgcPorts_kept ..)
  | effecterZeroOrder => exact execEffecterZeroOrder_kept ..
  | effecterFault => exact State.effect_kept _ _ (State.setFault_kept ..)
  | mctpSetEndpointId => exact State.answer_kept (State.mctpSetEid_kept ..)
  | mctpGetEndpointId => exact State.answer_kept (State.emit_kept ..)
  | mctpGetVersionSupport => exact State.answer_kept (State.mctpVersion_kept ..)
  | mctpGetMessageTypeSupport => exact State.answer_kept (State.emit_kept ..)
  | pldmGetTid => exact State.answer_kept (State.pldm_kept ..)
  | pldmSetTid => exact State.answer_kept (State.setTid_kept ..)
  | pldmGetPldmVersion => exact State.answer_kept (State.pldmVersion_kept ..)
  | pldmGetPldmTypes => exact State.answer_kept (State.pldm_kept ..)
  | pldmGetPldmCommands => exact State.answer_kept (State.ite_kept (State.pldm_kept ..) (State.pldm_kept ..))
  | pldmGetPdr => exact State.answerRun_kept (State.getPdr_kept ..)
  | pldmGetPdrRepositoryInfo => exact State.answerRun_kept (State.pdrInfo_kept ..)
  | pldmGetSensorReading => exact State.answerRun_kept (State.sensorReading_kept ..)
  | pldmGetStateSensorReadings => exact execPldmGetStateSensorReadings_kept ..
  | pldmSetEventReceiver => exact State.answerRun_kept (State.pldm_kept ..)
  | pldmQueryDeviceIdentifiers => exact State.answer_kept ((State.pldm_kept ..).trans (State.fresh_kept ..))
  | pldmGetFirmwareParameters => exact State.answer_kept (State.pldm_kept ..)
  | pldmRequestUpdate => exact State.answer_kept (State.requestUpdate_kept ..)
  | pldmPassComponentTable => exact State.answer_kept (State.passComponent_kept ..)
  | pldmUpdateComponent => exact State.answer_kept (State.updateComponent_kept ..)
  | pldmRequestFirmwareData => exact State.answer_kept (State.firmwareData_kept ..)
  | pldmTransferComplete => exact State.answer_kept (State.transferComplete_kept ..)
  | pldmVerifyComplete => exact State.answer_kept (State.verifyComplete_kept ..)
  | pldmApplyComplete => exact State.answer_kept (State.applyComplete_kept ..)
  | pldmActivateFirmware => exact State.answer_kept (State.activateFirmware_kept ..)
  | pldmGetStatus => exact State.answer_kept (State.pldm_kept ..)
  | pldmCancelUpdateComponent => exact State.answer_kept (State.cancelComponent_kept ..)
  | pldmCancelUpdate => exact State.answer_kept (State.cancelUpdate_kept ..)
  | spdmGetVersion => exact State.answerRun_kept ((State.spdmSay_kept ..).trans (State.setSpdm_kept ..))
  | spdmGetCapabilities => exact State.spdmAt_kept _ _ ((State.spdmSay_kept ..).trans (State.setSpdm_kept ..))
  | spdmNegotiateAlgorithms => exact State.spdmAt_kept _ _ (State.ite_kept ((State.spdmSay_kept ..).trans (State.setSpdm_kept ..)) (State.spdmSay_kept ..))
  | spdmGetDigests => exact State.spdmAt_kept _ _ (State.spdmSay_kept ..)
  | spdmGetCertificate => exact State.spdmAt_kept _ _ (State.ite_kept (State.spdmSay_kept ..) (State.spdmSay_kept ..))
  | spdmChallenge => exact State.spdmAt_kept _ _ (State.ite_kept (State.spdmFree_kept ..) (State.spdmSay_kept ..))
  | spdmGetMeasurements => exact State.spdmAt_kept _ _ (State.getMeasurements_kept ..)
  | spdmKeyExchange => exact execSpdmKeyExchange_kept ..
  | spdmFinish => exact execSpdmFinish_kept ..
  | spdmHeartbeat => exact State.inSession_kept _ _ (State.spdmSay_kept ..)
  | spdmKeyUpdate => exact State.inSession_kept _ _ (State.ite_kept (State.spdmSay_kept ..) (State.spdmSay_kept ..))
  | spdmEndSession => exact State.inSession_kept _ _ ((State.spdmSay_kept ..).trans (State.setSpdm_kept ..))
  | pwrGoodRise => exact execPwrGoodRise_kept ..
  | pwrGoodFall => exact execPwrGoodFall_kept ..
  | perstNRelease => exact State.ite_kept rfl rfl
  | planesStart => exact State.restart_kept ..
  | stackTrainDone => exact execStackTrainDone_kept ..
  | trainAttemptTimeout => exact execTrainAttemptTimeout_kept ..
  | coldZeroDone => exact State.ite_kept (State.goReady_kept ..) rfl
  | startTimeout => exact State.ite_kept ((State.setFault_kept ..).trans (State.startFails_kept ..)) rfl
  | pmxWrite => exact State.pfDo_kept _ (State.pmxWrite_kept ..)
  | parkEnd => exact execParkEnd_kept ..
  | frameSyncInEdge => exact State.ite_kept ((State.bump_kept ..).trans (State.wr_kept ..)) rfl
  | badSizeRead => exact State.badRead_kept ..
  | _ => contradiction

/-- Every command keeps what `Kept.Keeps` names. -/
theorem exec_keeps (c : Instr) (s : State) : Res.All (s.kept.Keeps ·.kept) (exec c s) := by
  by_cases hc : writesMemory c = false
  · exact Res.All.imp (fun _ h => .of_kept h) (exec_kept c s hc)
  cases c with
  | resourceZeroingDone => exact State.resourceZeroed_keeps ..
  | longOpStep => exact execLongOpStep_keeps ..
  | punchHash => exact execPunchHash_keeps ..
  | gatherPool => exact execGatherPool_keeps ..
  | ladleCopy => exact State.ladle_keeps ..
  | ladleFill => exact State.ladle_keeps ..
  | ladleZero => exact State.ladle_keeps ..
  | ladleLoad => exact State.ladle_keeps ..
  | outputWrite => exact State.output_keeps ..
  | anvilInteger => exact State.anvil_keeps ..
  | anvilExpand => exact State.anvil_keeps ..
  | anvilProductTable => exact State.anvil_keeps ..
  | planisherPrologue => exact execPlanisherPrologue_keeps ..
  | stf => exact execStf_keeps ..
  | ldF32 => exact State.plLoad_keeps ..
  | ldBf16 => exact State.plLoad_keeps ..
  | ldQ8 => exact State.plLoad_keeps ..
  | ldQ4 => exact State.plLoad_keeps ..
  | ldE4m3 => exact State.plLoad_keeps ..
  | ldE5m2 => exact State.plLoad_keeps ..
  | stF32 => exact State.plStore_keeps ..
  | stBf16 => exact State.plStore_keeps ..
  | stQ8 => exact State.plStore_keeps ..
  | stQ4 => exact State.plStore_keeps ..
  | stE4m3 => exact State.plStore_keeps ..
  | stE5m2 => exact State.plStore_keeps ..
  | windowRead => exact execWindowRead_keeps ..
  | appendHistory => exact execAppendHistory_keeps ..
  | appendBeam => exact State.appendBeam_keeps ..
  | evict => exact execEvict_keeps ..
  | tarnPin => exact execTarnPin_keeps ..
  | tarnUnpin => exact execTarnUnpin_keeps ..
  | riddleTopk => exact State.riddle_keeps ..
  | riddleBeam => exact State.riddle_keeps ..
  | solderUpdate => exact State.solderUpdate_keeps ..
  | updateAssign => exact State.updateEntry_keeps ..
  | updateAdd => exact State.updateEntry_keeps ..
  | updateSgd => exact State.updateEntry_keeps ..
  | updateAdagradRow => exact State.updateEntry_keeps ..
  | remoteGather => exact execRemoteGather_keeps ..
  | remotePush => exact execRemotePush_keeps ..
  | backgroundTick => exact State.bgTick_keeps ..
  | requestServiceComplete => exact State.serviceEnd_keeps ..
  | responseReceived => exact State.response_keeps ..
  | railRemoval => exact execRailRemoval_keeps ..
  | retainExit => exact execRetainExit_keeps ..
  | coldReset => exact State.junctionReset_keeps ..
  | warmReset => exact State.junctionReset_keeps ..
  | perstNAssert => exact execPerstNAssert_keeps ..
  | hotReset => exact execHotReset_keeps ..
  | pfFlr => exact execPfFlr_keeps ..
  | mgcBoot => exact State.mgcBoot_keeps ..
  | mbxStrike => exact execMbxStrike_keeps ..
  | vddAonPowerUp => exact execVddAonPowerUp_keeps ..
  | powerRemoval => exact State.powerOff_keeps ..
  | _ => exact absurd rfl hc

/-- The queue apart, time that passes leaves what `Kept` holds. -/
theorem State.pass_kept (s : State) : ∃ q, s.pass.kept = { s.kept with pending := q } := by
  unfold State.pass
  split
  · exact ⟨s.pending, rfl⟩
  split
  · have h1 : (s.tickCounts.passNs (tickLen s.level)).kept = s.kept := (State.passNs_kept ..).trans s.tickCounts_kept
    generalize s.tickCounts.passNs (tickLen s.level) = s1 at h1 ⊢
    extract_lets s2 _ s3
    have h3 : s3.kept = s.kept := h1
    clear_value s3
    exact ⟨_, congrArg (fun k : Kept => { k with pending := s3.boundaryEvents }) h3⟩
  · exact ⟨s.pending, (s.l1Entry.passNs_kept 390).trans s.l1Entry_kept⟩

/-- The queue apart, a step on an empty queue leaves what `Kept` holds. -/
theorem State.idle_kept (s : State) : ∃ q, s.idle.kept = { s.kept with pending := q } := by
  unfold State.idle
  split
  · exact s.pass_kept
  split
  · exact ⟨_, rfl⟩
  · exact s.pass_kept

/-- The queue apart, every step keeps what `Kept.Keeps` names. -/
theorem step_keeps {s t : State} (h : step s = .next t) : ∃ q, Kept.Keeps { s.kept with pending := q } t.kept := by
  unfold step at h
  split at h
  · next c rest _ => exact ⟨rest, Runs.of_all (exec_keeps c { s with pending := rest }) h⟩
  · cases h
    obtain ⟨q, hq⟩ := s.idle_kept
    exact ⟨q, .of_kept hq⟩

theorem State.memWf_iff (s : State) : s.memWf = true ↔ Memory.wf s.vault = true ∧ Memory.wf s.mere = true := by
  simp [State.memWf]

/-- No strike count falls while the bank grows. -/
theorem Bank.strikes_le {a b : Bank} (h : a.Grows b) (k j : Nat) : a.strikes k j ≤ b.strikes k j := by
  unfold Bank.strikes
  split
  · exact h.ownerRows.length_le
  split
  · exact h.signerRows.length_le
  · exact (h.log.filter _).length_le

/-- Settles O57: `exec_keeps` for every command. -/
theorem commandsLeaveTheQueue : Obligations.CommandsLeaveTheQueue := by
  intro c s t h
  exact (Runs.of_all (exec_keeps c s) h).pending

/-- Settles O58: `step_keeps`, since every command that writes memory writes it by `writeMem` or `zeroRange`. -/
theorem everyStepKeepsMemoryCanonical : Obligations.EveryStepKeepsMemoryCanonical := by
  intro s t hs h
  obtain ⟨q, hk⟩ := step_keeps h
  obtain ⟨hv, hm⟩ := s.memWf_iff.1 hs
  exact t.memWf_iff.2 ⟨hk.vault hv, hk.mere hm⟩

/-- Settles O60: `step_keeps`; the counts are lengths of lists that only grow. -/
theorem hallmarkLogOnlyGrows : Obligations.HallmarkLogOnlyGrows := by
  intro s t h
  obtain ⟨q, hk⟩ := step_keeps h
  exact ⟨hk.bank.log, Bank.strikes_le hk.bank⟩

/-- Settles O1. -/
theorem stepRunsTheFrontCommand : Obligations.StepRunsTheFrontCommand := by
  intro c rest s h
  rw [step, h]

/-- Settles O2: every arm of `exec` answers `.next`. -/
theorem everyCommandAnswersANextState : Obligations.EveryCommandAnswersANextState := by
  intro c s
  cases c <;> exact ⟨_, rfl, trivial⟩

/-- Settles O59, by evaluation; the registers read their reset values. -/
theorem resetMeetsTheInvariants : Obligations.ResetMeetsTheInvariants := by
  refine ⟨rfl, rfl, rfl, rfl, rfl, rfl, rfl, rfl, fun p => ⟨?_, ?_⟩, fun n => ?_, fun n => ?_, fun f => rfl⟩
  · fin_cases p <;> rfl
  · fin_cases p <;> rfl
  · fin_cases n <;> rfl
  · fin_cases n <;> rfl

end Sys2Proof.Machine
end

section
/-! SUPPORT. The frames of the commands that store nothing and of the queries (R192, R487, R490). -/

namespace Sys2Proof.Machine
open Sys2Proof

/-- The bytes of both memories, with what their codes say of them. -/
def State.bytes (s : State) : SMap Byte × SMap Byte × SMap Ecc × SMap Ecc := (s.vault, s.mere, s.vaultEcc, s.mereEcc)

theorem State.bytes_of_kept {s t : State} (h : t.kept = s.kept) : t.bytes = s.bytes :=
  congrArg (fun k : Kept => (k.vault, k.mere, k.vaultEcc, k.mereEcc)) h

theorem State.logAppend_bytes (s : State) (e : LogEntry) : (s.logAppend e).bytes = s.bytes := by
  unfold State.logAppend
  exact (State.bytes_of_kept (State.hmMirror_kept _)).trans rfl

theorem State.strike_bytes (s : State) (setting target : Nat) (claim : Bool) (old new : Nat) (valueOk : Bool)
    (row : Option (List Byte)) : (s.strike setting target claim old new valueOk row).2.bytes = s.bytes := by
  unfold State.strike
  extract_lets n i e b b1
  split
  · rfl
  split
  · exact State.logAppend_bytes ..
  split
  · exact State.logAppend_bytes ..
  · exact (State.bytes_of_kept (State.strikeEffect_kept ..)).trans ((State.logAppend_bytes ..).trans rfl)

theorem State.strikeCmd_bytes (s : State) : s.strikeCmd.2.bytes = s.bytes := by
  unfold State.strikeCmd
  extract_lets r setting target
  split
  · rfl
  split
  · rfl
  split
  next old new row s1 hw =>
  have h1 : s1.bytes = s.bytes := by
    have h := State.bytes_of_kept (s.strikeWords_kept r)
    rwa [hw] at h
  have h2 := (s1.strike_bytes setting target (numAt r 5 1 == 1) old new (s.valueOk r) row).trans h1
  split <;> rename_i he <;> rw [he] at h2 <;> exact h2

theorem State.strikeRow_bytes (s : State) : s.strikeRow.bytes = s.bytes := by
  unfold State.strikeRow
  split <;> rfl

theorem State.tornEntry_bytes (s : State) : s.tornEntry.bytes = s.bytes :=
  (State.logAppend_bytes ..).trans rfl

theorem State.strikeEarly_bytes (s : State) (cut : MbxCut) : (s.strikeEarly cut).bytes = s.bytes := by
  have h := s.strikeCmd_bytes
  unfold State.strikeEarly
  split
  next i t he =>
  rw [he] at h
  split
  · rfl
  · exact s.strikeRow_bytes
  · split
    · rfl
    · exact (State.tornEntry_bytes _).trans s.strikeRow_bytes
  · split
    · rfl
    · exact h

theorem State.mbx_bytes {s : State} (op len need : Nat) (cut : MbxCut) {early act : State → State}
    (he : ∀ t : State, (early t).bytes = t.bytes) (ha : ∀ t : State, (act t).bytes = t.bytes) :
    (s.mbx op len need cut early act).bytes = s.bytes := by
  unfold State.mbx
  split
  · exact State.bytes_of_kept (State.illegal_kept ..)
  extract_lets s1
  have h1 : s1.bytes = s.bytes := rfl
  clear_value s1
  split
  · exact h1
  split
  · split
    · exact (State.bytes_of_kept (State.mbxAnswer_kept ..)).trans h1
    · exact h1
  split
  · exact (ha s1).trans h1
  · exact (he s1).trans h1

theorem execMbxStrike_bytes (fn : Fn) (len : Nat) (cut : MbxCut) (s : State) :
    Res.All (·.bytes = s.bytes) (execMbxStrike fn len cut s) := by
  unfold execMbxStrike
  change (s.pfDo fn _).bytes = s.bytes
  unfold State.pfDo
  split
  · refine State.mbx_bytes _ _ _ _ (fun t => t.strikeEarly_bytes cut) fun t => ?_
    have h := t.strikeCmd_bytes
    split
    next x u he =>
    rw [he] at h
    exact (State.bytes_of_kept (State.mbxAnswer_kept ..)).trans h
  · rfl

/-- A command that stores nothing writes no memory, unless it strikes. -/
theorem writesMemory_of_storesNothing {c : Instr} (h : c.storesNothing = true) :
    writesMemory c = false ∨ ∃ fn len cut, c = .mbxStrike fn len cut := by
  cases c with
  | mbxStrike fn len cut => exact .inr ⟨fn, len, cut, rfl⟩
  | resourceZeroingDone | longOpStep | punchHash | gatherPool | ladleCopy | ladleFill | ladleZero | ladleLoad
  | outputWrite | anvilInteger | anvilExpand | anvilProductTable | planisherPrologue | stf | ldF32 | ldBf16
  | ldQ8 | ldQ4 | ldE4m3 | ldE5m2 | stF32 | stBf16 | stQ8 | stQ4 | stE4m3 | stE5m2 | windowRead | appendHistory
  | appendBeam | evict | tarnPin | tarnUnpin | riddleTopk | riddleBeam | solderUpdate | updateAssign
  | updateAdd | updateSgd | updateAdagradRow | remoteGather | remotePush | backgroundTick
  | requestServiceComplete | responseReceived | railRemoval | retainExit | coldReset | warmReset | perstNAssert
  | hotReset | pfFlr | mgcBoot | vddAonPowerUp | powerRemoval => contradiction
  | _ => exact .inl rfl

/-- Settles O56: `exec_kept`; a strike writes the bank alone. -/
theorem commandsThatStoreNothingLeaveMemory : Obligations.CommandsThatStoreNothingLeaveMemory := by
  intro c s t hc h
  have hb : t.bytes = s.bytes := by
    obtain hw | ⟨fn, len, cut, rfl⟩ := writesMemory_of_storesNothing hc
    · exact State.bytes_of_kept (Runs.of_all (exec_kept c s hw) h)
    · exact Runs.of_all (execMbxStrike_bytes fn len cut s) h
  simpa [State.bytes] using hb

/-- What a message that only asks leaves alone: all but what is sent out and the counter of free values. -/
def State.unsaid (s : State) : State := { s with out := [], free := 0 }

theorem State.ite_unsaid {c : Prop} [Decidable c] {s t u : State} (ht : t.unsaid = s.unsaid) (hu : u.unsaid = s.unsaid) :
    (if c then t else u).unsaid = s.unsaid := by
  split
  exacts [ht, hu]

theorem State.spdmFree_unsaid (s : State) (doe : Bool) (code : Nat) (data : List Nat) :
    (s.spdmFree doe code data).unsaid = s.unsaid := rfl

theorem State.spdmAt_unsaid {s t : State} (doe : Bool) (phase : Nat) (h : t.unsaid = s.unsaid) :
    (s.spdmAt doe phase t).unsaid = s.unsaid :=
  State.ite_unsaid (State.ite_unsaid h rfl) rfl

theorem State.inSession_unsaid {s t : State} (doe : Bool) (sid : Nat) (h : t.unsaid = s.unsaid) :
    (s.inSession doe sid t).unsaid = s.unsaid :=
  State.spdmAt_unsaid _ _ (State.ite_unsaid h rfl)

theorem State.answer_unsaid {s t : State} (h : t.unsaid = s.unsaid) : (s.answer t).unsaid = s.unsaid :=
  State.ite_unsaid h rfl

theorem State.answerRun_unsaid {s t : State} (h : t.unsaid = s.unsaid) : (s.answerRun t).unsaid = s.unsaid :=
  State.ite_unsaid h rfl

theorem State.pldmVersion_unsaid (s : State) (type : Nat) : (s.pldmVersion type).unsaid = s.unsaid :=
  State.ite_unsaid rfl rfl

theorem State.getPdr_unsaid (s : State) (handle : Nat) : (s.getPdr handle).unsaid = s.unsaid := by
  unfold State.getPdr
  extract_lets h
  split <;> rfl

theorem State.sensorReading_unsaid (s : State) (id : Nat) : (s.sensorReading id).unsaid = s.unsaid := by
  unfold State.sensorReading
  split <;> rfl

theorem State.getMeasurements_unsaid (s : State) (doe : Bool) (index : Nat) :
    (s.getMeasurements doe index).unsaid = s.unsaid :=
  State.ite_unsaid rfl (State.ite_unsaid rfl (State.ite_unsaid rfl rfl))

theorem execPldmGetStateSensorReadings_unsaid (id : Nat) (s : State) :
    Res.All (·.unsaid = s.unsaid) (execPldmGetStateSensorReadings id s) := by
  refine State.answerRun_unsaid ?_
  split <;> rfl

theorem exec_query_unsaid (c : Instr) (s : State) (hc : c.isQuery = true) : Res.All (·.unsaid = s.unsaid) (exec c s) := by
  cases c with
  | tdispGetTdispVersion | tdispGetTdispCapabilities | tdispGetDeviceIfState | tdispGetDeviceIfReport => rfl
  | mctpGetEndpointId | mctpGetMessageTypeSupport | pldmGetTid | pldmGetPldmTypes | pldmQueryDeviceIdentifiers
  | pldmGetFirmwareParameters | pldmGetStatus => exact State.answer_unsaid rfl
  | mctpGetVersionSupport => exact State.answer_unsaid (State.ite_unsaid rfl (State.ite_unsaid rfl rfl))
  | pldmGetPldmVersion => exact State.answer_unsaid (State.pldmVersion_unsaid ..)
  | pldmGetPldmCommands => exact State.answer_unsaid (State.ite_unsaid rfl rfl)
  | pldmGetPdr => exact State.answerRun_unsaid (State.getPdr_unsaid ..)
  | pldmGetPdrRepositoryInfo => exact State.answerRun_unsaid rfl
  | pldmGetSensorReading => exact State.answerRun_unsaid (State.sensorReading_unsaid ..)
  | pldmGetStateSensorReadings => exact execPldmGetStateSensorReadings_unsaid ..
  | spdmGetDigests => exact State.spdmAt_unsaid _ _ rfl
  | spdmGetCertificate | spdmChallenge => exact State.spdmAt_unsaid _ _ (State.ite_unsaid rfl rfl)
  | spdmGetMeasurements => exact State.spdmAt_unsaid _ _ (State.getMeasurements_unsaid ..)
  | spdmHeartbeat => exact State.inSession_unsaid _ _ rfl
  | spdmKeyUpdate => exact State.inSession_unsaid _ _ (State.ite_unsaid rfl rfl)
  | _ => contradiction

/-- Settles O55: a query emits its reply, and draws at most free values. -/
theorem queriesChangeNothing : Obligations.QueriesChangeNothing := by
  intro c s t hc h
  have hu := Runs.of_all (exec_query_unsaid c s hc) h
  exact congrArg (fun u : State => { u with out := s.out, free := s.free }) hu

end Sys2Proof.Machine
end

section
/-! SUPPORT. The laws of run blocks: a doorbell write by the form of the request (spec/06_staithe.md, R115), a whole block that
passes the acceptance checks (R90), the deferred checks (R152) and the staging (R118 to R121). -/

namespace Sys2Proof.Machine
open Sys2Proof

/-- What `exec` answers, from what the command's function answers. -/
theorem runs_next {u t : State} (h : u = t) : (Host.Outcome.next u : Res) = .next t := congrArg _ h

/-! ## The doorbell -/

section
variable {s : State} {fn : Fn} {page off q : Nat} {data : List Byte}

/-- A whole aligned request of 64 bytes is a run block. -/
theorem State.doorbell_whole (hready : s.ready = true) (hq : s.queueAt fn page = some q) (ho : s.ownerOf .queue q = fn.idx)
    (hlen : data.length = 64) (halign : off % 64 = 0) (hlo : 0x400 ≤ off) (hhi : off < 0x1000) :
    s.doorbell fn page off data = s.runBlock q data := by
  simp [State.doorbell, hready, hq, ho, hlen, halign, hlo]
  exact fun hout => absurd hout (by omega)

/-- Every other request that reaches the doorbell area is torn. -/
theorem State.doorbell_torn (hready : s.ready = true) (hq : s.queueAt fn page = some q) (ho : s.ownerOf .queue q = fn.idx)
    (hlo : 0x400 < off + data.length) (hhi : off < 0x1000) (htorn : data.length ≠ 64 ∨ off % 64 ≠ 0 ∨ off < 0x400) :
    s.doorbell fn page off data = s.dropBlock q 1 0 0 := by
  have harea : ¬(off + data.length ≤ 0x400 ∨ 0x1000 ≤ off) := by omega
  have hwhole : ¬(data.length = 64 ∧ off % 64 = 0 ∧ 0x400 ≤ off) := by omega
  simp [State.doorbell, hready, hq, ho, harea, hwhole]

/-- The run of a block that queue `q` of owner `o` accepts, for fence `f`. -/
def State.newRun (s : State) (q f : Nat) (data : List Byte) : Run where
  id := s.nextRun
  owner := s.ownerOf .queue q
  ctx := s.rd F.Q_CFG_CTX q
  queue := q
  lode := numAt data 0 8 % 2 ^ 12
  block := (List.range 8).map (fun i => numAt data (8 * i) 8)
  fence := f
  phase := .queued
  accepted := s.tick
  deferred := false
  staging := .none
  staged := []
  stageN := 0
  reserve := 0
  inHeld := false
  outHeld := false
  admittedAt := 0
  under := none
  inst := 0
  pin := 0
  steps := []
  data := []
  stalledTicks := 0
  stop := none
  late := []
  trunc := false

/-- A block that passes the checks 1 to 4 takes its fence and goes on to the checks 5 to 8 as `newRun`. -/
theorem State.runBlock_accepted {f : Nat} (hopen : s.ctxOpen (s.ownerOf .queue q) (s.rd F.Q_CFG_CTX q) = true)
    (hf : s.fenceGlobal (s.ownerOf .queue q) (numAt data 24 8 % 2 ^ 17) = some f)
    (hwin : s.inWindow (s.rd F.Q_CFG_CTX q) (numAt data 24 8 % 2 ^ 17) = true) (hst : s.fence f = .armed) :
    s.runBlock q data = State.acceptRun ((({ s with
      fences := SMap.put .armed s.fences f (.held (.run s.nextRun)) } : State).count (devCnt 0) 1).countP
        (s.ownerOf .queue q) 0 1) (s.newRun q f data) := by
  simp [-Nat.reducePow, State.runBlock, State.newRun, hopen, hf, hwin, hst]

end

/-- Settles O3, with `newRun` for the run. -/
theorem runBlockTakesItsFence : Obligations.RunBlockTakesItsFence := by
  intro s fn page off q f data hready hq ho hlen halign hlo hhi hopen hf hwin hst
  refine ⟨s.newRun q f data, rfl, ho, rfl, rfl, rfl, rfl, rfl, runs_next ?_⟩
  rw [← ho] at hopen hf ⊢
  rw [State.doorbell_whole hready hq ho hlen halign hlo hhi, State.runBlock_accepted hopen hf hwin hst]

/-- Settles O4. -/
theorem tornDoorbellWriteIsDroppedWhole : Obligations.TornDoorbellWriteIsDroppedWhole := by
  intro s fn page off q data hready hq ho hlo hhi htorn
  exact runs_next (State.doorbell_torn hready hq ho hlo hhi htorn)

/-! ## Deferred checks and staging -/

section
variable {s : State} {id : Nat} {r : Run}

/-- Deferred checks that all pass end in the berth holds. -/
theorem State.deferredCheck_passed {s' : State} {p : Plan} {l : Lode} (hr : s.run? id = some r) (hd : r.deferred = true)
    (hp : s.planOf r.owner = some p) (hl : p.lode r.lode = some l) (hhold : s.deferred8 r.ctx p l = false)
    (h8 : s.check8 r p l = (s', none)) (h7 : s'.check7 r l = none) : s.deferredCheck id = s'.holdBerths r := by
  simp [State.deferredCheck, hr, hd, hp, hl, hhold, h8, h7]

/-- The first waiting payload that fits is read. -/
theorem State.stagingStart_fits {o : Nat} (hr : s.runs.find? (fun r => r.owner == o && r.staging == .waiting) = some r)
    (hfit : s.stageUsed o + ceilDiv (s.stageLen r) 256 * 256 ≤ 2 ^ 20) (hbme : s.bme o = true) :
    s.stagingStart o = (s.setRun { r with staging := .reading, stageN := s.stageLen r
                                          reserve := ceilDiv (s.stageLen r) 256 * 256 }).hostRead o
      (s.berthAddr o r.inRef + 16) (s.stageLen r) := by
  simp [State.stagingStart, hr, hbme]
  exact fun hbig => absurd hbig (by omega)

/-- The end of a staging read keeps the bytes and gives the held input berth back. -/
theorem State.stagingDone_reading {data : List Byte} (hr : s.run? id = some r) (hst : r.staging = .reading)
    (hheld : r.inHeld = true) :
    s.stagingDone id data = (((s.header0 r.owner r.inRef ownHost r.stageN).setRun
      { r with staging := .done, staged := slice data 0 r.stageN, inHeld := false }).count (devCnt 10)
        (ceilDiv r.stageN 64)).countP r.owner 4 (ceilDiv r.stageN 64) := by
  simp [State.stagingDone, hr, hst, hheld]

/-- A read that could not be issued fails the run. -/
theorem State.stagingFail_notIssued (hr : s.run? id = some r) (hst : r.staging = .reading) :
    s.stagingFail id .notIssued = State.failRun (s.modRun id (fun x => { x with staging := .none })) id .poison := by
  simp [State.stagingFail, hr, hst]

/-- A bad completion fails the run and is reported. -/
theorem State.stagingFail_bad {how : Cpl} (hr : s.run? id = some r) (hst : r.staging = .reading) (hok : how ≠ .ok)
    (hni : how ≠ .notIssued) : s.stagingFail id how =
      State.failRun ((s.emit (.aer r.owner how)).modRun id (fun x => { x with staging := .none })) id .poison := by
  simp [State.stagingFail, hr, hst, hok, hni]

end

/-- Settles O5. -/
theorem stagingAndDeferredChecksComplete : Obligations.StagingAndDeferredChecksComplete := by
  refine ⟨fun s s' id r p l hr hd hp hl hhold h8 h7 => ?_, fun s fn r hr hfit hbme => ?_,
    fun s id r data hr hst hheld => ?_, fun s id r how hr hst => ⟨fun hni => ?_, fun hok hni => ?_⟩⟩
  · exact runs_next (State.deferredCheck_passed hr hd hp hl hhold h8 h7)
  · exact runs_next (State.stagingStart_fits hr hfit hbme)
  · exact runs_next (State.stagingDone_reading hr hst hheld)
  · subst hni
    exact runs_next (State.stagingFail_notIssued hr hst)
  · exact runs_next (State.stagingFail_bad hr hst hok hni)

end Sys2Proof.Machine
end

section
/-! SUPPORT. The laws of hasps (spec/18_resets_hasps_longops.md, R422, R423, R426), one for each form of an acquire and a release. -/

namespace Sys2Proof.Machine
open Sys2Proof

section
variable {s : State} {who : Agent} {n : Nat}

/-- A FREE hasp goes to the agent that acquires it. -/
theorem State.haspAcquire_free (hreach : s.haspReach who = true) (hst : s.hspState n = hspFree) :
    s.haspAcquire who n = (s.setHasp n hspHeld (s.identity who)).haspReturn who (s.identity who) 1 := by
  simp [State.haspAcquire, hreach, hst, hspFree, hspHeld, hspBroken]

/-- A hasp that another agent holds stays with it. -/
theorem State.haspAcquire_busy (hreach : s.haspReach who = true) (hst : s.hspState n = hspHeld)
    (hother : s.hspIdent n ≠ s.identity who) : s.haspAcquire who n = s.haspReturn who (s.hspIdent n) 0 := by
  simp [State.haspAcquire, hreach, hst, hother]

/-- The holder's release frees the hasp. -/
theorem State.haspRelease_holder (hreach : s.haspReach who = true) (hst : s.hspState n = hspHeld)
    (hme : s.hspIdent n = s.identity who) : s.haspRelease who n = s.setHasp n hspFree noHolder := by
  simp [State.haspRelease, hreach, hst, hme]

/-- A release by another agent is ignored. -/
theorem State.haspRelease_other (hother : s.hspIdent n ≠ s.identity who) : s.haspRelease who n = s := by
  simp [State.haspRelease, hother]

end

/-- Settles O9. -/
theorem haspAcquireAndRelease : Obligations.HaspAcquireAndRelease := by
  refine ⟨fun s who n hreach hst => ?_, fun s who n hreach hst hme => ?_, fun s who n hreach hst hother => ⟨?_, ?_⟩⟩
  · exact runs_next (State.haspAcquire_free hreach hst)
  · exact runs_next (State.haspRelease_holder hreach hst hme)
  · exact runs_next (State.haspAcquire_busy hreach hst hother)
  · exact runs_next (State.haspRelease_other hother)

end Sys2Proof.Machine
end

section
/-! SUPPORT. The laws of `PLD_ASSIGN` and `PLD_RELEASE` (spec/04_polders_isolation.md, R68, R69), one object at a time and several,
and of the lock that refuses them (R83). -/

namespace Sys2Proof.Machine
open Sys2Proof

/-- A command of the PF acts once the pages answer. -/
theorem State.pfDo_pf {s : State} (hready : s.ready = true) (t : State) : s.pfDo .pf t = t := by
  simp [State.pfDo, hready]

/-! ## The loop over objects -/

section
variable {s t : State} {p n i e d : Nat} {f : State → Nat → Nat × State}

/-- What `PLD_ASSIGN_STATUS` shows after a command. -/
def State.assignShown (s : State) (p e d : Nat) : State :=
  (s.wr F.PLD_ASSIGN_STATUS_STATUS p e).wr F.PLD_ASSIGN_STATUS_DONE p d

/-- A polder that is CONFIGURING or ACTIVE and not locked takes the objects until one fails. -/
theorem State.assignCmd_open (hn : 0 < n) (hst : s.pst p = pConfiguring ∨ s.pst p = pActive) (h1 : s.tdisp p ≠ 1)
    (h2 : s.tdisp p ≠ 2) (hloop : objLoop f n s i 0 = (e, d, t)) : s.assignCmd p n i f = t.assignShown p e d := by
  have hn0 : n ≠ 0 := by omega
  have hlock : ¬(s.rd F.PLD_STATE_TDISP p = 1 ∨ s.rd F.PLD_STATE_TDISP p = 2) := fun h => h.elim h1 h2
  have hst' : ¬(s.pst p ≠ pConfiguring ∧ s.pst p ≠ pActive) := by tauto
  simp only [State.assignCmd, hn0, hlock, hst', hloop, if_false, State.assignShown]

/-- A locked polder takes none. -/
theorem State.assignCmd_locked (hn : 0 < n) (hlock : s.rd F.PLD_STATE_TDISP p = 1 ∨ s.rd F.PLD_STATE_TDISP p = 2) :
    s.assignCmd p n i f = s.assignShown p asLocked 0 := by
  have hn0 : n ≠ 0 := by omega
  simp only [State.assignCmd, hn0, hlock, if_true, if_false, State.assignShown]

/-- A loop of one object that passes shows OK and 1. -/
theorem objLoop_one (h : f s i = (asOk, t)) : objLoop f 1 s i 0 = (asOk, 1, t) := by
  simp only [objLoop, h, asOk]

end

/-! ## One object -/

section
variable {s : State} {p i ctx : Nat} {k : ObjKind}

/-- An object of the PF passes to the polder under its lowest free local index; an extent must be of the polder's set, and
clean. -/
theorem State.assignOne_ok (hi : i < objCount k) (hctx : k = .queue → s.ownerOf .context ctx = p) (hp : p ≠ 16)
    (ho : s.ownerOf k i = 16) (hlimit : (s.heldBy p k).length < objLimit k)
    (hext : k = .extent → s.extentInSet p i = true ∧ s.extentRetired i = false ∧ s.zeroPending (.extent i) = false ∧
      s.isClean (.extent i) = true) {t : State} (ht : t = (s.clearObject k i).setOwner k i p (s.freeLocal p k)) :
    s.assignOne p k ctx i = (asOk, if k = .queue then t.wr F.Q_CFG_CTX i ctx else t) := by
  have h1 : ¬(k = .queue ∧ s.ownerOf .context ctx ≠ p) := fun h => h.2 (hctx h.1)
  have h2 : ¬(k = .extent ∧ s.extentInSet p i = false) := fun h => by simp [(hext h.1).1] at h
  have h3 : ¬(k = .extent ∧ (s.extentRetired i = true ∨ s.zeroPending (.extent i) = true)) := fun h => by
    simp [(hext h.1).2.1, (hext h.1).2.2.1] at h
  have h4 : ¬(k = .extent ∧ s.isClean (.extent i) = false) := fun h => by simp [(hext h.1).2.2.2] at h
  have hne : ¬(16 = p) := hp.symm
  have hno : ¬(16 = noOwner) := by decide
  simp only [State.assignOne, Nat.not_le.2 hi, h1, hne, hno, ho, Nat.not_le.2 hlimit, h2, h3, h4, if_false, ne_eq,
    not_true_eq_false, ht]

/-- A clean object of the polder that is not in use returns to the PF. -/
theorem State.releaseOne_back (ho : s.ownerOf k i = p) (hfree : s.inUse p k i = false)
    (hclean : k ≠ .extent ∨ (s.isClean (.extent i) = true ∧ s.extentRetired i = false)) :
    s.releaseOne p k i = (asOk, ((if k = .context then s.failAll (fun r => r.ctx == i) .contextReset else s).clearObject
      k i).setOwner k i 16 0) := by
  have hz : ¬(k = .extent ∧ (s.isClean (.extent i) = false ∨ s.extentRetired i = true)) := by
    rintro ⟨hk, hd⟩
    obtain hk' | ⟨hc, hr⟩ := hclean
    · exact hk' hk
    · simp [hc, hr] at hd
  simp only [State.releaseOne, ho, hfree, hz, if_false, ne_eq, not_true_eq_false, Bool.false_eq_true]

/-- Another extent is nobody's until it is zeroed. -/
theorem State.releaseOne_zeroed (ho : s.ownerOf .extent i = p) (hfree : s.inUse p .extent i = false)
    (hdirty : s.isClean (.extent i) = false ∨ s.extentRetired i = true) :
    s.releaseOne p .extent i = (asOk, ((s.clearObject .extent i).addZero (.extent i) 16).setOwner .extent i noOwner 0) := by
  simp only [State.releaseOne, ho, hfree, hdirty, if_true, if_false, ne_eq, not_true_eq_false, Bool.false_eq_true,
    true_and, reduceCtorEq]

end

/-- Settles O11. -/
theorem assignAndReleasePassOneObject : Obligations.AssignAndReleasePassOneObject := by
  refine ⟨fun s t p k i ctx hready hst h1 h2 hi hctx ho hlimit hext ht => ?_,
    fun s t p k i hready hst h1 h2 ho hfree ht => ⟨fun hclean => ?_, fun hk hdirty => ?_⟩,
    fun s t p k i n e d ctx hready hn hst h1 h2 => ⟨fun hloop => ?_, fun hloop => ?_⟩⟩
  · have hone := State.assignOne_ok hi hctx (by omega) ho hlimit hext ht
    exact runs_next ((State.pfDo_pf hready _).trans (State.assignCmd_open Nat.one_pos hst h1 h2 (objLoop_one hone)))
  · have hone := State.releaseOne_back ho hfree hclean
    rw [← ht] at hone
    exact runs_next ((State.pfDo_pf hready _).trans (State.assignCmd_open Nat.one_pos hst h1 h2 (objLoop_one hone)))
  · subst hk
    have hone := State.releaseOne_zeroed ho hfree hdirty
    rw [show s.clearObject .extent i = t from ht.symm] at hone
    exact runs_next ((State.pfDo_pf hready _).trans (State.assignCmd_open Nat.one_pos hst h1 h2 (objLoop_one hone)))
  · exact runs_next ((State.pfDo_pf hready _).trans (State.assignCmd_open hn hst h1 h2 hloop))
  · exact runs_next ((State.pfDo_pf hready _).trans (State.assignCmd_open hn hst h1 h2 hloop))

/-- Settles O12. -/
theorem lockedPolderTakesNoObject : Obligations.LockedPolderTakesNoObject := by
  intro s p k i n ctx hready hn hlock
  exact runs_next ((State.pfDo_pf hready _).trans (State.assignCmd_locked hn hlock))

end Sys2Proof.Machine
end

section
/-! SUPPORT. What a fence signal leaves alone (spec/05_host_objects_fences.md, R94, R104, R105): every part of the state that no
message, counter, ring, mirror or interrupt of it is (`Silent`), so most registers and the long operations. -/

namespace Sys2Proof.Machine
open Sys2Proof

/-! ## Registers at different places -/

/-- Where a field stands on its page. -/
def Fld.place (f : Fld) : Nat := (f.off * 64 + f.lo) % 262144

theorem Fld.key_mod (f : Fld) (inst : Nat) : f.key inst 0 % 262144 = f.place := by
  unfold Fld.key Fld.place
  omega

/-- A field at another place of its page, whatever the page, is not written. -/
theorem State.rd_wr_place (s : State) {f g : Fld} (h : g.place ≠ f.place) (i j v : Nat) : (s.wr f i v).rd g j = s.rd g j :=
  s.rd_wr_ne f g i j v fun hk => h (by rw [← g.key_mod j, ← f.key_mod i, hk])

/-! ## What a signal leaves alone -/

/-- The register fields that a signal writes. -/
def signalFields : List Fld := [F.CTX_MIRROR_EN, F.CTX_STATUS_MIRROR_FAULT, F.EVR_TAIL_TAIL, F.EVR_TAIL_LOST]

/-- A part `π` of the state that the updates of a signal leave alone. -/
structure Silent {α : Type} (π : State → α) : Prop where
  out : ∀ (s : State) x, π { s with out := x } = π s
  pba : ∀ (s : State) x, π { s with pba := x } = π s
  counts : ∀ (s : State) x, π { s with counts := x } = π s
  rings : ∀ (s : State) x, π { s with rings := x } = π s
  coal : ∀ (s : State) x, π { s with coal := x } = π s
  fences : ∀ (s : State) x, π { s with fences := x } = π s
  wr : ∀ (s : State), ∀ f ∈ signalFields, ∀ i v, π (s.wr f i v) = π s

/-- A register field at a place where no signal writes. -/
theorem Silent.rd {g : Fld} (h : ∀ f ∈ signalFields, g.place ≠ f.place) (i : Nat) : Silent (fun s => s.rd g i) :=
  ⟨fun _ _ => rfl, fun _ _ => rfl, fun _ _ => rfl, fun _ _ => rfl, fun _ _ => rfl, fun _ _ => rfl,
    fun s f hf j v => s.rd_wr_place (h f hf) j i v⟩

theorem Silent.ops : Silent State.ops := by
  constructor <;> intros <;> rfl

/-- Updates in a row leave a part of the state alone when each one does. -/
theorem State.foldl_proj {α β : Type} {π : State → α} {f : State → β → State} (hf : ∀ (t : State) (b : β), π (f t b) = π t)
    (l : List β) (s : State) : π (l.foldl f s) = π s := by
  induction l generalizing s with
  | nil => rfl
  | cons b l ih => exact (ih _).trans (hf s b)

section
variable {α : Type} {π : State → α} (h : Silent π)
include h

theorem Silent.count (s : State) (k n : Nat) : π (s.count k n) = π s := h.counts s _

theorem Silent.countP (s : State) (o j n : Nat) : π (s.countP o j n) = π s := by
  unfold State.countP
  split
  · rfl
  · exact h.count s _ n

theorem Silent.emit (s : State) (o : Out) : π (s.emit o) = π s := h.out s _

theorem Silent.sendMsix (s : State) (o vec : Nat) : π (s.sendMsix o vec) = π s := by
  unfold State.sendMsix
  extract_lets k
  split
  · exact h.pba s _
  · rw [h.countP, h.count, h.emit]

theorem Silent.raise (s : State) (o code arg0 arg1 : Nat) (src : Option Nat) : π (s.raise o code arg0 arg1 src) = π s := by
  have htail : F.EVR_TAIL_TAIL ∈ signalFields := by decide
  have hlost : F.EVR_TAIL_LOST ∈ signalFields := by decide
  unfold State.raise State.ringPut
  split
  · rfl
  extract_lets n tail ring s1 s2 addr s3 tail' s4 s5 s6 s7
  split
  · have h1 : π s1 = π s := h.wr s _ hlost o _
    exact (h.count s2 _ 1).trans ((h.rings s1 _).trans h1)
  · have h3 : π s3 = π s := h.emit s _
    have h5 : π s5 = π s := (h.rings s4 _).trans ((h.wr s3 _ htail o _).trans h3)
    exact (h.sendMsix s7 _ _).trans ((h.countP s6 _ _ _).trans ((h.count s5 _ 1).trans h5))

theorem Silent.mirror (s : State) (c f v : Nat) : π (s.mirror c f v) = π s := by
  have hen : F.CTX_MIRROR_EN ∈ signalFields := by decide
  have hfault : F.CTX_STATUS_MIRROR_FAULT ∈ signalFields := by decide
  unfold State.mirror
  split
  · rfl
  extract_lets o va pinned
  split
  · split
    · rw [h.count]
      exact h.emit s _
    · rfl
  · rw [h.raise, h.wr _ _ hfault, h.wr _ _ hen]

theorem Silent.notifyIrq (s : State) (c : Nat) : π (s.notifyIrq c) = π s := by
  unfold State.notifyIrq
  split
  · exact h.sendMsix s _ _
  split
  · dsimp only
    split
    · rw [h.sendMsix, h.coal]
    · exact h.coal s _
  · rfl

theorem Silent.notifyAll (s : State) (f : Nat) : π (s.notifyAll f) = π s :=
  (State.foldl_proj h.notifyIrq _ _).trans (State.foldl_proj (fun t c => h.mirror t c f _) _ s)

theorem Silent.countSignal (s : State) (o : Nat) (e : Option Err) : π (s.countSignal o e) = π s := by
  have h1 : π (((s.count (devCnt 4) 1).countP o 6 1).countP o (outcomeCnt e) 1) = π s := by
    rw [h.countP, h.countP, h.count]
  unfold State.countSignal
  extract_lets s1
  split
  · exact (h.count s1 _ _).trans h1
  · exact h1

theorem Silent.signal (s : State) (f : Nat) (e : Option Err) : π (s.signal f e) = π s := by
  unfold State.signal
  split
  · rw [h.notifyAll, h.countSignal, h.fences]
  · rfl

theorem Silent.signalAll (s : State) (fs : List Nat) (e : Option Err) : π (s.signalAll fs e) = π s :=
  State.foldl_proj (fun t f => h.signal t f e) fs s

theorem Silent.signalOpt (s : State) (f : Option Nat) (e : Option Err) : π (s.signalOpt f e) = π s := by
  cases f with
  | none => rfl
  | some f => exact h.signal s f e

theorem Silent.takeFence (s : State) (o : Nat) (fe : Option Nat) (op : OpSel) : π (s.takeFence o fe op).2 = π s := by
  unfold State.takeFence
  split
  · rfl
  split
  · rfl
  split
  · exact h.fences s _
  · rfl

theorem Silent.doneFence (s : State) (o : Nat) (fe : Option Nat) (op : OpSel) (e : Option Err) :
    π (s.doneFence o fe op e) = π s :=
  (h.signalOpt _ _ e).trans (h.takeFence s o fe op)

end

/-- The end of an operation leaves the registers where no signal writes. -/
theorem State.endOp_rd {g : Fld} (h : ∀ f ∈ signalFields, g.place ≠ f.place) (s : State) (o : LongOp) (e : Option Err)
    (i : Nat) : (s.endOp o e).rd g i = s.rd g i :=
  (Silent.rd h i).signalAll (s.dropOp o.sel) _ e

/-- An ended operation is gone. -/
theorem State.endOp_op? (s : State) (o : LongOp) (e : Option Err) {k : OpKind} {i : Nat} (hsel : o.sel = ⟨k, i⟩) :
    (s.endOp o e).op? k i = none := by
  have hops : (s.endOp o e).ops = (s.dropOp o.sel).ops := Silent.ops.signalAll (s.dropOp o.sel) _ e
  rw [State.op?, hops, List.find?_eq_none]
  intro x hx
  simpa [State.dropOp, hsel] using (List.mem_filter.1 hx).2

/-- What is found under a selector has it. -/
theorem State.op?_sel {s : State} {k : OpKind} {i : Nat} {o : LongOp} (h : s.op? k i = some o) : o.sel = ⟨k, i⟩ := by
  simpa using List.find?_some h

end Sys2Proof.Machine
end

section
/-! SUPPORT. The moves of a polder that no command makes (spec/04_polders_isolation.md, R71, R543), and the TDISP requests (R81 to
R85). -/

namespace Sys2Proof.Machine
open Sys2Proof

/-! ## Registers that a clearing leaves -/

theorem SMap.get_filter_keep {α : Type} (d : α) (p : Nat × α → Bool) {k : Nat} (hk : ∀ v, p (k, v) = true) (m : SMap α) :
    SMap.get d (m.filter p) k = SMap.get d m k := by
  induction m with
  | nil => rfl
  | cons e t ih =>
    obtain ⟨k', v⟩ := e
    by_cases he : k' = k
    · subst he
      simp [List.filter_cons_of_pos (hk v), SMap.get]
    · cases hp : p (k', v)
      · rw [List.filter_cons_of_neg (by simp [hp]), ih]
        simp [SMap.get, he]
      · rw [List.filter_cons_of_pos hp]
        simp [SMap.get, he, ih]

/-- A clearing leaves a field whose offset it does not name. -/
theorem State.clearRegs_rd (s : State) (b : Block) (inst : Nat) {q : Nat → Bool} {g : Fld} (hlo : g.lo < 64)
    (hq : q (g.off % 4096) = false) (i : Nat) : (s.clearRegs b inst q).rd g i = s.rd g i := by
  have hoff : g.key i 0 / 64 % 4096 = g.off % 4096 := by
    unfold Fld.key
    omega
  exact SMap.get_filter_keep _ _ (fun v => by simp [hoff, hq]) s.flds

/-! ## The moves of a polder -/

section
variable {s : State} {p : Nat}

theorem State.drainComplete_enters (hst : s.pst p = pDraining) (hruns : s.runs.all (fun r => r.owner != p) = true) :
    s.drainComplete p = s.enterZeroing p := by
  simp only [State.drainComplete, hst, hruns, and_self, if_true]

theorem State.clearingDone_returns (hst : s.pst p = pResetting) (hop : s.op? .pld p = none)
    (hdue : (s.aux p).zeroDue = false) : s.clearingDone p = s.wr F.PLD_STATE_STATE p (s.aux p).resetFrom := by
  simp [State.clearingDone, hst, hop, hdue]

theorem State.clearingDone_zeroes (hst : s.pst p = pResetting) (hop : s.op? .pld p = none)
    (hdue : (s.aux p).zeroDue = true) : s.clearingDone p = (s.zeroOp p none).beginZero p := by
  simp [State.clearingDone, hst, hop, hdue]

/-- The state in which the zeroing of polder `p` has done its work. -/
def State.zeroed (s : State) (p : Nat) : State := ((s.wr F.PLD_STATE_TDISP p 0).resetEpochs p).orderDone p

section
variable {o : LongOp} (hop : s.op? .pld p = some o) (hrun : s.opRuns o = true)
  (hjobs : s.zeroJobs.any (fun j => j.polder == p) = false) (hclean : s.unclean p = [])
include hop hrun hjobs hclean

theorem State.zeroingComplete_resetting (hst : s.pst p = pResetting) :
    s.zeroingComplete p = ((s.zeroed p).wr F.PLD_STATE_STATE p (s.aux p).resetFrom).endOp o none := by
  simp [State.zeroingComplete, State.zeroed, hop, hrun, hjobs, hclean, hst, pResetting, pZeroing, pDraining]

theorem State.zeroingComplete_stopped (hdrain : s.pst p ≠ pDraining) (hreset : s.pst p ≠ pResetting) (hz : s.pst p ≠ pZeroing) :
    s.zeroingComplete p = (s.zeroed p).endOp o none := by
  simp [State.zeroingComplete, State.zeroed, hop, hrun, hdrain, hjobs, hclean, hz, hreset]

/-- A ZEROING polder is FREE and unlocked when its zeroing completes, and its operation is gone. -/
theorem State.zeroingComplete_zeroing (hst : s.pst p = pZeroing) :
    (s.zeroingComplete p).pst p = pFree ∧ (s.zeroingComplete p).tdisp p = 0 ∧
      (s.zeroingComplete p).opBusy .pld p = false := by
  have hstate : ∀ f ∈ signalFields, F.PLD_STATE_STATE.place ≠ f.place := by decide
  have htdisp : ∀ f ∈ signalFields, F.PLD_STATE_TDISP.place ≠ f.place := by decide
  have hdrain : ¬(pZeroing = pDraining) := by decide
  simp only [State.zeroingComplete, hop, hdrain, hrun, hjobs, hclean, hst, List.isEmpty_nil, Bool.not_true, if_true,
    Bool.false_eq_true, if_false, or_self, reduceCtorEq]
  refine ⟨?_, ?_, ?_⟩
  · rw [State.pst, State.endOp_rd hstate, State.rd_wr_same]
    rfl
  · rw [State.tdisp, State.endOp_rd htdisp, State.rd_wr_place _ (by decide), State.clearRegs_rd _ _ _ (by decide) (by decide)]
    refine (State.foldl_proj (π := fun t => t.rd F.PLD_STATE_TDISP p) (fun _ _ => by rfl) _ _).trans ?_
    rw [State.orderDone, State.rd_wr_place _ (by decide), State.rd_wr_place _ (by decide), State.resetEpochs,
      State.clearRegs_rd _ _ _ (by decide) (by decide)]
    exact State.rd_wr_same s F.PLD_STATE_TDISP p 0
  · exact State.opBusy_none (State.endOp_op? _ o none (State.op?_sel hop))

end

theorem State.zeroOrder_free (hreq : bitAt (s.rd F.JCT_ZERO_MGC_REQ 0) p = false) (hst : s.pst p = pFree) :
    s.zeroOrder p = s.wr F.JCT_ZERO_MGC_REQ 0 (setBit (s.rd F.JCT_ZERO_MGC_REQ 0) p) := by
  simp [State.zeroOrder, hreq, hst]

theorem State.zeroOrder_resets (hreq : bitAt (s.rd F.JCT_ZERO_MGC_REQ 0) p = false) (hst : s.pst p ≠ pFree) :
    s.zeroOrder p =
      (s.wr F.JCT_ZERO_MGC_REQ 0 (setBit (s.rd F.JCT_ZERO_MGC_REQ 0) p)).functionReset p true := by
  simp [State.zeroOrder, hreq, hst]

end

/-! ## Zeroing on reassignment -/

theorem State.resourceZeroed_steps {s : State} {j : ZeroJob}
    (hj : s.zeroJobs.find? (fun j => j.polder == 16 && j.finished && s.zeroRuns j) = some j) :
    s.resourceZeroed = s.zeroStep j j.item.size := by
  simp [State.resourceZeroed, hj]

theorem State.cleaned_isClean (s : State) (z : ZeroItem) : (s.cleaned z).isClean z = true := by
  have h (t : State) : (t.setDirty z false).isClean z = true := by simp [State.isClean, State.setDirty]
  unfold State.cleaned
  cases z with
  | extent e =>
    dsimp only
    split
    · exact h s
    · exact h s
  | way w => exact h s
  | mereUnit u => exact h s

theorem State.cleaned_zeroJobs (s : State) (z : ZeroItem) : (s.cleaned z).zeroJobs = s.zeroJobs := by
  unfold State.cleaned
  cases z with
  | extent e =>
    dsimp only
    split <;> rfl
  | way w => rfl
  | mereUnit u => rfl

/-- A step of the whole size ends the job: its item is clean and no job of the item is left. -/
theorem State.zeroStep_whole (s : State) (j : ZeroJob) :
    (s.zeroStep j j.item.size).isClean j.item = true ∧ (s.zeroStep j j.item.size).zeroPending j.item = false := by
  unfold State.zeroStep
  extract_lets m w s1 s2
  have hw : j.item.size ≤ w := by omega
  rw [if_pos hw]
  refine ⟨State.cleaned_isClean _ _, ?_⟩
  rw [State.zeroPending, State.cleaned_zeroJobs, List.any_eq_false]
  intro x hx
  simpa using (List.mem_filter.1 hx).2

/-- Settles O14. -/
theorem finishedZeroingLeavesItsItemClean : Obligations.FinishedZeroingLeavesItsItemClean := by
  intro s j hj
  refine ⟨_, rfl, ?_⟩
  rw [State.resourceZeroed_steps hj]
  exact s.zeroStep_whole j

/-- Settles O13. -/
theorem polderMovesComplete : Obligations.PolderMovesComplete := by
  refine ⟨fun s p hst hruns => runs_next (State.drainComplete_enters hst hruns),
    fun s p hst hop => ⟨fun hdue hfrom => ⟨_, rfl, ?_⟩, fun hdue => runs_next (State.clearingDone_zeroes hst hop hdue)⟩,
    fun s s1 p o hop hrun hdrain hjobs hclean hs1 => ⟨fun hst => runs_next ?_, fun hst => ⟨_, rfl, ?_⟩, fun hr hz => runs_next ?_⟩,
    fun s j hj => runs_next (State.resourceZeroed_steps hj),
    fun s p hreq => ⟨fun hst => runs_next (State.zeroOrder_resets hreq hst),
      fun hst => runs_next (State.zeroOrder_free hreq hst)⟩⟩
  · change (s.clearingDone p.val).pst p.val = _
    rw [State.clearingDone_returns hst hop hdue, State.pst, State.rd_wr_same]
    exact Nat.mod_eq_of_lt hfrom
  · rw [State.zeroingComplete_resetting hop hrun hjobs hclean hst, hs1, State.zeroed]
  · exact State.zeroingComplete_zeroing hop hrun hjobs hclean hst
  · rw [State.zeroingComplete_stopped hop hrun hjobs hclean hdrain hr hz, hs1, State.zeroed]

/-! ## TDISP -/

section
variable {s : State} {p : Nat}

theorem State.tdispLock_waits (hst : s.pst p = pActive) (hlock : s.tdisp p = 0) (hwait : (s.aux p).lockWait = none)
    (hop : s.op? .pld p = none) : s.tdispLock p true =
      (s.setAux p { s.aux p with lockWait := some (s.pfInto p), ide := true }).finishLock p := by
  simp [State.tdispLock, hst, hlock, hwait, hop]

theorem State.tdispStart_locked (hlock : s.tdisp p = 1) :
    s.tdispStart p = (s.wr F.PLD_STATE_TDISP p 2).tdispReply 0x06 p [] := by
  simp [State.tdispStart, hlock]

theorem State.tdispStop_zeroes (hlock : s.tdisp p ≠ 0) (hst : s.pst p = pActive ∨ s.pst p = pConfiguring)
    (hop : s.op? .pld p = none) : s.tdispStop p = (((s.setAux p { s.aux p with lockWait := none }).tdispReply 0x07 p
      []).zeroOp p none).beginZero p := by
  have hst' : ¬(s.pst p ≠ pActive ∧ s.pst p ≠ pConfiguring) := by tauto
  simp only [State.tdispStop, hlock, hst', hop, Option.isSome_none, Bool.false_eq_true, or_self, if_false]

theorem State.tdispStop_answers (h : s.tdisp p = 0 ∨ s.op? .pld p ≠ none) :
    s.tdispStop p = (s.setAux p { s.aux p with lockWait := none }).tdispReply 0x07 p [] := by
  have hskip : s.tdisp p = 0 ∨ (s.pst p ≠ pActive ∧ s.pst p ≠ pConfiguring) ∨ (s.op? .pld p).isSome := by
    obtain h | h := h
    · exact .inl h
    · exact .inr (.inr (Option.isSome_iff_ne_none.2 h))
  simp only [State.tdispStop, hskip, if_true]

theorem State.ideFailure_errs (hst : s.pst p ≠ pFree) : s.ideFailure p =
    ((s.setAux p { s.aux p with lockWait := none }).wr F.PLD_STATE_TDISP p 3).failAll
      (fun r => r.owner == p && r.phase == .queued) .polderReset := by
  simp [State.ideFailure, hst]

end

/-- Settles O15. -/
theorem tdispRequestsComplete : Obligations.TdispRequestsComplete := by
  refine ⟨fun s p => ⟨rfl, rfl, rfl, rfl⟩, fun s p hst hlock hwait hop => runs_next (State.tdispLock_waits hst hlock hwait hop),
    fun s p hlock => ⟨_, rfl, ?_⟩,
    fun s s1 p hs1 => ⟨fun hlock hst hop => runs_next ?_, fun h => runs_next ?_⟩,
    fun s p hst => runs_next (State.ideFailure_errs hst)⟩
  · rw [State.tdispStart_locked hlock]
    refine ⟨State.rd_wr_same s F.PLD_STATE_TDISP p 2, fun q hq => State.rd_wr_ne s _ _ _ _ _ fun hk => hq ?_⟩
    simp only [Fld.key] at hk
    omega
  · rw [hs1, State.tdispStop_zeroes hlock hst hop]
  · rw [hs1, State.tdispStop_answers h]

end Sys2Proof.Machine
end

section
/-! SUPPORT. The laws of contexts and fence blocks (spec/05_host_objects_fences.md, R89, R103, R107), with what the failure of a run
takes out. -/

namespace Sys2Proof.Machine
open Sys2Proof

/-! ## What the failure of a run leaves -/

theorem State.finishCtxReset_proj {α : Type} {π : State → α}
    (h : ∀ (s : State) (f : Fld) (i v : Nat), π (s.wr f i v) = π s)
    (s : State) (c : Nat) : π (s.finishCtxReset c) = π s := by
  unfold State.finishCtxReset
  split
  · extract_lets s1
    have h1 : π s1 = π s := State.foldl_proj (fun t q => by
      split
      · rw [h, h, h]
      · rfl) _ s
    rw [h, h]
    exact (h s1 _ _ _).trans h1
  · rfl

theorem State.dropTiles_runs (s : State) (id : Nat) : (s.dropTiles id).runs = s.runs :=
  State.foldl_proj (fun t a => by dsimp only; split <;> rfl) _ s

theorem State.dropTiles_ops (s : State) (id : Nat) : (s.dropTiles id).ops = s.ops :=
  State.foldl_proj (fun t a => by dsimp only; split <;> rfl) _ s

theorem State.idleEngines_runs (s : State) (id : Nat) : (s.idleEngines id).runs = s.runs := rfl

theorem State.idleEngines_ops (s : State) (id : Nat) : (s.idleEngines id).ops = s.ops := rfl

theorem State.leaveFaults_runs (s : State) (id : Nat) : (s.leaveFaults id).runs = s.runs := rfl

theorem State.leaveFaults_ops (s : State) (id : Nat) : (s.leaveFaults id).ops = s.ops := rfl

theorem State.finishLock_runs (s : State) (p : Nat) : (s.finishLock p).runs = s.runs := by
  unfold State.finishLock
  extract_lets a
  split <;> rfl

theorem State.finishLock_ops (s : State) (p : Nat) : (s.finishLock p).ops = s.ops := by
  unfold State.finishLock
  extract_lets a
  split <;> rfl

theorem State.leaveLocks_runs (s : State) (id : Nat) : (s.leaveLocks id).runs = s.runs :=
  State.foldl_proj (fun t p => by
    dsimp only; split
    · rfl
    · exact State.finishLock_runs _ p) _ s

theorem State.leaveLocks_ops (s : State) (id : Nat) : (s.leaveLocks id).ops = s.ops :=
  State.foldl_proj (fun t p => by
    dsimp only; split
    · rfl
    · exact State.finishLock_ops _ p) _ s

theorem Silent.runs : Silent State.runs := by
  constructor <;> intros <;> rfl

theorem State.finishRun_runs (s : State) (r : Run) (e : Option Err) :
    (s.finishRun r e).runs = s.runs.filter (fun x => x.id != r.id) := by
  rw [State.finishRun, State.leaveLocks_runs, State.finishCtxReset_proj (π := State.runs) (fun _ _ _ _ => rfl),
    Silent.runs.signal, State.idleEngines_runs, State.dropTiles_runs, State.leaveFaults_runs]

theorem State.finishRun_ops (s : State) (r : Run) (e : Option Err) : (s.finishRun r e).ops = s.ops := by
  rw [State.finishRun, State.leaveLocks_ops, State.finishCtxReset_proj (π := State.ops) (fun _ _ _ _ => rfl),
    Silent.ops.signal, State.idleEngines_ops, State.dropTiles_ops, State.leaveFaults_ops]

theorem State.lastFail_runs (s : State) (r : Run) : (s.lastFail r).runs = s.runs := by
  unfold State.lastFail
  split <;> rfl

theorem State.lastFail_ops (s : State) (r : Run) : (s.lastFail r).ops = s.ops := by
  unfold State.lastFail
  split <;> rfl

theorem State.header0_runs (s : State) (o : Nat) (b : BerthRef) (own len : Nat) : (s.header0 o b own len).runs = s.runs := by
  unfold State.header0
  split <;> rfl

theorem State.header0_ops (s : State) (o : Nat) (b : BerthRef) (own len : Nat) : (s.header0 o b own len).ops = s.ops := by
  unfold State.header0
  split <;> rfl

theorem State.returnBerths_runs (s : State) (r : Run) : (s.returnBerths r).runs = s.runs := by
  unfold State.returnBerths
  extract_lets s1
  have h1 : s1.runs = s.runs := by
    simp only [s1]
    split
    · split
      · rfl
      · exact State.header0_runs ..
    · rfl
  split
  · rw [State.header0_runs, h1]
  · exact h1

theorem State.returnBerths_ops (s : State) (r : Run) : (s.returnBerths r).ops = s.ops := by
  unfold State.returnBerths
  extract_lets s1
  have h1 : s1.ops = s.ops := by
    simp only [s1]
    split
    · split
      · rfl
      · exact State.header0_ops ..
    · rfl
  split
  · rw [State.header0_ops, h1]
  · exact h1

theorem State.keepIdle_runs (s : State) (r : Run) : (s.keepIdle r).runs = s.runs := by
  unfold State.keepIdle
  split <;> rfl

theorem State.keepIdle_ops (s : State) (r : Run) : (s.keepIdle r).ops = s.ops := by
  unfold State.keepIdle
  split <;> rfl

/-- A run found by its number has it. -/
theorem State.run?_id {s : State} {id : Nat} {r : Run} (h : s.run? id = some r) : r.id = id := by
  simpa using List.find?_some h

/-- The failure of run `id` takes every record of that number out. -/
theorem State.failRun_runs (s : State) (id : Nat) (e : Err) :
    (s.failRun id e).runs = s.runs.filter (fun x => x.id != id) := by
  unfold State.failRun
  split
  next h =>
    refine (List.filter_eq_self.2 fun r hr => ?_).symm
    simpa using List.find?_eq_none.1 h r hr
  next r h =>
    rw [State.keepIdle_runs, State.finishRun_runs, State.returnBerths_runs, State.lastFail_runs, State.run?_id h]

theorem State.failRun_ops (s : State) (id : Nat) (e : Err) : (s.failRun id e).ops = s.ops := by
  unfold State.failRun
  split
  · rfl
  · rw [State.keepIdle_ops, State.finishRun_ops, State.returnBerths_ops, State.lastFail_ops]

/-- Failures in a row leave the runs of other numbers. -/
theorem State.mem_foldl_failRun {l : List Run} {s : State} {e : Err} {r : Run}
    (h : r ∈ (l.foldl (fun t x => t.failRun x.id e) s).runs) : r ∈ s.runs ∧ ∀ x ∈ l, r.id ≠ x.id := by
  induction l generalizing s with
  | nil => exact ⟨h, by simp⟩
  | cons x l ih =>
    obtain ⟨hr, hl⟩ := ih h
    rw [State.failRun_runs, List.mem_filter] at hr
    refine ⟨hr.1, fun y hy => ?_⟩
    obtain rfl | hy := List.mem_cons.1 hy
    · simpa using hr.2
    · exact hl y hy

/-- No run that satisfies the test is left. -/
theorem State.mem_failAll {s : State} {q : Run → Bool} {e : Err} {r : Run} (h : r ∈ (s.failAll q e).runs) :
    r ∈ s.runs ∧ q r = false := by
  obtain ⟨hr, hl⟩ := State.mem_foldl_failRun h
  refine ⟨hr, ?_⟩
  by_contra hq
  exact hl r (List.mem_filter.2 ⟨hr, by simpa using hq⟩) rfl

theorem State.failAll_ops (s : State) (q : Run → Bool) (e : Err) : (s.failAll q e).ops = s.ops :=
  State.foldl_proj (π := State.ops) (fun (t : State) (x : Run) => t.failRun_ops x.id e) (s.runs.filter q) s

/-! ## A CONTEXT reset -/

theorem State.endOp_ops (s : State) (o : LongOp) (e : Option Err) :
    (s.endOp o e).ops = s.ops.filter (fun x => !decide (x.sel = o.sel)) :=
  Silent.ops.signalAll (s.dropOp o.sel) _ e

/-- Operations ended in a row leave those of other selectors. -/
theorem State.mem_foldl_endOp {l : List LongOp} {s : State} {e : Option Err} {o : LongOp}
    (h : o ∈ (l.foldl (fun t x => t.endOp x e) s).ops) : o ∈ s.ops ∧ ∀ x ∈ l, o.sel ≠ x.sel := by
  induction l generalizing s with
  | nil => exact ⟨h, by simp⟩
  | cons x l ih =>
    obtain ⟨ho, hl⟩ := ih h
    rw [State.endOp_ops, List.mem_filter] at ho
    refine ⟨ho.1, fun y hy => ?_⟩
    obtain rfl | hy := List.mem_cons.1 hy
    · simpa using ho.2
    · exact hl y hy

/-- Settles O17: the lists are filtered by the context, the operations ended and the queued runs failed one by one. -/
theorem contextResetEmptiesTheContext : Obligations.ContextResetEmptiesTheContext := by
  rintro s c t rfl
  unfold State.ctxReset
  extract_lets s1 s2 s3
  have hproj {α : Type} (π : State → α) (h : ∀ (s : State) (f : Fld) (i v : Nat), π (s.wr f i v) = π s)
      (q : Run → Bool) (e : Err) :=
    State.finishCtxReset_proj h (s3.stopAll q e) c
  refine ⟨fun m hm => ?_, fun f hf => ?_, fun h hh => ?_, fun o ho => ?_, fun r hr hc hq => ?_⟩
  · rw [hproj State.mobs (fun _ _ _ _ => rfl)] at hm
    simpa using (List.mem_filter.1 hm).2
  · rw [hproj State.faults (fun _ _ _ _ => rfl)] at hf
    simpa using (List.mem_filter.1 hf).2
  · rw [hproj State.holds (fun _ _ _ _ => rfl)] at hh
    simpa using (List.mem_filter.1 hh).2
  · rw [hproj State.ops (fun _ _ _ _ => rfl)] at ho
    have ho1 : o ∈ s1.ops := by
      have h2 : s2.ops = s1.ops := State.failAll_ops _ _ _
      exact h2 ▸ ho
    obtain ⟨hos, hsel⟩ := State.mem_foldl_endOp ho1
    exact fun hctx => hsel o (List.mem_filter.2 ⟨hos, by simp [hctx]⟩) rfl
  · rw [hproj State.runs (fun _ _ _ _ => rfl)] at hr
    obtain ⟨x, hx, hrx⟩ := List.mem_map.1 hr
    have hx2 : (x.ctx == c && x.phase != .admitted) = false := (State.mem_failAll hx).2
    have hsame : r.ctx = x.ctx ∧ r.phase = x.phase := by
      rw [← hrx]
      split <;> exact ⟨rfl, rfl⟩
    rw [← hsame.1, ← hsame.2, hc, hq] at hx2
    simp at hx2

/-! ## BLOCK_RESET -/

/-- Settles O18, by induction on the fences that are left. -/
theorem blockResetSweepArmsAllButHeldFences : Obligations.BlockResetSweepArmsAllButHeldFences := by
  intro s block i f hi
  induction hn : 512 - i generalizing s i with
  | zero =>
    have hout : ¬(512 * block + i ≤ f ∧ f < 512 * block + 512) := by omega
    rw [if_neg hout, State.fenceSweep]
  | succ n ih =>
    have hlt : ¬(512 ≤ i) := by omega
    rw [State.fenceSweep, if_neg hlt]
    extract_lets s1
    have h1 : ∀ g, s1.fence g = s.fence g := fun _ => rfl
    have hrest : 512 - (i + 1) = n := by omega
    split
    next h hh =>
      rw [ih (s1.bump F.FNC_PROGRESS_HELD 0 1) (i + 1) (by omega) hrest,
        show (s1.bump F.FNC_PROGRESS_HELD 0 1).fence f = s.fence f from rfl]
      obtain rfl | hne := eq_or_ne f (512 * block + i)
      · rw [if_neg (by omega), if_pos (by omega), hh]
      · simp only [show 512 * block + (i + 1) ≤ f ↔ 512 * block + i ≤ f by omega]
    next hnot =>
      rw [ih _ (i + 1) (by omega) hrest]
      obtain rfl | hne := eq_or_ne f (512 * block + i)
      · rw [if_neg (by omega), if_pos (by omega), State.fence_put_same]
        split
        next h hh => exact absurd hh (hnot h)
        next => rfl
      · rw [State.fence_put_ne _ _ hne, h1]
        simp only [show 512 * block + (i + 1) ≤ f ↔ 512 * block + i ≤ f by omega]

/-! ## The commands -/

theorem State.blockReset_starts {s : State} {block : Nat} {fe : Option Nat} (hop : s.op? .fnc 0 = none) :
    s.blockReset block fe = ((s.wr F.FNC_PROGRESS_DONE 0 0).wr F.FNC_PROGRESS_HELD 0 0).startOp .fnc 0 16 fe 512
      (.fenceReset block 0) := by
  simp [State.blockReset, State.opBusy_none hop]

/-- A command on the page of a context acts for its owner. -/
theorem State.ctxDo_owner {s : State} {fn : Fn} {c : Nat} (hready : s.ready = true) (ho : s.ownerOf .context c = fn.idx)
    (t : State) : s.ctxDo fn c t = t := by
  simp [State.ctxDo, hready, ho]

theorem State.coalesce_sends {s : State} {c : Nat} {k : Coal} (hk : k = SMap.get { count := 0, first := 0 } s.coal c)
    (hcount : k.count ≠ 0) (hmode : s.rd F.CTX_IRQ_MODE c = 2) (hdue : k.first + s.rd F.CTX_IRQ_COAL_TICKS c ≤ s.tick) :
    s.coalesce c = State.sendMsix { s with coal := SMap.put { count := 0, first := 0 } s.coal c { count := 0, first := 0 } }
      (s.ownerOf .context c) (s.rd F.CTX_IRQ_VEC c) := by
  simp [State.coalesce, ← hk, hcount, hmode, Nat.not_lt.2 hdue]

/-- Settles O16. -/
theorem contextAndFenceBlockCommandsComplete : Obligations.ContextAndFenceBlockCommandsComplete :=
  ⟨fun _ _ _ hready ho => runs_next (State.ctxDo_owner hready ho _),
    fun _ _ _ hready hop => runs_next ((State.pfDo_pf hready _).trans (State.blockReset_starts hop)),
    fun _ _ hcount hmode hdue => runs_next (State.coalesce_sends rfl hcount hmode hdue)⟩

end Sys2Proof.Machine
end

section
/-! SUPPORT. The laws of the long operations (spec/18_resets_hasps_longops.md, R427 to R430): starting, stepping, halting, resuming
and aborting one. -/

namespace Sys2Proof.Machine
open Sys2Proof

/-! ## Whose page a command is on -/

/-- A command on an owner page acts for a function that reaches it. -/
theorem State.ownDo_reaches {s : State} {fn : Fn} (h : s.reaches fn) (t : State) : s.ownDo fn t = t := by
  obtain ⟨hready, rfl | hst⟩ := h
  · simp [State.ownDo, hready, Fn.idx]
  · simp [State.ownDo, hready, hst]

theorem State.polDo_reaches {s : State} {p : Fin 16} (h : s.reaches (.vf p)) (f : Nat → State) :
    s.polDo (.vf p) f = f p.val :=
  State.ownDo_reaches h _

theorem State.op?_busy {s : State} {k : OpKind} {i : Nat} {o : LongOp} (h : s.op? k i = some o) : s.opBusy k i = true := by
  simp [State.opBusy, h]

/-! ## The start of an operation -/

theorem State.op?_addOp {s : State} {k : OpKind} {i : Nat} {o : LongOp} (h : s.op? k i = none) (hsel : o.sel = ⟨k, i⟩) :
    (s.addOp o).op? k i = some o := by
  change (s.ops ++ [o]).find? _ = _
  rw [List.find?_append, show s.ops.find? (fun o => decide (o.sel = ⟨k, i⟩)) = none from h, Option.none_or,
    List.find?_cons_of_pos (by simpa using hsel)]

/-- A started operation stands behind the others with nothing done. -/
theorem State.startOp_op? {s : State} {k : OpKind} {i : Nat} (h : s.op? k i = none) (owner : Nat) (fe : Option Nat)
    (total : Nat) (task : Task) :
    ∃ o, (s.startOp k i owner fe total task).op? k i = some o ∧ o.total = total ∧ o.done = 0 ∧ o.halted = false := by
  have hops : (s.takeFence owner fe ⟨k, i⟩).2.ops = s.ops := Silent.ops.takeFence s owner fe _
  exact ⟨_, State.op?_addOp ((congrArg _ hops).trans h) rfl, rfl, rfl, rfl⟩

/-- A command that starts an operation on a state with the operations of `s` starts it on `s`. -/
theorem starts_of_startOp {c : Instr} {s t u : State} {k : OpKind} {i owner total : Nat} {fe : Option Nat} {task : Task}
    (hrun : exec c s = .next t) (ht : t = u.startOp k i owner fe total task) (hops : u.ops = s.ops) (h : s.op? k i = none) :
    Starts c s k i total :=
  ⟨t, hrun, ht ▸ State.startOp_op? ((congrArg _ hops).trans h) owner fe total task⟩

section
variable {s : State} {o : Nat} {fe : Option Nat}

theorem State.mobWrite_starts {slot g c : Nat} (hop : s.op? .mob o = none) (hslot : slot < 16384)
    (hpages : s.rd F.MOB_HI_PAGES o ≠ 0) (hend : s.rd F.MOB_LO_VA o + s.rd F.MOB_HI_PAGES o ≤ 2 ^ 36)
    (hg : s.slotGlobal o slot = some g) (hc : s.fromLocal o .context (s.rd F.MOB_LO_CTX o) = some c) (hm : s.mobOf g = none)
    (hover : s.mobs.any (fun m => m.ctx == c && overlaps m.page m.pages (s.rd F.MOB_LO_VA o) (s.rd F.MOB_HI_PAGES o)) = false) :
    s.mobWrite o slot fe = (s.mobStatus o mobOk 0).startOp .mob o o fe (s.rd F.MOB_HI_PAGES o)
      (.mobWrite (Mob.mk g o c (s.rd F.MOB_LO_VA o) (s.rd F.MOB_HI_PAGES o)
        (s.rd F.MOB_LO_CLASS o == 1) (s.rd F.MOB_LO_WRITE o == 1) false []) (s.rd F.MOB_LO_VA o)) := by
  have hlegal : ¬(s.opBusy .mob o = true ∨ 16384 ≤ slot ∨ s.rd F.MOB_HI_PAGES o = 0 ∨
      2 ^ 36 < s.rd F.MOB_LO_VA o + s.rd F.MOB_HI_PAGES o) := by
    simp only [State.opBusy_none hop, Bool.false_eq_true, false_or]
    omega
  rw [State.mobWrite, if_neg hlegal, hg, hc]
  simp only [hm, hover, Option.isSome_none, Bool.false_eq_true, if_false]

theorem State.mobClear_starts {slot g : Nat} {m : Mob} (hop : s.op? .mob o = none) (hslot : slot < 16384)
    (hg : s.slotGlobal o slot = some g) (hm : s.mobOf g = some m) {w : Nat × Nat} (hw : w = s.wholePages m.ctx m.page m.pages) :
    s.mobClear o slot fe = ((s.mobStatus o mobOk 0).takeHold m.ctx w.1 w.2).startOp .mob o o fe 1
      (.mobClear g m.ctx w.1 w.2 .drain []) := by
  simp [State.mobClear, State.opBusy_none hop, Nat.not_le.2 hslot, hg, hm, hw]

theorem State.invalidate_starts {c pages : Nat} (hop : s.op? .inv c = none) (h0 : 0 < pages) (h36 : pages < 2 ^ 36)
    {w : Nat × Nat} (hw : w = s.wholePages c (s.rd F.INV_ADDR_VA c) pages) :
    s.invalidate o c pages fe = ((s.wr F.INV_PROGRESS_REWALKED c 0).takeHold c w.1 w.2).startOp .inv c o fe 1
      (.inval .drain w.1 w.2 []) := by
  have hlegal : ¬(s.opBusy .inv c = true ∨ pages = 0 ∨ 2 ^ 36 ≤ pages) := by
    simp only [State.opBusy_none hop, Bool.false_eq_true, false_or]
    omega
  rw [State.invalidate, if_neg hlegal, hw]

theorem State.plnStart_starts (hop : s.op? .pln o = none) (hload : s.mayLoad o = true) (total : Nat) (task : Task) :
    s.plnStart o fe total task =
      ((s.wr F.PLN_PROGRESS_DONE o 0).wr F.PLN_PROGRESS_TOTAL o total).startOp .pln o o fe total task := by
  simp [State.plnStart, State.opBusy_none hop, hload]

/-- The registers that the reading of an image touches: none that an operation is found by. -/
theorem State.hostRead_if_ops (s : State) (b : Prop) [Decidable b] (o addr len : Nat) :
    (if b then s.hostRead o addr len else s).ops = s.ops := by
  split <;> rfl

theorem State.plnLoad_starts (hop : s.op? .pln o = none) (hload : s.mayLoad o = true) (image : List Byte) (cpl : Cpl) :
    ∃ (u : State) (task : Task), u.ops = s.ops ∧
      s.plnLoad o fe image cpl = u.startOp .pln o o fe (numAt image 8 4) task := by
  rw [State.plnLoad, if_neg (by simp [State.opBusy_none hop, hload])]
  extract_lets ctx s1 s2
  have hops : s2.ops = s.ops := State.hostRead_if_ops s1 _ o _ _
  have hpst : s2.pst o = s.pst o := by
    have h1 : s1.pst o = s.pst o := s.rd_wr_place (by decide) _ _ _
    simp only [s2]
    split
    · exact h1
    · exact h1
  have hload2 : s2.mayLoad o = true := by rwa [State.mayLoad, hpst]
  exact ⟨(s2.wr F.PLN_PROGRESS_DONE o 0).wr F.PLN_PROGRESS_TOTAL o _, _, hops,
    State.plnStart_starts ((congrArg _ hops).trans hop) hload2 _ _⟩

theorem State.rvLoad_starts (hop : s.op? .rv 0 = none) (image : List Byte) (cpl : Cpl) :
    ∃ (u : State) (task : Task), u.ops = s.ops ∧ s.rvLoad fe image cpl = u.startOp .rv 0 16 fe (numAt image 8 4) task := by
  rw [State.rvLoad, if_neg (by simp [State.opBusy_none hop])]
  extract_lets total s1
  exact ⟨(s1.wr F.RV_PROGRESS_DONE 0 0).wr F.RV_PROGRESS_TOTAL 0 total, _, State.hostRead_if_ops s _ 16 _ _, rfl⟩

theorem State.tblWrite_starts {slot : Nat} (hop : s.op? .tbl o = none) (hslot : s.table o slot = none) (image : List Byte)
    (cpl : Cpl) :
    ∃ (u : State) (task : Task), u.ops = s.ops ∧ s.tblWrite o slot fe image cpl = u.startOp .tbl o o fe 1 task := by
  rw [State.tblWrite, if_neg (by simp [State.opBusy_none hop]), if_neg (by simp [hslot])]
  exact ⟨_, _, State.hostRead_if_ops s _ o _ _, rfl⟩

theorem State.tblClear_starts {slot : Nat} {x : TableSlot} (hop : s.op? .tbl o = none) (hx : s.table o slot = some x)
    (hcl : x.closing = none) {early : List Nat}
    (he : early = (s.runs.filter (fun r => r.owner == o && decide (r.phase ≠ .queued))).map (·.id)) :
    s.tblClear o slot fe = (s.setTable o slot (some { x with closing := some early })).startOp .tbl o o fe 1 (.tblClear slot) := by
  simp [State.tblClear, State.opBusy_none hop, hx, hcl, he]

theorem State.hmkStart_starts {op table : Nat} (hop : s.op? .hmk o = none) (hall : op ≠ hmkUnpinAll)
    (hn : s.rd F.HMK_COUNT_COUNT o ≠ 0) {x : TableSlot} (hx : s.table o table = some x) (hcl : x.closing = none) :
    s.hmkStart op table fe o = ((s.wr F.HMK_STATUS_DONE o 0).wr F.HMK_STATUS_STATUS o hmkOk).startOp .hmk o o fe
      (s.rd F.HMK_COUNT_COUNT o) (.hmk op table (s.rd F.HMK_FIRST_ROW o) (s.rd F.HMK_COUNT_COUNT o)) := by
  simp [State.hmkStart, State.opBusy_none hop, hall, hn, hx, hcl]

theorem State.hmkStart_all (hop : s.op? .hmk o = none) (table : Nat) :
    s.hmkStart hmkUnpinAll table fe o = ((s.wr F.HMK_STATUS_DONE o 0).wr F.HMK_STATUS_STATUS o hmkOk).startOp .hmk o o fe
      1 (.hmk hmkUnpinAll table (s.rd F.HMK_FIRST_ROW o) (s.rd F.HMK_COUNT_COUNT o)) := by
  simp [State.hmkStart, State.opBusy_none hop]

theorem State.epStart_publishes (hop : s.op? .ep o = none) (hst : s.rd F.EP_STATE_STATE o = epReady)
    (hpub : s.rd F.EP_STATE_PUB o ≠ 0xFFFFFFFE) :
    s.epStart o true fe = (s.wr F.EP_STATE_STATE o epPublishing).startOp .ep o o fe 1 .publish := by
  simp [State.epStart, State.opBusy_none hop, hst, hpub]

theorem State.epStart_abandons (hop : s.op? .ep o = none) (hst : s.rd F.EP_STATE_STATE o = epReady)
    (hlost : s.rd F.EP_STATE_JNL_LOST o = 0) :
    s.epStart o false fe = ((s.wr F.EP_PROGRESS_DONE o 0).wr F.EP_STATE_STATE o epAbandoning).startOp .ep o o fe
      (s.rd F.EP_JNL_SIZE_USED o) .abandon := by
  have hused : (s.wr F.EP_PROGRESS_DONE o 0).rd F.EP_JNL_SIZE_USED o = s.rd F.EP_JNL_SIZE_USED o :=
    s.rd_wr_place (by decide) _ _ _
  simp [State.epStart, State.opBusy_none hop, hst, hlost, hused]

theorem State.twRepair_starts {t c : Nat} (hop : s.op? .twr t = none) (hc : s.rdi F.TWR_WEAK_VALID t c ≠ 0) :
    s.twCmd t (s.twRepair t c fe) = ((s.twStatus t twOk).wr F.TWR_CMD_STATUS_COPIED t 0).startOp .twr t 16 fe 33
      (.repair c (32 * t + s.rdi F.TWR_WEAK_VAULT t c)) := by
  simp [State.twCmd, State.twRepair, State.opBusy_none hop, hc]

theorem State.asyLoad_starts (hop : s.op? .asy 0 = none)
    (hfree : s.assay.runs.any (fun r => r.store == s.assay.spare && s.assay.force != some r.store) = false)
    (image : List Byte) (cpl : Cpl) :
    ∃ (u : State) (task : Task), u.ops = s.ops ∧
      s.asyCmd (s.asyLoad fe image cpl) = u.startOp .asy 0 16 fe (numAt image 8 4) task := by
  rw [State.asyCmd, if_neg (by simp [State.opBusy_none hop]), State.asyLoad, if_neg (by rw [hfree]; decide)]
  exact ⟨_, _, State.hostRead_if_ops s _ 16 _ _, rfl⟩

theorem State.trustLoad_starts (hop : s.op? .trust 0 = none) (image : List Byte) (cpl : Cpl) (leafOk : Bool) :
    ∃ (u : State) (task : Task), u.ops = s.ops ∧ s.trustLoad image cpl leafOk = u.startOp .trust 0 16 none 1 task := by
  rw [State.trustLoad, if_neg (by simp [State.opBusy_none hop])]
  exact ⟨_, _, State.hostRead_if_ops s _ 16 _ _, rfl⟩

end

/-- Settles O19: each command passes its guards, and the start of an operation is said once. -/
theorem longCommandsStartTheirOperation : Obligations.LongCommandsStartTheirOperation := by
  refine ⟨fun s fn slot g c fe hr hop hslot hpages hend hg hc hm hover =>
      runs_next ((State.ownDo_reaches hr _).trans (State.mobWrite_starts hop hslot hpages hend hg hc hm hover)),
    fun s fn slot g m fe w hr hop hslot hg hm hw =>
      runs_next ((State.ownDo_reaches hr _).trans (State.mobClear_starts hop hslot hg hm hw)),
    fun s fn c pages fe w hready ho hop h0 h36 hw =>
      runs_next ((State.ctxDo_owner hready ho _).trans (State.invalidate_starts hop h0 h36 hw)),
    fun s fn fe image cpl hr hop hload => ?plnLoad,
    fun s fn fe hr hop hload => runs_next ((State.ownDo_reaches hr _).trans (State.plnStart_starts hop hload 0 .planUnload)),
    fun s fe image cpl hready hop => ?rvLoad,
    fun s fn slot fe image cpl hr hop hslot => ?tblWrite,
    fun s fn slot fe x early hr hop hx hcl he =>
      runs_next ((State.ownDo_reaches hr _).trans (State.tblClear_starts hop hx hcl he)),
    fun s p table fe x hr hop hn hx hcl =>
      ⟨runs_next ((State.polDo_reaches hr _).trans (State.hmkStart_starts hop (by decide) hn hx hcl)),
        runs_next ((State.polDo_reaches hr _).trans (State.hmkStart_starts hop (by decide) hn hx hcl))⟩,
    fun s p fe hr hop =>
      starts_of_startOp rfl ((State.polDo_reaches hr _).trans (State.hmkStart_all hop 0)) rfl hop,
    fun s fn fe hr hop hst hpub => runs_next ((State.ownDo_reaches hr _).trans (State.epStart_publishes hop hst hpub)),
    fun s fn fe hr hop hst hlost =>
      starts_of_startOp rfl ((State.ownDo_reaches hr _).trans (State.epStart_abandons hop hst hlost)) rfl hop,
    fun s t cand fe hready hop hc => runs_next ((State.pfDo_pf hready _).trans (State.twRepair_starts hop hc)),
    fun s fe image cpl hready hop hfree => ?asyLoad,
    fun s image cpl leafOk hready hop => ?trustLoad⟩
  case plnLoad =>
    obtain ⟨u, task, hops, hu⟩ := State.plnLoad_starts (fe := fe) hop hload image cpl
    exact starts_of_startOp rfl ((State.ownDo_reaches hr _).trans hu) hops hop
  case rvLoad =>
    obtain ⟨u, task, hops, hu⟩ := State.rvLoad_starts (fe := fe) hop image cpl
    exact starts_of_startOp rfl ((State.pfDo_pf hready _).trans hu) hops hop
  case tblWrite =>
    obtain ⟨u, task, hops, hu⟩ := State.tblWrite_starts (fe := fe) hop hslot image cpl
    exact starts_of_startOp rfl ((State.ownDo_reaches hr _).trans hu) hops hop
  case asyLoad =>
    obtain ⟨u, task, hops, hu⟩ := State.asyLoad_starts (fe := fe) hop hfree image cpl
    exact starts_of_startOp rfl ((State.pfDo_pf hready _).trans hu) hops hop
  case trustLoad =>
    obtain ⟨u, task, hops, hu⟩ := State.trustLoad_starts hop image cpl leafOk
    exact starts_of_startOp rfl ((State.pfDo_pf hready _).trans hu) hops hop

/-! ## RESUME and ABORT -/

theorem State.resumeOp_goes {s s1 : State} {k : OpKind} {i owner : Nat} {fe f : Option Nat} {o : LongOp}
    (hact : s.pwrActive = true) (ho : s.op? k i = some o) (hf : s.takeFence owner fe ⟨k, i⟩ = (f, s1)) (b : Block)
    (inst off : Nat) :
    s.resumeOp k i owner fe b inst off = s1.setOp { o with halted := false, fences := f.toList ++ o.fences } := by
  simp [State.resumeOp, hact, ho, hf]

/-- Settles O20: every page has the one RESUME. -/
theorem resumeContinuesAHaltedOperation : Obligations.ResumeContinuesAHaltedOperation := by
  refine fun s s1 fe f o hact => ⟨fun fn hr => ⟨fun ho hf => ?_, fun ho hf => ?_, fun ho hf => ?_, fun ho hf => ?_⟩,
    fun p hr ho hf => ?_, fun fn c hready hown ho hf => ?_, fun hready ho hf => ?_, fun t hready ho hf => ?_⟩
  · exact runs_next ((State.ownDo_reaches hr _).trans (State.resumeOp_goes hact ho hf ..))
  · refine runs_next ((State.ownDo_reaches hr _).trans ?_)
    rw [State.mobResume, if_pos (State.op?_busy ho), State.resumeOp_goes hact ho hf]
  · exact runs_next ((State.ownDo_reaches hr _).trans (State.resumeOp_goes hact ho hf ..))
  · exact runs_next ((State.ownDo_reaches hr _).trans (State.resumeOp_goes hact ho hf ..))
  · exact runs_next ((State.polDo_reaches hr _).trans (State.resumeOp_goes hact ho hf ..))
  · exact runs_next ((State.ctxDo_owner hready hown _).trans (State.resumeOp_goes hact ho hf ..))
  · exact runs_next ((State.pfDo_pf hready _).trans (State.resumeOp_goes hact ho hf ..))
  · exact runs_next ((State.pfDo_pf hready _).trans (State.resumeOp_goes hact ho hf ..))

theorem State.abortOp_ends {s : State} {k : OpKind} {i owner : Nat} {fe : Option Nat} {o : LongOp} (ho : s.op? k i = some o)
    (b : Block) (inst off : Nat) (post : State → LongOp → State) :
    s.abortOp k i owner fe b inst off post = ((post s o).endOp o (some .aborted)).doneFence owner fe ⟨k, i⟩ none := by
  simp [State.abortOp, ho]

/-- Settles O21: every page has the one ABORT, with what its own rule leaves. -/
theorem abortEndsAnOperation : Obligations.AbortEndsAnOperation := by
  refine fun s fe o => ⟨fun fn hr => ⟨fun ho => ?_, fun ho => ?_, fun ho => ?_, fun ho => ?_⟩,
    fun p hr ho => ?_, fun fn c hready hown ho => ?_, fun hready ho => ?_, fun t hready ho => ?_⟩
  · exact runs_next ((State.ownDo_reaches hr _).trans (State.abortOp_ends ho ..))
  · refine runs_next ((State.ownDo_reaches hr _).trans ?_)
    rw [State.mobAbort, if_pos (State.op?_busy ho), State.abortOp_ends ho]
  · exact runs_next ((State.ownDo_reaches hr _).trans (State.abortOp_ends ho ..))
  · exact runs_next ((State.ownDo_reaches hr _).trans (State.abortOp_ends ho ..))
  · exact runs_next ((State.polDo_reaches hr _).trans (State.abortOp_ends ho ..))
  · exact runs_next ((State.ctxDo_owner hready hown _).trans (State.abortOp_ends ho ..))
  · exact runs_next ((State.pfDo_pf hready _).trans (State.abortOp_ends ho ..))
  · exact runs_next ((State.pfDo_pf hready _).trans (State.abortOp_ends ho ..))

/-! ## Steps and halts -/

/-- Settles O22. -/
theorem longOperationStepsOnlyWhileRunning : Obligations.LongOperationStepsOnlyWhileRunning := by
  intro s o n pt ho
  constructor <;> intro hruns <;> refine runs_next ?_ <;> simp only [ho, hruns] <;> rfl

/-- Settles O23: an operation after the halt comes of one before it, which stands as it was only in the three cases. -/
theorem interruptingRequestHaltsOperations : Obligations.InterruptingRequestHaltsOperations := by
  intro s o ho hnever hself hwaits
  obtain ⟨x, -, rfl⟩ := List.mem_map.1 ho
  split at hnever
  next hx =>
    rw [if_pos hx] at hself hwaits
    simp [hnever, hself, hwaits] at hx
  next hx => rw [if_neg hx]

end Sys2Proof.Machine
end

section
/-! SUPPORT. The laws of the pending faults (spec/07_translation.md, R146 to R150) and of the frame's edge
(spec/02_planes_clocks_junctions.md, R533; spec/08_plans_lodes.md, R183, R187, R188). -/

namespace Sys2Proof.Machine
open Sys2Proof

/-! ## Pending faults -/

section
variable {s : State} {c id : Nat}

theorem State.fltRetry_pending {f : PFault} (h : s.fault? c id = some f) (pt : HostTable) :
    s.fltRetry c id pt = s.retryFault pt f := by
  simp [State.fltRetry, h]

theorem State.fltRetry_stale (h : s.fault? c id = none) (pt : HostTable) :
    s.fltRetry c id pt = s.bump F.FLT_PENDING_STALE c 1 := by
  simp [State.fltRetry, h]

theorem State.fltFail_pending {f : PFault} (h : s.fault? c id = some f) :
    s.fltFail c id = f.runs.foldl (fun t r => t.failRun r .faultUnserviced) (s.dropFault f) := by
  simp [State.fltFail, h]

theorem State.fltFail_stale (h : s.fault? c id = none) : s.fltFail c id = s.bump F.FLT_PENDING_STALE c 1 := by
  simp [State.fltFail, h]

theorem State.faultFill_retry {f : PFault} (h : s.fault? c id = some f) (hretry : f.retry = true) (pt : HostTable) :
    s.faultFill c id pt = (s.walkFault pt f).settleFault { f with retry := false } := by
  simp [State.faultFill, h, hretry]

theorem State.allowanceExpiry_fails {r : Run} (h : s.run? id = some r) (hstands : r.steps.any StepSt.stands = true)
    (hdue : s.allowance r ≤ s.stalledSoFar r) :
    s.allowanceExpiry id = s.failRun id (s.withDue id .faultUnserviced) := by
  simp [State.allowanceExpiry, h, State.stallCodes, hstands, hdue]

theorem State.invDrainEnd_flushes {op : LongOp} {page pages : Nat} {todo : List (Nat × Nat × Nat)}
    (h : s.op? .inv c = some op) (htask : op.task = .inval .drain page pages todo) (hruns : s.opRuns op = true)
    (hdrain : s.drainRuns c page pages = []) :
    s.invDrainEnd c = (s.flush c page pages).setOp
      { op with task := .inval .flush page pages (s.flushParts c page pages) } := by
  simp [State.invDrainEnd, h, htask, hruns, hdrain]

end

/-- Settles O24. -/
theorem faultCommandsComplete : Obligations.FaultCommandsComplete :=
  ⟨fun _ _ _ _ pt _ hready ho hf =>
      ⟨runs_next ((State.ctxDo_owner hready ho _).trans (State.fltRetry_pending hf pt)),
        runs_next ((State.ctxDo_owner hready ho _).trans (State.fltFail_pending hf))⟩,
    fun _ _ _ _ hready ho => runs_next (State.ctxDo_owner hready ho _),
    fun _ _ _ pt _ hf hretry => runs_next (State.faultFill_retry hf hretry pt),
    fun _ _ _ hr hstands hdue => runs_next (State.allowanceExpiry_fails hr hstands hdue),
    fun _ _ _ _ _ _ hop htask hruns hdrain => runs_next (State.invDrainEnd_flushes hop htask hruns hdrain)⟩

/-- Settles O25. -/
theorem staleFaultNumberIsCounted : Obligations.StaleFaultNumberIsCounted :=
  fun _ _ _ _ pt hready ho hf =>
    ⟨runs_next ((State.ctxDo_owner hready ho _).trans (State.fltRetry_stale hf pt)),
      runs_next ((State.ctxDo_owner hready ho _).trans (State.fltFail_stale hf))⟩

/-! ## The frame's edge -/

section
variable {s : State}

theorem State.rvCommit_arms {s1 : State} {f : Frame} {drop : Bool} {fe fence : Option Nat} {b : Nat}
    (hop : s.op? .rv 0 = none) (hf : s.stagedFrame = some f) (hfit : drop = true ∨ s.unfit f = none)
    (htake : s.takeFence 16 fe ⟨.rv, 0⟩ = (fence, s1)) (hb : b = s1.switchAt (fun _ => true)) :
    s.rvCommit drop fe = State.signalOpt { (s1.rvStatus 0 0 0).armStaged b with
      frameArmed := some { boundary := b, dropUnfit := drop, fence := fence } } (s1.frameArmed >>= (·.fence)) none := by
  have hunfit : (if drop then none else s.unfit f) = none := by
    obtain rfl | hnone := hfit
    · rfl
    · simp [hnone]
  simp only [State.rvCommit, State.opBusy_none hop, Bool.false_eq_true, if_false, hf, hunfit, htake, ← hb]
  cases s1.frameArmed <;> rfl

theorem State.rvDiscard_drops {f : Frame} {fe : Option Nat} (hop : s.op? .rv 0 = none) (hf : s.stagedFrame = some f)
    (harm : s.frameArmed = none) :
    s.rvDiscard fe = ((List.range 17).foldl (fun t o => t.releasePlan o)
      ({ s with stagedFrame := none } : State)).doneFence 16 fe ⟨.rv, 0⟩ none := by
  simp only [State.rvDiscard, State.opBusy_none hop, Bool.false_eq_true, if_false, hf, harm, Option.isSome_none,
    Option.isNone_some]

theorem State.boundary_sampled {lv k : Nat} (hb : s.beforeBoundary 0 = true) (hdone : s.boundaryDone ≠ s.tick)
    (hs : s.sampled = some (lv, k)) :
    s.boundary = (((s.switches.applyLevel lv).applyTier k).boundaryFails (k != s.tier) (lv != s.level)).boundaryRest := by
  simp only [State.boundary, hb, hdone, hs, Option.getD_some, Bool.true_eq_false, or_self, if_false]

theorem Silent.sampled : Silent State.sampled := by
  constructor <;> intros <;> rfl

theorem Silent.raiseAll {α : Type} {π : State → α} (h : Silent π) (s : State) (code arg0 arg1 : Nat) :
    π (s.raiseAll code arg0 arg1) = π s :=
  State.foldl_proj (fun t o => by
    split
    · exact h.raise t o _ _ _ _
    · rfl) _ s

theorem State.haltOps_sampled (s : State) : s.haltOps.sampled = s.sampled := rfl

/-- The sample stands through the events of its moves. -/
theorem State.samplePoint_sampled (hb : s.beforeBoundary 64 = true) (hs : s.sampled = none) :
    s.samplePoint.sampled = some (s.nextLevel, s.rawTier) := by
  rw [State.samplePoint, if_neg (by simp [hb, hs])]
  extract_lets lv k b held s1 s2
  have h2 : s2.sampled = some (lv, k) := by
    simp only [s2]
    split
    · exact Silent.sampled.raiseAll s1 _ _ _
    · rfl
  clear_value s2
  split
  · rw [State.haltOps_sampled, Silent.sampled.raiseAll, h2]
  · exact h2

theorem State.firstFrame_starts {s1 s2 : State} {a : Armed} (hframe : s.frame = none) (ha : s.frameArmed = some a)
    (hdue : a.boundary ≤ s.tick)
    (h1 : s1 = (match s.pendLevel with | some (lv, n) => if n ≤ s.tick then s.applyLevel lv else s | none => s))
    (h2 : s2 = (match s1.pendTier with | some (k, n) => if n ≤ s1.tick then s1.applyTier k else s1 | none => s1)) :
    s.firstFrame = (State.switches { s2 with pendLevel := none, pendTier := none }).boundaryRest := by
  subst h2
  subst h1
  simp only [State.firstFrame, hframe, ha, Nat.not_lt.2 hdue, if_false] <;> rfl

end

/-- Settles O26. -/
theorem frameCommandsAndEventsComplete : Obligations.FrameCommandsAndEventsComplete := by
  refine ⟨fun s s1 f drop fe fence b hready hop hf hfit htake hb =>
      runs_next ((State.pfDo_pf hready _).trans (State.rvCommit_arms hop hf hfit htake hb)),
    fun s f fe hready hop hf harm => runs_next ((State.pfDo_pf hready _).trans (State.rvDiscard_drops hop hf harm)),
    fun s lv k hb hdone hs => runs_next (State.boundary_sampled hb hdone hs),
    fun s hb hs => ⟨_, rfl, State.samplePoint_sampled hb hs⟩,
    fun s s1 s2 a hframe ha hdue h1 h2 => runs_next (State.firstFrame_starts hframe ha hdue h1 h2),
    fun s lv t hframe hpend hdue => runs_next ?_, fun s k t hframe hpend hdue => runs_next ?_⟩
  · simp only [hframe, hpend, hdue, if_true]
  · simp only [hframe, hpend, hdue, if_true]

end Sys2Proof.Machine
end

section
/-! SUPPORT. The laws of admission and of a run's steps (spec/08_plans_lodes.md, R171 to R178). -/

namespace Sys2Proof.Machine
open Sys2Proof

/-! ## Windows -/

section
variable {s : State} {r : Run} {p : Plan} {l : Lode}

theorem State.window_due {o lode : Nat} {f : Frame} (hf : s.frame = some f) (hp : s.planOf o = some p)
    (hl : p.lode lode = some l) (hdue : s.windowDue o lode l = true) :
    s.window o lode = (List.range 1024).foldl (fun t q =>
      match t.runs.find? (fun r => r.queue == q && r.phase == .queued) with
      | some r => if r.owner = o ∧ r.lode = lode then t.windowOf r p l else t
      | none => t) ({ s with winAt := SMap.put 0 s.winAt (65536 * o + lode) (s.tick + 1) } : State) := by
  simp only [State.window, hf, hp, hl, hdue, Bool.true_eq_false, if_false] <;> rfl

/-- A head run that the window takes: the guards of an update lode do not hold it back. -/
theorem State.windowOf_taken {inst : Nat} (hmay : s.mayAdmit r l = true) (hinst : s.freeInst r.owner r.lode l = some inst)
    (hupd : p.updateLode l = false ∨ (s.updateBusy r.owner = false ∧ s.retPinned r.owner = false)) :
    s.windowOf r p l = match Err.lowest (s.admitCodes r p l) with
      | some e => State.failRun (if (s.admitCodes r p l).contains .faultPinned
          then s.faultRecord r (s.jnlFault r.owner).2 0 (s.jnlFault r.owner).1 false false else s) r.id e
      | none => s.admitRun r p l inst := by
  have hbusy : (p.updateLode l && s.updateBusy r.owner) = false := by
    rcases hupd with h | ⟨h, -⟩ <;> simp [h]
  have hret : (p.updateLode l && s.retPinned r.owner) = false := by
    rcases hupd with h | ⟨-, h⟩ <;> simp [h]
  simp only [State.windowOf, hmay, hinst, hbusy, hret, Bool.false_eq_true, if_false] <;> rfl

theorem State.admitTimeout_fails {id : Nat} (hr : s.run? id = some r) (hl : s.runLode r = some l) (hq : r.phase = .queued)
    (hdue : r.accepted + l.maxWait ≤ s.tick) : s.admitTimeout id = s.failRun id .admissionTimeout := by
  simp only [State.admitTimeout, hr, hl, hq, hdue, and_self, if_true]

/-- Settles O28. -/
theorem windowAdmitsOrFailsTheHeadRun : Obligations.WindowAdmitsOrFailsTheHeadRun := by
  refine ⟨fun s fn lode f p l hf hp hl hdue => runs_next (State.window_due hf hp hl hdue),
    fun s r p l inst hmay hinst hupd => ⟨fun hnil => ?_, fun e he => ?_⟩,
    fun s id r l hr hl hq hdue => runs_next (State.admitTimeout_fails hr hl hq hdue)⟩
  · rw [State.windowOf_taken hmay hinst hupd, hnil, Err.lowest]
  · rw [State.windowOf_taken hmay hinst hupd, he]

/-! ## Steps -/

variable {id i : Nat} {x : PStep}

theorem State.stepStart_planned (hr : s.run? id = some r) (hph : r.phase = .admitted) (hp : s.runPlan r = some p)
    (hx : s.stepOf r i = some x) (hst : r.steps[i]? = some .waiting) (htick : s.tick = r.admittedAt + x.start)
    (hstop : r.stop = none) :
    s.stepStart id i = ((s.modRun id (fun q => q.setStep i (.running s.tick))).slabStart r i x).slabConflict r p i x := by
  simp only [State.stepStart, hr, hph, hp, hx, hst, htick, hstop, true_or, if_true]

/-- A step whose work is done completes, and its run goes on as its other steps and its polder say. -/
theorem State.stepComplete_worked {s1 : State} {q : Run} {t0 : Nat} (hr : s.run? id = some r) (hph : r.phase = .admitted)
    (hp : s.runPlan r = some p) (hl : s.runLode r = some l) (hx : s.stepOf r i = some x)
    (hst : r.steps[i]? = some (.worked t0)) (hover : workOver r p l i x = true)
    (hlate : r.late.any (fun y => y.1 == i) = false) (hstop : r.stop = none)
    (h1 : s1 = ((s.modRun id (fun q => q.setStep i .complete)).stepCounts r p x i t0).dropPaths r x)
    (hq : s1.run? id = some q) :
    s.stepComplete id i =
      if !q.steps.all (fun y => decide (y = .complete)) then s1
      else if s.isSealed r.owner then s1.modRun id (fun q => { q with phase := .releasing })
      else (s1.countP r.owner 56 (s.plannedEnd r - s.tick)).completeRun id := by
  have hgo : ¬(r.phase ≠ .admitted ∨ workOver r p l i x = false ∨ r.late.any (fun y => y.1 == i) = true) := by
    simp [hph, hover, hlate]
  simp only [State.stepComplete, hr, hp, hl, hx, hst, if_neg hgo, hstop, ← h1, hq]

theorem State.runRelease_completes (hr : s.run? id = some r) (hph : r.phase = .releasing) (hend : s.plannedEnd r ≤ s.tick) :
    s.runRelease id = s.completeRun id := by
  simp only [State.runRelease, hr, hph, hend, and_self, if_true]

end

/-- Settles O29. -/
theorem stepEventsComplete : Obligations.StepEventsComplete := by
  refine ⟨fun s id i r p x hr hph hp hx hst htick hstop =>
      runs_next (State.stepStart_planned hr hph hp hx hst htick hstop),
    fun s s1 id i t0 r q p l x hr hph hp hl hx hst hover hlate hstop h1 hq => ?_,
    fun s id r hr hph hend => runs_next (State.runRelease_completes hr hph hend)⟩
  have hdone := State.stepComplete_worked hr hph hp hl hx hst hover hlate hstop h1 hq
  refine ⟨fun hall => runs_next (hdone.trans ?_), fun hall hseal => runs_next (hdone.trans ?_),
    fun hall hopen => runs_next (hdone.trans ?_)⟩
  · simp only [hall, Bool.not_false, if_true]
  · simp only [hall, hseal, Bool.not_true, Bool.false_eq_true, if_false, if_true]
  · simp only [hall, hopen, Bool.not_true, Bool.false_eq_true, if_false]

/-! ## A step whose work is done but whose completion is still to come -/

/-- One vault step from tick 0 to tick 0. -/
def instantStep : PStep :=
  { lane := 0, laneCount := 1, start := 0, duration := 0, pageable := false, output := false, remote := false, dep0 := 0
    dep1 := 0, share := 0, descOff := 0, descLen := 0, grant := 0 }

def instantLode : Lode :=
  { firstStep := 0, stepCount := 1, capTrunc := false, period := 1, phase := 0, instances := 1, tierMax := 0, levelMask := 0
    bagCap := 0, duration := 0, maxWait := 0, faultAllow := 0, minIn := 0, maxIn := 0, outLen := 0, scratchStride := 0 }

def instantPlan : Plan :=
  { crc := 0, frameLen := 64, lodes := [instantLode], steps := [instantStep], fits := [], grants := [], descs := []
    descVa := 0, descCtx := 0 }

/-- An admitted run whose one step has done its work; its completion has not been taken yet. -/
def workedRun : Run :=
  { id := 0, owner := 16, ctx := 0, queue := 0, lode := 0, block := [], fence := 0, phase := .admitted, accepted := 0
    deferred := false, staging := .done, staged := [], stageN := 0, reserve := 0, inHeld := false, outHeld := false
    admittedAt := 0, under := some instantPlan, inst := 0, pin := 0, steps := [.worked 0], data := [], stalledTicks := 0
    stop := none, late := [], trunc := false }

def workedState : State := { State.reset with runs := [workedRun] }

/-- The deadline of a step whose work is done leaves its run (`State.endCodes` has no code for it). -/
theorem workedState_deadline : (workedState.stepDeadline 0 0).run? 0 = some workedRun := by rfl

/-- Refutes O30: a step that has done its work and waits for its completion event is not complete at its planned end, and the
deadline leaves its run in. -/
theorem not_missedDeadlineEndsTheRun : ¬ Obligations.MissedDeadlineEndsTheRun := by
  intro h
  obtain ⟨t, ht, hgone⟩ := h workedState 0 0 workedRun instantPlan instantLode instantStep rfl rfl rfl rfl rfl (by decide)
    rfl (by decide) rfl
  cases ht
  rw [workedState_deadline] at hgone
  cases hgone

end Sys2Proof.Machine
end

section
/-! SUPPORT. The laws of the engines' steps: Punch and gather, the Ladle and the output, the Anvil (spec/10_embedding_path.md, R235,
R241; spec/08_plans_lodes.md, R166 to R170; spec/13_anvil.md, R309, R314). -/

namespace Sys2Proof.Machine
open Sys2Proof

/-! ## What every step begins with -/

section
variable {s s1 : State} {a : Act} {f : Flaw} {d : List Byte}

theorem State.flawedLate_noted (hf : f ≠ .uncorrectable) (k : State → State) : s.flawedLate a f k = k (s.noted a f) := by
  cases f with
  | none => rfl
  | corrected => rfl
  | uncorrectable => exact absurd rfl hf

theorem State.withDescLate_bytes (h : s.descOf a = (.bytes d, s1)) (k : List Byte → State → State) :
    s.withDescLate a k = k d s1 := by
  simp only [State.withDescLate, h]

/-! ## Punch and gather -/

theorem State.punchWork_hashes {b : BagSet} {out : PunchOut} (hout : out = s.punchAll a b (bagBounds a b))
    (hcodes : out.codes = []) :
    s.punchWork a b = ((out.st.modRun a.run.id (fun r => { r with trunc := r.trunc || decide (0 < out.trunc) })).setData
      a.run.id { a.run.dataOf a.idx with bags := out.bags }).workDone a := by
  simp only [State.punchWork, ← hout, hcodes, List.isEmpty_nil, Bool.not_true, Bool.false_eq_true, if_false]

theorem State.punchWork_fails {b : BagSet} {out : PunchOut} (hout : out = s.punchAll a b (bagBounds a b))
    (hcodes : out.codes ≠ []) :
    s.punchWork a b = out.codes.foldl (fun u e => u.late a.run.id a.idx e) out.st := by
  have hsome : (!out.codes.isEmpty) = true := by simpa using hcodes
  simp only [State.punchWork, ← hout, hsome, if_true]

/-- A gather step whose rows are all there, and whose sums agree, adds its parts; the last one of its set finishes the bags. -/
theorem State.gatherWork_adds {s2 : State} {ev ev' : GatherEv} {b : BagSet} {bags : List (List (Nat × Nat))} {g : GatherOut}
    (hlim : (a.run.dataOf a.idx).limit ≠ 1) (hg : g = s.gatherAll a ev bags) (hfail : g.fail = none) (hgone : g.gone = false)
    (hs2 : s2 = g.st.countP a.run.owner 75 g.rows) (hev : ev' = residueHits a g.parts (s2.codeBags a bags) ev)
    (hres : ev'.residue = []) :
    s.gatherWork a ev b bags =
      let s3 := s2.setData a.run.id { a.run.dataOf a.idx with parts := g.parts }
      if !a.siblings.all (fun y => a.doneStep y.2) then s3.workDone a
      else if ev'.finisher then s3.residueFail a ev'
      else s3.finishFrom a b bags (g.parts ++ a.siblings.flatMap (fun y => (a.run.dataOf y.2).parts)) 0 := by
  simp only [State.gatherWork, if_neg hlim, ← hg, hfail, ← hs2, ← hev, hres, hgone, List.isEmpty_nil, Bool.not_true,
    Bool.false_eq_true, if_false]

theorem State.gatherWork_goesOn {ev : GatherEv} {b : BagSet} {bags : List (List (Nat × Nat))}
    (hlim : (a.run.dataOf a.idx).limit = 1) :
    s.gatherWork a ev b bags = s.finishFrom a b bags (a.run.dataOf a.idx).parts (a.run.dataOf a.idx).next := by
  simp only [State.gatherWork, hlim, if_true]

/-- A gather step whose Punch step has done its work sets to its own. -/
theorem gatherPool_works {id i : Nat} {x : PStep} {y : StepSt} {t : State} {ev : GatherEv} (h : StepReady s id i .vault a)
    (hx : a.plan.punchOf a.lode a.step = some x) (hy : a.run.steps[a.step.dep0]? = some y)
    (hdone : y = .complete ∨ ∃ t, y = .worked t) (hd : s.descOf a = (.bytes d, s1))
    (ht : s1.gatherWork a ev (bagSet d) (a.run.dataOf a.step.dep0).bags = t) :
    Runs (.gatherPool id i ev) s (s.unlessDenied t) := by
  refine runs_next ((State.onStep_ready h _).trans ?_)
  subst ht
  obtain rfl | ⟨t, rfl⟩ := hdone
  · simp only [hx, hy, State.withDesc_bytes hd]
  · simp only [hx, hy, State.withDesc_bytes hd]

end

/-- Settles O31. -/
theorem punchAndGatherStepsComplete : Obligations.PunchAndGatherStepsComplete := by
  refine ⟨fun s s1 id i f a d out hf h hd hout => ?punch,
    fun s s1 s2 id i ev ev' a x y d g bags h hx hy hdone hd hlim hbags hg hfail hgone hs2 hev hres => ?gather,
    fun s s1 id i ev a x y d h hx hy hdone hd hlim => gatherPool_works h hx hy hdone hd (State.gatherWork_goesOn hlim)⟩
  case punch =>
    have hwork : exec (.punchHash id i f) s = .next (s.unlessDenied (s1.punchWork a (bagSet d))) := by
      refine runs_next ((State.onStep_ready h _).trans ?_)
      simp only [State.flawed_noted _ _ hf, hd]
    exact ⟨fun hcodes => State.punchWork_hashes hout hcodes ▸ hwork, fun hcodes => State.punchWork_fails hout hcodes ▸ hwork⟩
  case gather =>
    subst hbags
    have hadds := State.gatherWork_adds (b := bagSet d) hlim hg hfail hgone hs2 hev hres
    refine ⟨fun hall => gatherPool_works h hx hy hdone hd (hadds.trans ?_),
      fun hall hfin => gatherPool_works h hx hy hdone hd (hadds.trans ?_)⟩
    · simp only [hall, Bool.not_false, if_true]
    · simp only [hall, hfin, Bool.not_true, Bool.false_eq_true, if_false]

/-! ## The Ladle and the output -/

section
variable {s s1 s2 : State} {a : Act} {id i : Nat}

theorem State.ladle_moves {f : Flaw} {b : List Byte} {r : Run} {n o op : Nat} (hf : f ≠ .uncorrectable)
    (h : StepReady s id i .ladle a) (hb : (s.noted a f).descOf a = (.bytes b, s1)) (hop : (ladleDesc b).op = op)
    (hcodes : s1.ladleCodes a (ladleDesc b) = []) (ho : o = (a.run.dataOf i).next) (hn : n = ((ladleDesc b).bytes - o) / 64)
    (h2 : s2 = s1.ladleLoop a (ladleDesc b) (n + 1) o) (hr : s2.run? id = some r)
    (hst : r.steps[i]? = some (.worked a.start)) :
    s.ladle id i op f = s.unlessDenied
      ((s2.count (768 + 8 * (6 + (a.step.lane - 0x120)) + 1) n).countP a.run.owner 103 n) := by
  refine (State.onStep_ready h _).trans ?_
  rw [State.flawed_noted _ _ hf, State.withDesc_bytes hb]
  simp only [hop, ne_eq, not_true_eq_false, if_false, hcodes, ← ho, ← hn, ← h2, hr, hst, if_true]

theorem State.output_withoutOutput {d : List Byte} (h : StepReady s id i .host a) (hd : s.descOf a = (.bytes d, s1))
    (hno : a.run.noOutput = true) : s.output id i = s.unlessDenied (s1.workDone a) := by
  refine (State.onStep_ready h _).trans ?_
  rw [State.withDesc_bytes hd]
  simp only [hno, if_true]

theorem State.output_writes {d b : List Byte} (h : StepReady s id i .host a) (hd : s.descOf a = (.bytes d, s1))
    (hno : a.run.noOutput = false) (hheld : a.run.outHeld = true) (hbme : s1.bme a.run.owner = true)
    (hget : s1.get a ((outDesc d).src + a.off) (outDesc d).bytes = (.bytes b, s2)) :
    s.output id i = s.unlessDenied ((s2.outWrite a b).workDone a) := by
  refine (State.onStep_ready h _).trans ?_
  rw [State.withDesc_bytes hd]
  simp only [hno, hheld, hbme, hget, Bool.false_eq_true, Bool.true_eq_false, or_self, if_false]

/-- The Ladle moves the unit at `o` and goes on behind it. -/
theorem State.ladleLoop_succ {d : LadleDesc} {n o : Nat} {b : List Byte} (ho : o < d.bytes)
    (hsrc : d.op = 0 → s.stallKind a (a.ladleSrc d + o) false = none) (hdst : s.stallKind a (a.ladleDst d + o) true = none)
    (hunit : s.ladleUnit a d o = (.bytes b, s1)) (hput : s1.put a (a.ladleDst d + o) b = (none, s2)) :
    s.ladleLoop a d (n + 1) o = s2.ladleLoop a d n (o + 64) := by
  have hnone : (if d.op = 0 then s.stallKind a (a.ladleSrc d + o) false else none) = none := by
    split
    next h0 => exact hsrc h0
    next => rfl
  rw [State.ladleLoop, if_neg (Nat.not_le.2 ho)]
  simp only [hnone, hdst, hunit, hput]

/-- At the end of the range the step's work is done. -/
theorem State.ladleLoop_end {d : LadleDesc} {o : Nat} (ho : d.bytes ≤ o) (n : Nat) : s.ladleLoop a d n o = s.workDone a := by
  cases n with
  | zero => rfl
  | succ n => rw [State.ladleLoop, if_pos ho]

end

/-- Settles O32. -/
theorem ladleAndOutputStepsComplete : Obligations.LadleAndOutputStepsComplete := by
  refine ⟨fun s s1 s2 id i f a b r n o hf h hb hcodes ho hn h2 hr hst c hc => ?ladle,
    fun s s1 s2 id i a d b h hd => ⟨fun hno => runs_next (State.output_withoutOutput h hd hno),
      fun hno hheld hbme hget => runs_next (State.output_writes h hd hno hheld hbme hget)⟩,
    fun s s1 s2 a d n o b ho hsrc hdst hunit hput => ?unit⟩
  case ladle =>
    have hmoves {op : Nat} (hop : (ladleDesc b).op = op) := State.ladle_moves hf h hb hop hcodes ho hn h2 hr hst
    obtain ⟨hop, rfl⟩ | ⟨hop, rfl⟩ | ⟨hop, rfl⟩ | ⟨hop, rfl⟩ := hc
    · exact runs_next (hmoves hop)
    · exact runs_next (hmoves hop)
    · exact runs_next (hmoves hop)
    · exact runs_next (hmoves hop)
  case unit =>
    have hstep : s.ladleLoop a d (n + 1) o = s2.ladleLoop a d n (o + 64) := State.ladleLoop_succ ho hsrc hdst hunit hput
    exact ⟨hstep, fun hend => hstep.trans (State.ladleLoop_end hend n)⟩

/-! ## The Anvil -/

section
variable {s s1 s2 s3 : State} {a : Act} {id i path : Nat} {f : Flaw} {b : List Byte} {x : AnvilIn} {hit : Option (Nat × Nat)}

/-- An Anvil step whose operands are read: its good tiles go to the queue or to Mere, and a mismatch fails the run. -/
theorem State.anvil_reads (hf : f ≠ .uncorrectable) (h : StepReady s id i .anvil a)
    (hb : (s.noted a f).descOf a = (.bytes b, s1)) (hjob : SMap.get none s1.avJobs (a.step.lane - 0x100) = none)
    (hin : s1.anvilIn a (anvilDesc b) = (.ok x, s2)) (hpath : (anvilDesc b).path = path) :
    s.anvil id i path f hit = s.unlessDenied (
      let d := anvilDesc b
      let good := match d.mismatch x hit with | some y => d.order.take y.1 | none => d.order
      if d.queue then { s2 with avJobs := SMap.put none s2.avJobs (a.step.lane - 0x100) (some
        { run := id, step := i, tiles := good.map (fun y => d.tile x y.1 y.2), bad := d.mismatch x hit }) }
      else match s2.tilesOut a d x good with
        | (some e, s3) => s3.failRun id e
        | (none, s3) => match d.mismatch x hit with
          | some (j, e, o) => s3.anvilMismatch a j e o
          | none => s3.workDone a) := by
  refine (State.onStep_ready h _).trans ?_
  rw [State.flawed_noted _ _ hf, State.withDesc_bytes hb]
  simp only [hpath, hjob, ne_eq, not_true_eq_false, Option.isSome_none, Bool.false_eq_true, or_self, if_false, hin] <;> rfl

end

section
variable {s : State} {t : Nat} {j : AvJob} {a : Act}

theorem State.tilePush_moves {tile : List Nat} {rest : List (List Nat)} {s1 : State} (hj : SMap.get none s.avJobs t = some j)
    (ha : s.workNow? j.run j.step = some a) (htiles : j.tiles = tile :: rest) (hroom : (SMap.get [] s.tiles t).length < 16)
    (h1 : s1 = (State.countP (State.count { s with
        tiles := SMap.put [] s.tiles t (SMap.get [] s.tiles t ++ [{ run := j.run, elems := tile }])
        avJobs := SMap.put none s.avJobs t
          (if rest.isEmpty && j.bad.isNone then none else some { j with tiles := rest }) }
        (512 + 32 * t + 7) 1) a.run.owner 97 1)) :
    s.tilePush t = if rest.isEmpty && j.bad.isNone then s1.workDone a else s1 := by
  subst h1
  simp only [State.tilePush, hj, ha, htiles, if_neg (Nat.not_le.2 hroom)]

theorem State.tilePush_holds {tile : List Nat} {rest : List (List Nat)} (hj : SMap.get none s.avJobs t = some j)
    (ha : s.workNow? j.run j.step = some a) (htiles : j.tiles = tile :: rest) (hfull : 16 ≤ (SMap.get [] s.tiles t).length) :
    s.tilePush t = (s.bump F.AV_QUEUE_HOLDS t 1).count (512 + 32 * t + 9) 1 := by
  simp only [State.tilePush, hj, ha, htiles, if_pos hfull]

theorem State.tilePush_mismatch {n e v : Nat} (hj : SMap.get none s.avJobs t = some j)
    (ha : s.workNow? j.run j.step = some a) (htiles : j.tiles = []) (hbad : j.bad = some (n, e, v)) :
    s.tilePush t = s.anvilMismatch a n e v := by
  simp only [State.tilePush, hj, ha, htiles, hbad]

end

/-- Settles O33. -/
theorem anvilStepsComplete : Obligations.AnvilStepsComplete := by
  refine ⟨fun s s1 s2 s3 id i f a b x hit hf h hb hjob hin c hc => ?step, fun s t j a hj ha =>
    ⟨fun tile rest s1 htiles hroom h1 => runs_next (State.tilePush_moves hj ha htiles hroom h1),
      fun tile rest htiles hfull => runs_next (State.tilePush_holds hj ha htiles hfull),
      fun n e v htiles hbad => runs_next (State.tilePush_mismatch hj ha htiles hbad)⟩⟩
  case step =>
    have hrun : ∃ path, (anvilDesc b).path = path ∧ exec c s = .next (s.anvil id i path f hit) := by
      obtain ⟨hp, rfl⟩ | ⟨hp, rfl, rfl⟩ | ⟨hp, rfl, rfl⟩ := hc
      · exact ⟨_, hp, rfl⟩
      · exact ⟨_, hp, rfl⟩
      · exact ⟨_, hp, rfl⟩
    obtain ⟨path, hpath, hrun⟩ := hrun
    have hreads := State.anvil_reads (hit := hit) hf h hb hjob hin hpath
    refine ⟨fun hq hbad hout => hrun.trans (runs_next (hreads.trans ?_)),
      fun j e v hq hbad hout => hrun.trans (runs_next (hreads.trans ?_)),
      fun good hq hgood => hrun.trans (runs_next (hreads.trans ?_))⟩
    · simp only [hq, hbad, hout, Bool.false_eq_true, if_false]
    · simp only [hq, hbad, hout, Bool.false_eq_true, if_false]
    · subst hgood
      simp only [hq, if_true] <;> rfl

end Sys2Proof.Machine
end

section
/-! SUPPORT. The laws of the Tarn, the Riddle, the Solder and the remote steps (spec/15_tarn_riddle.md, R347 to R357;
spec/11_live_updates.md, R264, R269; spec/16_causeway.md, R380 to R386), and of an engine's uncorrectable error (R439). -/

namespace Sys2Proof.Machine
open Sys2Proof

/-! ## Slab operations -/

section
variable {s s1 s2 s3 : State} {id i op : Nat} {f : Flaw} {bad : List Nat} {a : Act} {bs : List Byte} {d : TarnDesc}
  {ranges : TarnDesc → Slab → Option SlabHdr → List (Nat × Nat)} {go : Act → TarnDesc → Slab → SlabHdr → State → List Err × State}

/-- A slab operation whose descriptor is read goes on to its checks. -/
theorem State.slabOp_opens (hf : f ≠ .uncorrectable) (hready : StepReady s id i .tarn a)
    (hb : (s.noted a f).descOf a = (.bytes bs, s1)) (hd : tarnDesc bs = d) (hop : d.op = op)
    (htick : op = 1 ∨ op = 3 → a.start < s.tick) :
    s.slabOp id i op f bad ranges go = s.unlessDenied (match s1.slabOpen a d bad (ranges d) with
      | (.error es, s2) => s2.lateAll a es
      | (.ok (b, h, gs), s2) => match go a d b h (s2.tarnItems a gs.length) with
        | ([], s3) => s3.workDone a
        | (es, s3) => s3.lateAll a es) := by
  have hnow : ¬((op = 1 ∨ op = 3) ∧ s.tick ≤ a.start) := fun h => absurd (htick h.1) (Nat.not_lt.2 h.2)
  refine (State.onStep_ready hready _).trans ?_
  rw [State.flawedLate_noted hf, State.withDescLate_bytes hb]
  simp only [hd, hop, ne_eq, not_true_eq_false, hnow, or_self, if_false] <;> rfl

theorem State.slabOp_works {b : Slab} {h : SlabHdr} {gs : List Nat} (hf : f ≠ .uncorrectable)
    (hready : StepReady s id i .tarn a) (hb : (s.noted a f).descOf a = (.bytes bs, s1)) (hd : tarnDesc bs = d)
    (hop : d.op = op) (htick : op = 1 ∨ op = 3 → a.start < s.tick)
    (hopen : s1.slabOpen a d bad (ranges d) = (.ok (b, h, gs), s2)) (hgo : go a d b h (s2.tarnItems a gs.length) = ([], s3)) :
    s.slabOp id i op f bad ranges go = s.unlessDenied (s3.workDone a) := by
  rw [State.slabOp_opens hf hready hb hd hop htick]
  simp only [hopen, hgo]

theorem State.slabOp_fails {es : List Err} (hf : f ≠ .uncorrectable) (hready : StepReady s id i .tarn a)
    (hb : (s.noted a f).descOf a = (.bytes bs, s1)) (hd : tarnDesc bs = d) (hop : d.op = op)
    (htick : op = 1 ∨ op = 3 → a.start < s.tick) (hopen : s1.slabOpen a d bad (ranges d) = (.error es, s2)) :
    s.slabOp id i op f bad ranges go = s.unlessDenied (s2.lateAll a es) := by
  rw [State.slabOp_opens hf hready hb hd hop htick]
  simp only [hopen]

end

/-- What PIN does with the next line of its slab: nothing after a failure, and one pin (`State.slabPinLine`) before. -/
def pinNext (a : Act) (bad : List Nat) (x : Bool × Option Err × State) (line : Nat) : Bool × Option Err × State :=
  match x.2.1 with
  | some _ => x
  | none => let (o, e, t) := x.2.2.slabPinLine a bad a.run.owner line; (x.1 && o, e, t)

/-- The work of PIN: every line of the slab, then the header. -/
def State.pinSlab (s : State) (a : Act) (bad : List Nat) (b : Slab) (h : SlabHdr) : List Err × State :=
  let (ok, err, s2) := (s.slabLines a b).foldl (pinNext a bad) (true, none, s)
  match err with
  | some e => ([e], s2)
  | none =>
    match s2.slabWrite a b.base { h with hot := ok }.bytes with
    | (some e, s3) => ([e], s3)
    | (none, s3) => ([], s3)

theorem State.pinSlab_pins {s s1 s2 : State} {a : Act} {bad : List Nat} {b : Slab} {h : SlabHdr} {ok : Bool}
    (hpin : (s.slabLines a b).foldl (pinNext a bad) (true, none, s) = (ok, none, s1))
    (hwrite : s1.slabWrite a b.base { h with hot := ok }.bytes = (none, s2)) : s.pinSlab a bad b h = ([], s2) := by
  simp only [State.pinSlab, hpin, hwrite]

theorem exec_tarnPin (id i : Nat) (f : Flaw) (bad : List Nat) (s : State) : exec (.tarnPin id i f bad) s =
    .next (s.slabOp id i 4 f bad (fun _ b _ => [(b.base, b.size)]) (fun a _ b h t => t.pinSlab a bad b h)) := rfl

/-! ## APPEND_BEAM and the Riddle -/

section
variable {s s1 s2 s3 s4 : State} {id i : Nat} {f : Flaw} {a : Act} {bs : List Byte}

theorem State.appendBeam_gathers {sel : List Byte} {d : TarnDesc} {recs cs : List (Nat × Nat × Nat)} {bss : List (List Byte)}
    (hf : f ≠ .uncorrectable) (hready : StepReady s id i .tarn a) (hb : (s.noted a f).descOf a = (.bytes bs, s1))
    (hd : tarnDesc bs = d) (hop : d.op = 2) (hsel : s1.get a (d.sel + a.off) (8 * d.beams) = (.bytes sel, s2))
    (hrecs : recs = (List.range d.beams).map (fun b => (b, numAt sel (8 * b + 4) 2, numAt sel (8 * b + 6) 2)))
    (hparents : ∀ r ∈ recs, r.2.1 < d.beams) (hcs : cs = recs.flatMap (fun r => d.copies a.off r.1 r.2.1))
    (hget : s2.getList a (cs.map (fun c => (c.1, c.2.1))) [] = (.ok bss, s3))
    (hput : s3.putRows a (List.zipWith (fun c b => (c.2.2, b)) cs bss ++
      recs.map (fun r => (d.out + a.off + d.tokAt r.1 d.pos, leBytes 2 r.2.2))) = (none, s4)) :
    s.appendBeam id i f = s.unlessDenied (s4.workDone a) := by
  have hany : recs.any (fun r => decide (d.beams ≤ r.2.1)) = false :=
    List.any_eq_false.2 fun r hr => by simpa using hparents r hr
  refine (State.onStep_ready hready _).trans ?_
  rw [State.flawed_noted _ _ hf, State.withDesc_bytes hb]
  simp only [hd, hop, ne_eq, not_true_eq_false, if_false, hsel, ← hrecs, hany, Bool.false_eq_true, ← hcs, hget, hput]

theorem State.riddle_ranks {beam : Bool} {r : RidDesc} {rs ids : List (List Byte)} {sc : List Nat} {best : List (Nat × Nat)}
    (hf : f ≠ .uncorrectable) (hready : StepReady s id i .riddle a) (hb : (s.noted a f).descOf a = (.bytes bs, s1))
    (hr : ridDesc bs = r) (hbeam : r.beam = beam)
    (hrows : s1.getList a ((r.priorVa + a.off, if r.prior = 2 then 8 * r.beams else 0) ::
      (if r.beam then (List.range r.beams).map (fun b => (r.inVa + a.off + b * r.inStride, r.n * r.eb))
        else [(r.inVa + a.off, r.n * r.eb)])) [] = (.ok rs, s2))
    (hsc : sc = r.scores rs.tail (rs.headD [])) (hbest : best = topK r.k sc.zipIdx)
    (hids : s2.getList a (if r.withId then best.map (fun x => (r.idVa + a.off + 8 * x.2, 8)) else []) [] = (.ok ids, s3))
    (hput : s3.put a (r.out + a.off) ((best.zipIdx).flatMap (fun x => r.record x.1 (ids.getD x.2 []))) = (none, s4)) :
    s.riddle id i beam f = s.unlessDenied ((((s4.bump F.RD_STATUS_NAN_SCORES (a.step.lane - 0x11A) (sc.countP isNan32)).count
      (768 + 8 * (2 + (a.step.lane - 0x11A)) + 1) r.c).countP a.run.owner 101 r.c).workDone a) := by
  refine (State.onStep_ready hready _).trans ?_
  rw [State.flawed_noted _ _ hf, State.withDescLate_bytes hb]
  simp only [hr, hbeam, ne_eq, not_true_eq_false, if_false] at hrows ⊢
  simp only [hrows, ← hsc, ← hbest, hids, hput]

end

/-- Settles O34: every operation of a slab begins with the same checks. -/
theorem tarnAndRiddleStepsComplete : Obligations.TarnAndRiddleStepsComplete := by
  refine ⟨fun s s1 s2 s3 s4 s5 id i f bad a bs d b h gs ranges hf hr hb hd hopen h3 => ?_,
    fun s s1 s2 id i f bad a bs d es ranges hf hr hb hd hopen => ?_,
    fun s s1 s2 s3 s4 id i f a bs sel d recs cs bss hf hr hb hd hop hsel hrecs hpar hcs hget hput =>
      runs_next (State.appendBeam_gathers hf hr hb hd hop hsel hrecs hpar hcs hget hput),
    fun s s1 s2 s3 s4 id i f a bs r rs ids sc best hf hr hb hrd hrows hsc hbest hids hput c hc => ?_⟩
  · subst h3
    refine ⟨fun hop hrg hput hwin => ?window, fun hop htick hrg hun => ?evict, fun hop hrg hun => ?unpin,
      fun ok hop hrg hpin hwrite => ?pin, fun src rows h1 hop htick hrg hh1 hget hrows hput => ?append⟩
    case window =>
      subst hrg
      exact runs_next (State.slabOp_works hf hr hb hd hop (fun h => absurd h (by decide)) hopen (by simp only [hput, hwin]))
    case evict =>
      subst hrg
      exact runs_next (State.slabOp_works hf hr hb hd hop (fun _ => htick) hopen hun)
    case unpin =>
      subst hrg
      exact runs_next (State.slabOp_works hf hr hb hd hop (fun h => absurd h (by decide)) hopen hun)
    case pin =>
      subst hrg
      have hwork : (s2.tarnItems a gs.length).pinSlab a bad b h = ([], s5) := State.pinSlab_pins hpin hwrite
      exact (exec_tarnPin id i f bad s).trans
        (runs_next (State.slabOp_works hf hr hb hd hop (fun h => absurd h (by decide)) hopen hwork))
    case append =>
      subst hrg hrows hh1
      exact runs_next (State.slabOp_works hf hr hb hd hop (fun _ => htick) hopen (by simp only [hget, hput]))
  · refine ⟨fun hrg hop htick => ?_, fun hrg hop => ?_, fun hrg hop => ?_, fun hrg hop => ?_, fun hrg hop htick => ?_⟩
    · subst hrg
      exact runs_next (State.slabOp_fails hf hr hb hd hop (fun _ => htick) hopen)
    · subst hrg
      exact runs_next (State.slabOp_fails hf hr hb hd hop (fun h => absurd h (by decide)) hopen)
    · subst hrg
      exact runs_next (State.slabOp_fails hf hr hb hd hop (fun h => absurd h (by decide)) hopen)
    · subst hrg
      exact runs_next (State.slabOp_fails hf hr hb hd hop (fun h => absurd h (by decide)) hopen)
    · subst hrg
      exact runs_next (State.slabOp_fails hf hr hb hd hop (fun _ => htick) hopen)
  · obtain ⟨hbeam, rfl⟩ | ⟨hbeam, rfl⟩ := hc
    · exact runs_next (State.riddle_ranks hf hr hb hrd hbeam hrows hsc hbest hids hput)
    · exact runs_next (State.riddle_ranks hf hr hb hrd hbeam hrows hsc hbest hids hput)

/-! ## The Solder and the remote steps -/

section
variable {s s1 s2 : State} {id i : Nat} {a : Act}

theorem State.solderUpdate_distributes {d h body : List Byte} {es : List UpdEntry} (hready : StepReady s id i .solder a)
    (hnew : a.run.data.any (fun x => x.step == i) = false) (hd : s.descOf a = (.bytes d, s1))
    (hbatch : a.batch (updDesc d) = some (h, body))
    (hdist : s1.distribute a (updDesc d) body (numAt h 0 4) 0 [] = (es, none)) (hes : es ≠ []) :
    s.solderUpdate id i = s.unlessDenied (s1.setData id { step := i, limit := es.length }) := by
  have hsome : es.isEmpty = false := by simpa using hes
  refine (State.onStep_ready hready _).trans ?_
  simp only [hnew, Bool.false_eq_true, if_false, hd, hbatch, hdist, hsome]

/-- An entry that applies moves the step on; the last one ends its work. -/
theorem State.updateEntry_applies {d h body : List Byte} {x : UpdEntry} {t : TableSlot} {n op : Nat} {d1 : StepData}
    (hd1 : d1 = { a.run.dataOf i with next := (a.run.dataOf i).next + 1, applied := (a.run.dataOf i).applied + 1 })
    (hready : StepReady s id i .solder a) (hlim : (a.run.dataOf i).next < (a.run.dataOf i).limit)
    (hd : s.descOf a = (.bytes d, s1)) (hbatch : a.batch (updDesc d) = some (h, body))
    (hhead : s1.head? a body (a.run.dataOf i).next 0 = some (x, t, n))
    (hgo : (a.run.dataOf i).stopped.contains (x.vault / 32) = false)
    (happly : s1.applyEntry a h body x t = (none, false, s2)) (hop : x.op = op) :
    s.updateEntry id i op = s.unlessDenied (if (a.run.dataOf i).limit ≤ (a.run.dataOf i).next + 1
      then (s2.setData id d1).solderEnd a else s2.setData id d1) := by
  subst hd1
  refine (State.onStep_ready hready _).trans ?_
  simp only [Nat.not_le.2 hlim, if_false, hd, hbatch, hhead, hop, ne_eq, not_true_eq_false, hgo, Bool.false_eq_true, happly,
    Option.isNone_none, if_true, decide_eq_true_eq]

theorem State.remoteStep_sends {b : List Byte} {g : GrantRef} {push : Bool} (hd : s.descOf a = (.bytes b, s1))
    (hg : a.grantRef = some g) (hpush : (remDesc b).push = push) :
    s.remoteStep a push = State.sendReqs a (remDesc b) g ((remDesc b).reqs * 4096 + 1) s1 (a.run.dataOf a.idx).next
      (a.run.dataOf a.idx).limit ((a.run.dataOf a.idx).stopped.headD 0) (a.run.dataOf a.idx).applied := by
  simp only [State.remoteStep, hd, hpush, ne_eq, not_true_eq_false, if_false, hg]

theorem State.remoteDeadline_fails {mine : List Request} (hdue : a.deadline ≤ s.tick)
    (hmine : mine = s.requests.filter (fun q => q.run == a.run.id && q.step == a.idx))
    (h1 : s1 = (mine.filter (·.open_)).foldl (fun t q => (t.lateRcvd q.port).countP q.owner 131 1) s) :
    s.remoteDeadline a = s1.failRun a.run.id ((Err.lowest
      (mine.filterMap (·.err) ++ (if (mine.filter (·.open_)).isEmpty then [] else [.remoteLate]) ++
        ((a.run.late.filter (fun x => x.1 == a.idx)).map (·.2)))).getD .remoteLate) := by
  simp only [State.remoteDeadline, Nat.not_lt.2 hdue, if_false, ← hmine, ← h1]

end

/-- Settles O35. -/
theorem updateAndRemoteStepsComplete : Obligations.UpdateAndRemoteStepsComplete := by
  refine ⟨fun s s1 id i a d h body es hr hnew hd hbatch hdist hes =>
      runs_next (State.solderUpdate_distributes hr hnew hd hbatch hdist hes),
    fun s s1 s2 id i n a d h body x t d1 hd1 hr hlim hd hbatch hhead hgo happly c hc => ?entry,
    fun s s1 id i a b g hr hd hg c hc => ?remote,
    fun s s1 id i a mine ha heng hdue hmine h1 => runs_next ?deadline⟩
  case entry =>
    have happlies {op : Nat} (hop : x.op = op) :=
      State.updateEntry_applies hd1 hr hlim hd hbatch hhead hgo happly hop
    have hrun : exec c s = .next (s.unlessDenied (if (a.run.dataOf i).limit ≤ (a.run.dataOf i).next + 1
        then (s2.setData id d1).solderEnd a else s2.setData id d1)) := by
      obtain ⟨hop, rfl⟩ | ⟨hop, rfl⟩ | ⟨hop, rfl⟩ | ⟨hop, rfl⟩ := hc
      · exact runs_next (happlies hop)
      · exact runs_next (happlies hop)
      · exact runs_next (happlies hop)
      · exact runs_next (happlies hop)
    refine ⟨fun hmore => hrun.trans (runs_next ?_), fun hlast => hrun.trans (runs_next ?_)⟩
    · rw [if_neg (Nat.not_le.2 hmore)]
    · rw [if_pos hlast.ge]
  case remote =>
    obtain ⟨hpush, rfl⟩ | ⟨hpush, rfl⟩ := hc
    · exact runs_next ((State.onStep_ready hr _).trans (congrArg _ (State.remoteStep_sends hd hg hpush)))
    · exact runs_next ((State.onStep_ready hr _).trans (congrArg _ (State.remoteStep_sends hd hg hpush)))
  case deadline =>
    simp only [ha, heng, if_true]
    exact State.remoteDeadline_fails hdue hmine h1

/-! ## An uncorrectable error in an engine's own storage -/

section
variable {s : State} {id i : Nat} {e : Eng} {a : Act}

/-- A step that begins with the engine's own error fails its run and marks the engine. -/
theorem State.onStep_uncorrectable (h : StepReady s id i e a) (k : Act → State → State) :
    s.onStep id i e (fun a => s.flawed a .uncorrectable (k a)) = s.unlessDenied
      ((s.failRun a.run.id .poison).mark a.step.lane { cause := 3, polder := a.cperPolder }) :=
  State.onStep_ready h _

theorem State.onStep_uncorrectableLate (h : StepReady s id i e a) (k : Act → State → State) :
    s.onStep id i e (fun a => s.flawedLate a .uncorrectable (k a)) = s.unlessDenied
      ((s.late a.run.id a.idx .poison).mark a.step.lane { cause := 3, polder := a.cperPolder }) :=
  State.onStep_ready h _

end

/-- Settles O36. -/
theorem uncorrectableEngineErrorFailsTheRun : Obligations.UncorrectableEngineErrorFailsTheRun := by
  refine fun s id i e a h => ⟨fun c hc => ?_, fun c bad he hc => ?_⟩
  · obtain ⟨rfl, rfl⟩ | ⟨rfl, hc⟩ | ⟨rfl, hc⟩ | ⟨rfl, rfl⟩ | ⟨rfl, hc⟩ := hc
    · exact runs_next (State.onStep_uncorrectable h _)
    · obtain rfl | rfl | rfl | rfl := hc
      · exact runs_next (State.onStep_uncorrectable h _)
      · exact runs_next (State.onStep_uncorrectable h _)
      · exact runs_next (State.onStep_uncorrectable h _)
      · exact runs_next (State.onStep_uncorrectable h _)
    · obtain ⟨hit, rfl⟩ | rfl | rfl := hc
      · exact runs_next (State.onStep_uncorrectable h _)
      · exact runs_next (State.onStep_uncorrectable h _)
      · exact runs_next (State.onStep_uncorrectable h _)
    · exact runs_next (State.onStep_uncorrectable h _)
    · obtain rfl | rfl := hc
      · exact runs_next (State.onStep_uncorrectable h _)
      · exact runs_next (State.onStep_uncorrectable h _)
  · subst he
    obtain rfl | rfl | rfl | rfl | rfl := hc
    · exact runs_next (State.onStep_uncorrectableLate h _)
    · exact runs_next (State.onStep_uncorrectableLate h _)
    · exact runs_next (State.onStep_uncorrectableLate h _)
    · exact runs_next (State.onStep_uncorrectableLate h _)
    · exact runs_next (State.onStep_uncorrectableLate h _)

end Sys2Proof.Machine
end

section
/-! SUPPORT. The laws of the Planisher's instructions (spec/14_planisher.md, R317 to R334). -/

namespace Sys2Proof.Machine
open Sys2Proof

section
variable {s : State} {t : Fin 8} {p : Pl} {w : Nat} {a : Act} {f : Flaw} {op : Nat} {c : Instr}

/-- A command that is an instruction on registers does its instruction and moves the program on. -/
theorem runs_plReg {k : Pl → Nat → Pl} (h : PlReady s t p w a) (hf : f ≠ .uncorrectable) (ho : plOp w = op)
    (hc : exec c s = .next (s.plReg t.val op f k)) : Runs c s (s.plDone t.val (plOp w) a (k p w)) := by
  rw [Runs, hc, State.plReg_ready h hf ho, ho]

/-- A command that is an instruction with an answer moves the program on with it. -/
theorem runs_plRun_ok {k : Act → Pl → Nat → State → PlRes} {p1 : Pl} {s1 : State} (h : PlReady s t p w a)
    (hf : f ≠ .uncorrectable) (ho : plOp w = op) (hc : exec c s = .next (s.plRun t.val op f k))
    (hk : k a p w s = (.ok p1, s1)) : Runs c s (s1.plDone t.val (plOp w) a p1) := by
  rw [Runs, hc, State.plRun_ready h hf ho, hk, ho]

theorem runs_plRun_error {k : Act → Pl → Nat → State → PlRes} {e : Err} {s1 : State} (h : PlReady s t p w a)
    (hf : f ≠ .uncorrectable) (ho : plOp w = op) (hc : exec c s = .next (s.plRun t.val op f k))
    (hk : k a p w s = (.error e, s1)) : Runs c s (s1.plFail t.val p.run e) := by
  rw [Runs, hc, State.plRun_ready h hf ho, hk]

/-! ## Loads and stores -/

theorem runs_plLoad {s1 : State} {rows : List (List Byte)} (h : PlReady s t p w a) (hf : f ≠ .uncorrectable)
    (hget : s.getList a ((List.range 16).map (fun r => (p.rowVa w r, plRowBytes (plOp w)))) [] = (.ok rows, s1))
    (ho : plOp w = op) (hc : exec c s = .next (s.plLoad t.val op f)) :
    Runs c s (s1.plDone t.val (plOp w) a
      (p.put w (p.dst w) (fun e => loadElem (plOp w) (rows.getD (e / 32) []) (e % 32)))) := by
  rw [ho] at hget
  refine runs_plRun_ok h hf ho hc ?_
  simp only [hget, ho]

/-- A store whose rows are written; one of Q4 elements under MERGE whose mask parts a byte reads them first. -/
theorem runs_plStore {s0 s1 : State} {part : Bool} {rows : List (List Byte)} (h : PlReady s t p w a)
    (hf : f ≠ .uncorrectable)
    (hpart : part = (plOp w == 0x1B && !plZ w && (List.range 256).any (fun j => p.governs w (2 * j) != p.governs w (2 * j + 1))))
    (hread : part = true → s.getList a ((List.range 16).map (fun r => (p.rowVa w r, 16))) [] = (.ok rows, s0))
    (hnone : part = false → rows = [] ∧ s0 = s)
    (hput : s0.putRows a ((List.range 16).flatMap (fun r =>
      byteRuns (p.rowVa w r) (storeRow (plOp w) p w (p.dst w) r (rows.getD r [])))) = (none, s1))
    {fl : Nat} (hfl : fl = (List.range 512).foldl (fun acc e => if p.governs w e then
      bitsOr 3 acc (storeBits (plOp w) (p.el (p.dst w) e)).2 else acc) (p.flags.getD (p.dst w) 0))
    (ho : plOp w = op) (hc : exec c s = .next (s.plStore t.val op f)) :
    Runs c s (s1.plDone t.val (plOp w) a { p with flags := p.flags.set (p.dst w) fl }) := by
  have hold : (if part then s.getList a ((List.range 16).map (fun r => (p.rowVa w r, 16))) [] else (.ok [], s)) =
      (.ok rows, s0) := by
    cases part with
    | true => exact hread rfl
    | false =>
      obtain ⟨rfl, rfl⟩ := hnone rfl
      rfl
  rw [ho] at hpart hput hfl
  refine runs_plRun_ok h hf ho hc ?_
  simp only [← hpart, hold, hput, ← hfl]

end

/-- Settles O37. -/
theorem planisherControlAndMemoryInstructionsComplete : Obligations.PlanisherControlAndMemoryInstructionsComplete := by
  refine ⟨fun s s1 id i a d hr hpl hd => runs_next ((State.onStep_ready hr _).trans ?_), fun s t p w a h => ?_,
    fun s s1 t p w a f rows h hf hget c hc => ?_,
    fun s s0 s1 t p w a f part rows h hf hpart hread hnone hput c hc fl hfl => ?_⟩
  · simp only [hpl, Option.isSome_none, Bool.false_eq_true, if_false, State.withDesc_bytes hd]
  · refine ⟨fun ho => Eq.trans (runs_plReg (f := .none) h nofun ho rfl) rfl, fun ho => Eq.trans (runs_plReg (f := .none) h nofun ho rfl) rfl,
      fun ho => Eq.trans (runs_plReg (f := .none) h nofun ho rfl) rfl,
      fun s1 ho hput => runs_plRun_ok (f := .none) h nofun ho rfl ?stf,
      fun f x q ho hf htake => runs_plRun_ok h hf ho rfl ?pop,
      fun f ho hf htake => runs_plRun_error h hf ho rfl ?popEmpty⟩
    case stf => simp only [hput]
    case pop => simp only [htake]
    case popEmpty => simp only [htake]
  · obtain ⟨ho, rfl⟩ | ⟨ho, rfl⟩ | ⟨ho, rfl⟩ | ⟨ho, rfl⟩ | ⟨ho, rfl⟩ | ⟨ho, rfl⟩ := hc
    · exact runs_plLoad h hf hget ho rfl
    · exact runs_plLoad h hf hget ho rfl
    · exact runs_plLoad h hf hget ho rfl
    · exact runs_plLoad h hf hget ho rfl
    · exact runs_plLoad h hf hget ho rfl
    · exact runs_plLoad h hf hget ho rfl
  · obtain ⟨ho, rfl⟩ | ⟨ho, rfl⟩ | ⟨ho, rfl⟩ | ⟨ho, rfl⟩ | ⟨ho, rfl⟩ | ⟨ho, rfl⟩ := hc
    · exact runs_plStore h hf hpart hread hnone hput hfl ho rfl
    · exact runs_plStore h hf hpart hread hnone hput hfl ho rfl
    · exact runs_plStore h hf hpart hread hnone hput hfl ho rfl
    · exact runs_plStore h hf hpart hread hnone hput hfl ho rfl
    · exact runs_plStore h hf hpart hread hnone hput hfl ho rfl
    · exact runs_plStore h hf hpart hread hnone hput hfl ho rfl

/-! ## Arithmetic -/

section
variable {s : State} {t : Fin 8} {p : Pl} {w : Nat} {a : Act} {f : Flaw} {op : Nat} {c : Instr}

theorem runs_plBin {g : Nat → Nat → Nat} (h : PlReady s t p w a) (hf : f ≠ .uncorrectable) (ho : plOp w = op)
    (hc : exec c s = .next (s.plBin t.val op f g)) :
    Runs c s (s.plDone t.val (plOp w) a (p.put w (p.dst w) (fun e =>
      (g (p.el (p.sa w) e) (p.b w e), arithFlags (g (p.el (p.sa w) e) (p.b w e)) [p.el (p.sa w) e, p.b w e])))) :=
  runs_plReg h hf ho hc

theorem runs_plUn {g : Nat → Nat} (h : PlReady s t p w a) (hf : f ≠ .uncorrectable) (ho : plOp w = op)
    (hc : exec c s = .next (s.plUn t.val op f g)) :
    Runs c s (s.plDone t.val (plOp w) a (p.put w (p.dst w) (fun e =>
      (g (p.el (p.sa w) e), arithFlags (g (p.el (p.sa w) e)) [p.el (p.sa w) e])))) :=
  runs_plReg h hf ho hc

theorem runs_plInt {g : Int → Int → Int} (h : PlReady s t p w a) (hf : f ≠ .uncorrectable) (ho : plOp w = op)
    (hc : exec c s = .next (s.plInt t.val op f g)) :
    Runs c s (s.plDone t.val (plOp w) a (p.put w (p.dst w) (fun e =>
      (wrap32 (g (sext 32 (p.el (p.sa w) e)) (sext 32 (p.b w e))), 0)))) :=
  runs_plReg h hf ho hc

end

/-- Settles O38. -/
theorem planisherArithmeticCompletes : Obligations.PlanisherArithmeticCompletes := by
  refine fun s t p w a f h hf => ⟨fun c g hc => ?_, fun c g hc => ?_, fun ho => Eq.trans (runs_plReg h hf ho rfl) rfl, fun c g hc => ?_,
    fun ho => Eq.trans (runs_plReg h hf ho rfl) rfl⟩
  · obtain ⟨ho, rfl, rfl⟩ | ⟨ho, rfl, rfl⟩ | ⟨ho, rfl, rfl⟩ | ⟨ho, rfl, rfl⟩ | ⟨ho, rfl, rfl⟩ := hc
    · exact runs_plBin h hf ho rfl
    · exact runs_plBin h hf ho rfl
    · exact runs_plBin h hf ho rfl
    · exact runs_plBin h hf ho rfl
    · exact runs_plBin h hf ho rfl
  · obtain ⟨ho, rfl, rfl⟩ | ⟨ho, rfl, rfl⟩ | ⟨ho, rfl, rfl⟩ | ⟨ho, rfl, rfl⟩ | ⟨ho, rfl, rfl⟩ | ⟨ho, rfl, rfl⟩ |
      ⟨ho, rfl, rfl⟩ | ⟨ho, rfl, rfl⟩ := hc
    · exact runs_plUn h hf ho rfl
    · exact runs_plUn h hf ho rfl
    · exact runs_plUn h hf ho rfl
    · exact runs_plUn h hf ho rfl
    · exact runs_plUn h hf ho rfl
    · exact runs_plUn h hf ho rfl
    · exact runs_plUn h hf ho rfl
    · exact runs_plUn h hf ho rfl
  · obtain ⟨ho, rfl, rfl⟩ | ⟨ho, rfl, rfl⟩ | ⟨ho, rfl, rfl⟩ | ⟨ho, rfl, rfl⟩ | ⟨ho, rfl, rfl⟩ := hc
    · exact runs_plInt h hf ho rfl
    · exact runs_plInt h hf ho rfl
    · exact runs_plInt h hf ho rfl
    · exact runs_plInt h hf ho rfl
    · exact runs_plInt h hf ho rfl

/-! ## Masks, conversions and reductions -/

section
variable {s : State} {t : Fin 8} {p : Pl} {w : Nat} {a : Act} {f : Flaw} {op : Nat} {c : Instr}

theorem runs_plMask {g : Bool → Bool → Bool} (h : PlReady s t p w a) (ho : plOp w = op)
    (hc : exec c s = .next (s.plMask t.val op g)) :
    Runs c s (s.plDone t.val (plOp w) a (p.putMask w (fun e => g (p.aMask w e) (p.bMask w e)))) :=
  runs_plReg (f := .none) h nofun ho hc

theorem runs_plConv {g : Pl → Nat → Nat → Conv} (h : PlReady s t p w a) (hf : f ≠ .uncorrectable) (ho : plOp w = op)
    (hc : exec c s = .next (s.plConv t.val op f g)) :
    Runs c s (s.plDone t.val (plOp w) a (p.put w (p.dst w) (fun e =>
      ((g p w (p.el (p.sa w) e)).bits, convFlags (g p w (p.el (p.sa w) e)) false)))) :=
  runs_plReg h hf ho hc

/-- A comparison other than the test for NaN compares. -/
theorem runs_fcmp_compares (h : PlReady s t p w a) (hf : f ≠ .uncorrectable) (ho : plOp w = 0x30) (hcond : plArg w % 8 < 6) :
    Runs (.fcmp t f) s (s.plDone t.val (plOp w) a (p.putMask w (fun e =>
      condBit (plArg w % 8) (cmpFv (fp32 (p.el (p.sa w) e)) (fp32 (p.b w e)))
        (!isNan32 (p.el (p.sa w) e) && !isNan32 (p.b w e))))) := by
  refine Eq.trans (runs_plReg h hf ho rfl) (runs_next ?_)
  simp only [if_neg hcond.ne]

theorem runs_fcmp_testsNan (h : PlReady s t p w a) (hf : f ≠ .uncorrectable) (ho : plOp w = 0x30) (hcond : plArg w % 8 = 6) :
    Runs (.fcmp t f) s (s.plDone t.val (plOp w) a (p.putMask w (fun e => isNan32 (p.el (p.sa w) e)))) := by
  refine Eq.trans (runs_plReg h hf ho rfl) (runs_next ?_)
  simp only [if_pos hcond]

theorem runs_rowTree {g : Nat → Nat → Nat} (h : PlReady s t p w a) (hf : f ≠ .uncorrectable) (ho : plOp w = op)
    (hc : exec c s = .next (s.plTree t.val op f true g)) :
    Runs c s (s.plDone t.val (plOp w) a (p.put w (p.dst w) (fun e => ((List.range 16).map (fun r =>
      treeFold g 5 ((List.range 32).map (fun k => (p.el (p.sa w) (32 * r + k), 0))))).getD (e / 32) (0, 0)))) :=
  runs_plReg h hf ho hc

theorem runs_columnTree {g : Nat → Nat → Nat} (h : PlReady s t p w a) (hf : f ≠ .uncorrectable) (ho : plOp w = op)
    (hc : exec c s = .next (s.plTree t.val op f false g)) :
    Runs c s (s.plDone t.val (plOp w) a (p.put w (p.dst w) (fun e => ((List.range 32).map (fun k =>
      treeFold g 4 ((List.range 16).map (fun r => (p.el (p.sa w) (32 * r + k), 0))))).getD (e % 32) (0, 0)))) :=
  runs_plReg h hf ho hc

end

/-- Settles O39. -/
theorem planisherMaskAndConversionInstructionsComplete : Obligations.PlanisherMaskAndConversionInstructionsComplete := by
  refine fun s t p w a f h hf => ⟨runs_fcmp_compares h hf, runs_fcmp_testsNan h hf, fun ho => Eq.trans (runs_plReg h hf ho rfl) rfl,
    fun c g hc => ?_, fun ho => Eq.trans (runs_plReg (f := .none) h nofun ho rfl) rfl, fun ho => Eq.trans (runs_plReg (f := .none) h nofun ho rfl) rfl,
    fun ho => Eq.trans (runs_plReg h hf ho rfl) rfl, fun ho => Eq.trans (runs_plReg h hf ho rfl) rfl, fun c g hc => ?_, fun ho => Eq.trans (runs_plReg h hf ho rfl) rfl,
    fun c g hc => ?_, fun c g hc => ?_⟩
  · obtain ⟨ho, rfl, rfl⟩ | ⟨ho, rfl, rfl⟩ := hc
    · exact runs_plMask h ho rfl
    · exact runs_plMask h ho rfl
  · obtain ⟨ho, rfl, rfl⟩ | ⟨ho, rfl, rfl⟩ | ⟨ho, rfl, rfl⟩ | ⟨ho, rfl, rfl⟩ | ⟨ho, rfl, rfl⟩ | ⟨ho, rfl, rfl⟩ := hc
    · exact Eq.trans (runs_plConv h hf ho rfl) rfl
    · exact Eq.trans (runs_plConv h hf ho rfl) rfl
    · exact Eq.trans (runs_plConv h hf ho rfl) rfl
    · exact Eq.trans (runs_plConv h hf ho rfl) rfl
    · exact Eq.trans (runs_plConv h hf ho rfl) rfl
    · exact Eq.trans (runs_plConv h hf ho rfl) rfl
  · obtain ⟨ho, rfl, rfl⟩ | ⟨ho, rfl, rfl⟩ := hc
    · exact runs_rowTree h hf ho rfl
    · exact runs_rowTree h hf ho rfl
  · obtain ⟨ho, rfl, rfl⟩ | ⟨ho, rfl, rfl⟩ := hc
    · exact runs_columnTree h hf ho rfl
    · exact runs_columnTree h hf ho rfl

end Sys2Proof.Machine
end

section
/-! SUPPORT. What a write of memory and a write of the Planisher's registers leave alone (spec/09_towers_memory.md, R192, R213, R538;
spec/14_planisher.md, R327, R333). -/

namespace Sys2Proof.Machine
open Sys2Proof

/-! ## Memory -/

theorem State.writeMere_stores {s t : State} {o : Nat} {bs : List Byte} (h : s.writeMere o bs = (none, t)) :
    t.mere = writeMem s.mere o bs ∧ t.vault = s.vault := by
  unfold State.writeMere at h
  extract_lets ecc s0 at h
  have h0 : s.SameMem s0 := s.sameMem_setDirty _ _
  split at h
  · cases h
  · cases h
    exact ⟨congrArg (writeMem · o bs) h0.2, h0.1⟩

theorem State.writeMere_fails {s t : State} {o : Nat} {bs : List Byte} {e : Err} (h : s.writeMere o bs = (some e, t)) :
    s.SameMem t := by
  unfold State.writeMere at h
  extract_lets ecc s0 at h
  have h0 : s.SameMem s0 := s.sameMem_setDirty _ _
  split at h
  · have ht : s0 = t := (Prod.mk.inj h).2
    exact ht ▸ h0
  · cases h

theorem State.writeVault_stores {s t : State} {w : Who} {a v l : Nat} {bs : List Byte} (hl : s.locate a = some (v, l))
    (h : s.writeVault w a bs = (none, t)) : t.vault = writeMem s.vault (vaultKey v l) bs ∧ t.mere = s.mere := by
  obtain ⟨hmere, hok, -⟩ := s.writeVault_mem w a bs
  rw [h] at hmere hok
  obtain ⟨v', l', hl', -, hvault⟩ := hok rfl
  cases hl.symm.trans hl'
  exact ⟨hvault, hmere⟩

theorem State.writeVault_fails {s t : State} {w : Who} {a : Nat} {bs : List Byte} {e : Err}
    (h : s.writeVault w a bs = (some e, t)) : s.SameMem t := by
  obtain ⟨hmere, -, hfail⟩ := s.writeVault_mem w a bs
  rw [h] at hmere hfail
  exact ⟨hfail nofun, hmere⟩

/-- Settles O53. -/
theorem memoryReadsBackAndKeepsTheRest : Obligations.MemoryReadsBackAndKeepsTheRest := by
  refine ⟨fun m k bs => ⟨readMem_writeMem bs m k, fun j hj => writeMem_get_outside bs m k j hj⟩,
    fun s t w a v l bs hl h => ?_, fun s t o bs h => ?_, fun s t w a bs e h => ?_⟩
  · obtain ⟨hvault, hmere⟩ := State.writeVault_stores hl h
    rw [hvault]
    exact ⟨readMem_writeMem _ _ _, hmere, fun j hj => writeMem_get_outside _ _ _ j hj⟩
  · obtain ⟨hmere, hvault⟩ := State.writeMere_stores h
    rw [hmere]
    exact ⟨readMem_writeMem _ _ _, hvault, fun j hj => writeMem_get_outside _ _ _ j hj⟩
  · obtain h | h := h
    · exact State.writeVault_fails h
    · exact State.writeMere_fails h

/-! ## Bits -/

theorem bitAt_eq_testBit (v i : Nat) : bitAt v i = v.testBit i := by
  rw [Nat.testBit_eq_decide_div_mod_eq]
  rfl

/-- The number whose bits below `n` are those of `b`. -/
def bitsBelow (b : Nat → Bool) (n : Nat) : Nat := (List.range n).foldl (fun acc e => if b e then acc + 2 ^ e else acc) 0

theorem bitsBelow_succ (b : Nat → Bool) (n : Nat) :
    bitsBelow b (n + 1) = if b n then bitsBelow b n + 2 ^ n else bitsBelow b n := by
  rw [bitsBelow, List.range_succ, List.foldl_append]
  rfl

theorem bitsBelow_lt (b : Nat → Bool) (n : Nat) : bitsBelow b n < 2 ^ n := by
  induction n with
  | zero => exact Nat.one_pos
  | succ n ih =>
    rw [bitsBelow_succ, Nat.pow_succ]
    split
    · omega
    · omega

theorem bitAt_bitsBelow (b : Nat → Bool) {e n : Nat} (h : e < n) : bitAt (bitsBelow b n) e = b e := by
  rw [bitAt_eq_testBit]
  induction n with
  | zero => omega
  | succ n ih =>
    have hn : (bitsBelow b n).testBit n = false := Nat.testBit_lt_two_pow (bitsBelow_lt b n)
    rw [bitsBelow_succ]
    obtain hlt | rfl := Nat.lt_succ_iff_lt_or_eq.1 h
    · split
      · rw [Nat.add_comm, Nat.testBit_two_pow_add_gt hlt, ih hlt]
      · exact ih hlt
    · split
      next hb => rw [Nat.add_comm, Nat.testBit_two_pow_add_eq, hn, hb, Bool.not_false]
      next hb => rw [hn, Bool.eq_false_of_not_eq_true hb]

/-- An element without flags adds none. -/
theorem bitsOr_zero {v : Nat} (h : v < 8) : bitsOr 3 v 0 = v := by
  have hall : ∀ v : Fin 8, bitsOr 3 v.val 0 = v.val := by decide
  exact hall ⟨v, h⟩

/-! ## A tile's write -/

/-- Values put at addresses in a row from `b + k` on, and every other address as it was. -/
theorem SMap.get_foldl_put (b : Nat) (l : List Nat) (k : Nat) (m : SMap Nat) (j : Nat) :
    SMap.get 0 ((l.zipIdx k).foldl (fun m x => SMap.put 0 m (b + x.2) x.1) m) j =
      if b + k ≤ j ∧ j < b + k + l.length then l.getD (j - (b + k)) 0 else SMap.get 0 m j := by
  induction l generalizing k m with
  | nil =>
    rw [if_neg (by simp)]
    rfl
  | cons v l ih =>
    rw [List.zipIdx_cons, List.foldl_cons, ih, List.length_cons]
    obtain rfl | hne := eq_or_ne j (b + k)
    · rw [if_neg (by omega), if_pos (by omega), SMap.get_put_same, Nat.sub_self, List.getD_cons_zero]
    · rw [SMap.get_put_ne _ _ _ hne]
      by_cases hin : b + (k + 1) ≤ j ∧ j < b + (k + 1) + l.length
      · rw [if_pos hin, if_pos (by omega), show j - (b + k) = j - (b + (k + 1)) + 1 by omega, List.getD_cons_succ]
      · rw [if_neg hin, if_neg (by omega)]

section
variable (p : Pl) (w tile : Nat) (f : Nat → Nat × Nat)

/-- The values that a write of a tile leaves in its elements. -/
def Pl.putVals : List Nat :=
  ((List.range 512).map f).mapIdx (fun e r => if p.governs w e then r.1 else if plZ w then 0 else p.el tile e)

theorem Pl.putVals_length : (p.putVals w tile f).length = 512 := by
  simp [Pl.putVals]

theorem Pl.putVals_getD {e : Nat} (he : e < 512) :
    (p.putVals w tile f).getD e 0 = if p.governs w e then (f e).1 else if plZ w then 0 else p.el tile e := by
  simp [Pl.putVals, List.getD_eq_getElem?_getD, he]

theorem Pl.put_tiles : (p.put w tile f).tiles =
    ((p.putVals w tile f).zipIdx).foldl (fun m x => SMap.put 0 m (512 * tile + x.2) x.1) p.tiles := by
  simp only [Pl.put, Pl.putVals]

/-- What a write of a tile leaves alone. -/
theorem Pl.put_rest : (p.put w tile f).masks = p.masks ∧ (p.put w tile f).lc = p.lc ∧ (p.put w tile f).sc = p.sc ∧
    (p.put w tile f).pc = p.pc ∧ (p.put w tile f).loops = p.loops := by
  simp only [Pl.put, and_self]

theorem Pl.put_el_get (j : Nat) : SMap.get 0 (p.put w tile f).tiles j =
    if 512 * tile ≤ j ∧ j < 512 * tile + 512 then (p.putVals w tile f).getD (j - 512 * tile) 0 else SMap.get 0 p.tiles j := by
  rw [Pl.put_tiles, SMap.get_foldl_put, Pl.putVals_length, Nat.add_zero]

theorem Pl.put_el_same {e : Nat} (he : e < 512) : (p.put w tile f).el tile e =
    if p.governs w e then (f e).1 else if plZ w then 0 else p.el tile e := by
  rw [Pl.el, Pl.put_el_get, if_pos (by omega), Nat.add_sub_cancel_left, Pl.putVals_getD _ _ _ _ he]

theorem Pl.put_el_ne {n e : Nat} (he : e < 512) (hn : n ≠ tile) : (p.put w tile f).el n e = p.el n e := by
  rw [Pl.el, Pl.put_el_get, if_neg (by omega), Pl.el]

/-- The flags of a tile after a write: those of its governed elements joined to the ones before. -/
def Pl.putFlags : Nat :=
  ((((List.range 512).map f).zipIdx.filter (fun x => p.governs w x.2)).foldl (fun acc x => bitsOr 3 acc x.1.2)
    (p.flags.getD tile 0))

theorem Pl.put_flags : (p.put w tile f).flags = p.flags.set tile (p.putFlags w tile f) := by
  simp only [Pl.put, Pl.putFlags]

/-- When no governed element sets a flag, the tile's flags stand. -/
theorem Pl.putFlags_noFlag (hf : ∀ e, e < 512 → p.governs w e = true → (f e).2 = 0) (hfl : p.flags.getD tile 0 < 8) :
    p.putFlags w tile f = p.flags.getD tile 0 := by
  have hzero : ∀ x ∈ ((List.range 512).map f).zipIdx.filter (fun x => p.governs w x.2), x.1.2 = 0 := by
    intro x hx
    obtain ⟨hmem, hgov⟩ := List.mem_filter.1 hx
    obtain ⟨-, hlt, heq⟩ := List.mem_zipIdx hmem
    rw [heq]
    have h512 : x.2 < 512 := by simpa using hlt
    simpa using hf x.2 h512 hgov
  unfold Pl.putFlags
  generalize ((List.range 512).map f).zipIdx.filter (fun x => p.governs w x.2) = l at hzero
  induction l with
  | nil => rfl
  | cons x l ih =>
    rw [List.foldl_cons, hzero x (List.mem_cons_self), bitsOr_zero hfl]
    exact ih fun y hy => hzero y (List.mem_cons_of_mem _ hy)

end

/-! ## A mask's write -/

section
variable (p : Pl) (w : Nat) (f : Nat → Bool)

theorem Pl.putMask_masks : (p.putMask w f).masks = p.masks.set (p.dst w)
    (bitsBelow (fun e => if p.governs w e then f e else if plZ w then false else bitAt (p.mask (p.dst w)) e) 512) := by
  simp only [Pl.putMask, bitsBelow]

theorem Pl.putMask_tiles : (p.putMask w f).tiles = p.tiles := by
  simp only [Pl.putMask]

theorem Pl.putMask_flags : (p.putMask w f).flags = p.flags := by
  simp only [Pl.putMask]

theorem Pl.putMask_mask_same (hdst : p.dst w < p.masks.length) : (p.putMask w f).mask (p.dst w) =
    bitsBelow (fun e => if p.governs w e then f e else if plZ w then false else bitAt (p.mask (p.dst w)) e) 512 := by
  rw [Pl.mask, Pl.putMask_masks, List.getD_eq_getElem?_getD, List.getElem?_set_self hdst, Option.getD_some]

theorem Pl.putMask_mask_ne {n : Nat} (hn : n ≠ p.dst w) : (p.putMask w f).mask n = p.mask n := by
  rw [Pl.mask, Pl.putMask_masks, List.getD_eq_getElem?_getD, List.getElem?_set_ne hn.symm, ← List.getD_eq_getElem?_getD,
    Pl.mask]

end

/-- Settles O54. -/
theorem planisherWritesOnlyItsDestination : Obligations.PlanisherWritesOnlyItsDestination := by
  refine ⟨fun p w tile e f he => ⟨p.put_el_same w tile f he, fun n hn => p.put_el_ne w tile f he hn⟩,
    fun p w tile f => ?_,
    fun p w e f he hdst => ⟨?_, p.putMask_tiles w f, p.putMask_flags w f, fun n hn => p.putMask_mask_ne w f hn⟩⟩
  · obtain ⟨hmasks, hlc, hsc, hpc, hloops⟩ := p.put_rest w tile f
    refine ⟨hmasks, hlc, hsc, hpc, hloops, fun n hn => ?_, fun hf hfl => ?_⟩
    · rw [Pl.put_flags, List.getElem?_set_ne hn.symm]
    · rw [Pl.put_flags, Pl.putFlags_noFlag p w tile f hf hfl, List.getD_eq_getElem?_getD, List.getD_eq_getElem?_getD]
      by_cases hlt : tile < p.flags.length
      · rw [List.getElem?_set_self hlt, Option.getD_some]
      · rw [List.set_eq_of_length_le (Nat.not_lt.1 hlt)]
  · rw [Pl.putMask_mask_same p w f hdst, bitAt_bitsBelow _ he]

end Sys2Proof.Machine
end

section
/-! SUPPORT. The laws of the timed events (spec/09_towers_memory.md, R205 to R210; spec/20_health_patina.md, R454, R456) and of the
background ticks, the Assay and the ENGINE reset (spec/19_background_integrity.md, R433, R450; R419). -/

namespace Sys2Proof.Machine
open Sys2Proof

/-! ## The timed events of the part -/

section
variable {s : State}

theorem State.halve_due (h0 : s.tick ≠ 0) (hper : s.tick % 65536 = 0) (hnew : s.halved ≠ s.tick) :
    s.halve = { s with
      sketch := (s.sketch.map (fun e => (e.1, e.2 / 2))).filter (fun e => e.2 != 0)
      halved := s.tick } := by
  have hdue : ¬(s.tick = 0 ∨ s.tick % 65536 ≠ 0 ∨ s.halved = s.tick) := by
    simp only [h0, hper, hnew, ne_eq, not_true_eq_false, or_self, not_false_eq_true]
  rw [State.halve, if_neg hdue]

/-- A temperature sample, up to the arrival of a tier. -/
theorem State.tempSample_samples {s1 s2 s3 : State} {rs : List (List (Option Nat))} {base : Nat}
    (h1 : s1 = (List.range 8).foldl (fun t i => t.stackSample i ((rs[i]?).getD [])) s)
    (h2 : s2 = (s1.wr F.PWR_TEMP_BASE_MAX 0 (tempCode base)).wr F.PLD_COND_ADVISORY 16 (if s1.advisory = 0 then 0 else 1))
    (h3 : s3 = (if s2.advisory ≠ s2.advSet ∧ s2.advFree = true then s2.raiseAdvisory else s2)) :
    s.tempSample rs base = if s3.ready ∧ s3.rawTier ≠ s.rawTier then s3.tierArrives else s3 := by
  simp only [State.tempSample, ← h1, ← h2, ← h3]

theorem State.patinaSample_samples {s1 s2 : State} {ro bond eye amps : List (Option Nat)} {p1 p2 p3 : Patina}
    (hmgc : s.mgcRuns = true) (h1 : s1 = (List.range 8).foldl (fun t i => t.cycleMon i) s)
    (hp1 : p1 = (((s1.patina.baseMon 0 ro 8).baseMon 2 bond 8).baseMon 3 eye 13).chargeMon amps)
    (hp2 : p2 = (List.range 256).foldl (fun q v =>
      q.setScore 1 v (score (48 - s1.rdi F.TWR_VSTAT_SPARE_LEFT (v / 32) (v % 32)) 48)) p1)
    (hp3 : p3 = (List.range 8).foldl (fun q t => q.setScore 5 t (score (SMap.get 0 q.cycles t) 50000)) p2)
    (h2 : s2 = (State.showScores { s1 with patina := p3 }).wr F.PAT_STATUS_BAD_MON 0
      (b2n (badMon ro 8) + 4 * b2n (badMon bond 8) + 8 * b2n (badMon eye 13) + 16 * b2n (badMon amps 5))) :
    s.patinaSample ro bond eye amps = (s2.bump F.PAT_STATUS_SAMPLES 0 1).testLife := by
  simp only [State.patinaSample, hmgc, Bool.not_true, Bool.false_eq_true, if_false, ← h1, ← hp1, ← hp2, ← hp3, ← h2]

theorem State.dailyPoint_adds {p : Patina} (hmgc : s.mgcRuns = true) (hp : p = { s.patina with
      days := s.patina.days + 1
      points := (s.patina.days + 1, s.rd F.PAT_INDEX_INDEX 0) :: s.patina.points }) :
    s.dailyPoint = State.patLifeUpdate { s with patina := p } := by
  rw [State.dailyPoint, hmgc, hp]
  rfl

/-- Settles O40. -/
theorem timedEventsComplete : Obligations.TimedEventsComplete := by
  refine ⟨fun s h0 hper hnew => runs_next (State.halve_due h0 hper hnew),
    fun s s1 s2 s3 rs base h1 h2 h3 => ⟨fun hstay => runs_next ((State.tempSample_samples h1 h2 h3).trans (if_neg ?stay)),
      fun hready hmoves => runs_next ((State.tempSample_samples h1 h2 h3).trans (if_pos ⟨hready, hmoves⟩))⟩,
    fun s hset hfree hnew => runs_next (if_pos ⟨hset, hfree, hnew⟩),
    fun s k => ⟨_, rfl, rfl, rfl, rfl, rfl⟩,
    fun s s1 s2 ro bond eye amps p1 p2 p3 hmgc h1 hp1 hp2 hp3 h2 =>
      runs_next (State.patinaSample_samples hmgc h1 hp1 hp2 hp3 h2),
    fun s p hmgc hp => runs_next (State.dailyPoint_adds hmgc hp), fun s o t ht => runs_next ?dump⟩
  case stay =>
    rintro ⟨hready, hmoves⟩
    obtain hnot | hsame := hstay
    · exact absurd hready (by simp [hnot])
    · exact hmoves hsame
  case dump => simp only [ht]

/-! ## Background ticks, the Assay, and the ENGINE reset -/

theorem State.bgTick_serves {s1 : State} {l : Nat} {output : List Byte} (hready : s.ready = true)
    (hlane : isEngineLane l = true) (hpwr : s.pwr ≠ pwStandby) (hkind : s.frame = none ∨ s.kindNow l = .background)
    (hret : l < 0x100 → s.retired l = false)
    (h1 : s1 = { s with bgTicks := SMap.put 0 s.bgTicks l (SMap.get 0 s.bgTicks l + 1) }) (hover : s1.overrun l = none) :
    s.bgTick l output = (s1.serveTurn l (SMap.get 0 s.bgTicks l % 8) output).countBg l := by
  have hgo : ¬(s.ready = false ∨ isEngineLane l = false ∨ s.rd F.PWR_STATUS_STATE 0 = 2 ∨
      (l < 0x100 ∧ s.retired l = true)) := by
    rintro (h | h | h | ⟨hl, h⟩)
    · exact absurd hready (by simp [h])
    · exact absurd hlane (by simp [h])
    · exact hpwr h
    · exact absurd (hret hl) (by simp [h])
  have hserve : s.frame.isNone = true ∨ s.kindNow l = .background := by simpa using hkind
  subst h1
  rw [State.bgTick, if_neg hgo]
  simp only [hserve, if_true, hover]

theorem State.twRetire_retires {t v : Nat} {fe : Option Nat} (hop : s.opBusy .twr t = false)
    (hret : s.retired (32 * t + v) = false) :
    s.twCmd t (s.twRetire t v fe) =
      ((s.wr F.TWR_CMD_STATUS_STATUS t 0).retireVault (32 * t + v)).doneFence 16 fe ⟨.twr, t⟩ none := by
  simp only [State.twCmd, hop, State.twRetire, hret, Bool.false_eq_true, if_false]
  rfl

/-- What a sweep leaves: its fence waits for the lanes that are not benched. -/
theorem State.asySweep_schedules {s1 s2 : State} {fe f : Option Nat} {ls : List Nat}
    (hls : ls = engineLanes.filter (fun l => !s.benched l)) (h1 : s1 = ls.foldl (fun t l => t.schedule l) s)
    (htake : s1.takeFence 16 fe ⟨.asy, 0⟩ = (f, s2)) :
    s.asySweep fe = f.elim s2 (fun n => if ls.isEmpty then s2.signal n none
      else { s2 with assay := { s2.assay with sweeps := s2.assay.sweeps ++ [(n, ls)] } }) := by
  simp only [State.asySweep, ← hls, ← h1, htake]
  cases f <;> rfl

/-- Without a fence a sweep only schedules its lanes. -/
theorem State.asySweep_noFence :
    s.asySweep none = (engineLanes.filter (fun l => !s.benched l)).foldl (fun t l => t.schedule l) s :=
  State.asySweep_schedules rfl rfl rfl

theorem State.asyTest_schedules {s2 : State} {b i l : Nat} {fe f : Option Nat} (hop : s.opBusy .asy 0 = false)
    (hpack : s.assay.force.isSome = true) (hl : engineLane b i = some l) (hb : s.benched l = false)
    (htake : ((s.wr F.ASY_STATUS_STATUS 0 0).schedule l).takeFence 16 fe ⟨.asy, 0⟩ = (f, s2)) :
    s.asyCmd (s.asyTest b i fe) =
      f.elim s2 (fun n => { s2 with assay := { s2.assay with tests := s2.assay.tests ++ [(n, l)] } }) := by
  have hnone : s.assay.force.isNone = false := by
    rw [← Option.not_isSome, hpack]
    rfl
  simp only [State.asyCmd, hop, Bool.false_eq_true, if_false, State.asyTest, hl, hnone, hb, htake]
  cases f <;> rfl

theorem State.sweepDue_of_interval {n : Nat} (hready : s.ready = true) (hn : n = s.rd F.ASY_CFG_INTERVAL 0 * 1000000000)
    (h0 : n ≠ 0) (hdue : s.assay.sweepNs + n ≤ s.ns) : s.sweepDue = true := by
  have hint : s.rd F.ASY_CFG_INTERVAL 0 ≠ 0 := by
    intro hzero
    rw [hzero, Nat.zero_mul] at hn
    exact h0 hn
  simp only [State.sweepDue, hready, ← hn, Bool.true_and, Bool.and_eq_true, bne_iff_ne, ne_eq, hint, not_false_eq_true,
    decide_eq_true_eq, hdue, and_self]

theorem State.rstEngine_starts {s1 : State} {b i l : Nat} {fe f : Option Nat} (hreset : s.engReset = none)
    (hl : engineLane b i = some l) (htake : s.takeFence 16 fe ⟨.twr, 8⟩ = (f, s1)) :
    s.rstEngine b i fe = { (s1.wr F.RST_ENGINE_STATUS_BUSY 0 1).wr F.RST_ENGINE_STATUS_BG_TICKS 0 0 with
      engReset := some (l, 0, f) } := by
  simp only [State.rstEngine, hreset, hl, htake]

end

theorem exec_assaySweepInterval (s : State) : exec .assaySweepInterval s = execAssaySweepInterval s := rfl

/-- Settles O41. -/
theorem towerAndAssayCommandsComplete : Obligations.TowerAndAssayCommandsComplete := by
  refine ⟨fun s s1 l output hready hlane hpwr hkind hret h1 hover =>
      runs_next (State.bgTick_serves hready hlane hpwr hkind hret h1 hover),
    fun s t v fe hready hop hret => runs_next ((State.pfDo_pf hready _).trans (State.twRetire_retires hop hret)),
    fun s s1 s2 fe f ls hready hop hpack hls h1 htake => ?sweep,
    fun s s2 b i l fe f hready hop hpack hl hb htake => ?test,
    fun s s1 n hready hn h0 hdue h1 => ?interval,
    fun s s1 b i l fe f hready hreset hl htake =>
      runs_next ((State.pfDo_pf hready _).trans (State.rstEngine_starts hreset hl htake))⟩
  case sweep =>
    have hnone : s.assay.force.isNone = false := by
      rw [← Option.not_isSome, hpack]
      rfl
    have hsweep := State.asySweep_schedules hls h1 htake
    have hrun : exec (.asySweep .pf fe) s = .next ((s.wr F.ASY_STATUS_STATUS 0 0).asySweep fe) := by
      refine runs_next ((State.pfDo_pf hready _).trans ?_)
      simp only [State.asyCmd, hop, hnone, Bool.false_eq_true, if_false]
    refine ⟨fun hf => hrun.trans (runs_next (hsweep.trans ?_)), fun n hf hempty => hrun.trans (runs_next (hsweep.trans ?_)),
      fun n hf hsome => hrun.trans (runs_next (hsweep.trans ?_))⟩
    · rw [hf, Option.elim_none]
    · simp only [hf, Option.elim_some, hempty, List.isEmpty_nil, if_true]
    · have hcons : ls.isEmpty = false := by simpa using hsome
      simp only [hf, Option.elim_some, hcons, Bool.false_eq_true, if_false]
  case test =>
    have htest := (State.pfDo_pf hready _).trans (State.asyTest_schedules hop hpack hl hb htake)
    refine ⟨fun hf => runs_next (htest.trans ?_), fun n hf => runs_next (htest.trans ?_)⟩
    · rw [hf, Option.elim_none]
    · rw [hf, Option.elim_some]
  case interval =>
    have hforce : s1.assay.force = s.assay.force := by rw [h1]
    have hrun : exec .assaySweepInterval s = .next (if s1.assay.force.isSome then s1.asySweep none else s1) := by
      rw [exec_assaySweepInterval, execAssaySweepInterval, if_pos (State.sweepDue_of_interval hready hn h0 hdue)]
      extract_lets m t0 t1
      have hm : m = n := hn.symm
      clear_value m
      have ht1 : t1 = s1 := by
        rw [h1, ← hm]
      rw [ht1]
    refine ⟨fun hpack => hrun.trans (runs_next ?_), fun hno => hrun.trans (runs_next ?_)⟩
    · rw [hforce, if_pos hpack, State.asySweep_noFence]
    · rw [hforce, hno]
      rfl

end Sys2Proof.Machine
end

section
/-! SUPPORT. The laws of the link states and of the flits (spec/16_causeway.md, R361 to R371). -/

namespace Sys2Proof.Machine
open Sys2Proof

/-- The end of a command is the state that it answers. -/
theorem ends_next {t u : State} {P : State → Prop} (h : u = t) (hP : P t) : ∃ v, (.next u : Res) = .next v ∧ P v :=
  ⟨t, runs_next h, hP⟩

section
variable {s : State} {n : Nat}

/-! ## The moves of a port -/

/-- What an event of a port does in one of its states. -/
theorem State.inPort_mem {sts : List Nat} (h : s.cwSt n ∈ sts) (t : State) : s.inPort n sts t = t :=
  if_pos (List.elem_eq_true_of_mem h)

theorem State.inPort_eq {st : Nat} (h : s.cwSt n = st) (t : State) : s.inPort n [st] t = t :=
  State.inPort_mem (by simp [h]) t

/-- A move writes the port's state, and no other register. -/
theorem State.cwMove_rd (s : State) (n st : Nat) {g : Fld} (h : g.place ≠ F.CW_STATE_STATE.place) (i : Nat) :
    (s.cwMove n st).rd g i = s.rd g i := by
  unfold State.cwMove
  extract_lets s1 s2
  have h1 : s1.rd g i = s.rd g i := by
    simp only [s1]
    split
    · rfl
    · rfl
  have h2 : s2.rd g i = s1.rd g i := by
    simp only [s2]
    split
    · rfl
    · rfl
  exact ((s2.rd_wr_place h n i st).trans h2).trans h1

/-- A move stamps the port with its time. -/
theorem State.cwMove_port (s : State) (n st : Nat) : (s.cwMove n st).port n = { s.port n with since := s.ns } := by
  unfold State.cwMove
  extract_lets s1 s2
  have h1 : s1.port n = s.port n := by
    simp only [s1]
    split
    · rfl
    · rfl
  have h2 : s2.port n = s1.port n := by
    simp only [s2]
    split
    · rfl
    · rfl
  rw [State.port_modPort, State.port_wr, h2, h1]

theorem State.modPort_rd (s : State) (n : Nat) (f : Port → Port) (g : Fld) (i : Nat) : (s.modPort n f).rd g i = s.rd g i := rfl

/-! ## Training -/

section
variable {peer rtt : Nat}

/-- A trained port of the higher device ID waits for its peer's session. -/
theorem State.trained_waits (hpeer : peer < 2 ^ 8) (hid : peer ≤ s.devId) :
    s.trained n peer rtt = (((s.cwMove n cwAuth).wr F.CW_STATE_LAT_NS n (ceilDiv rtt 2)).wr F.CW_STATE_PEER n peer).modPort n
      (fun p => { p with credits := [64, 64, 64, 64], held := [0, 0, 0, 0], anchors := trustAnchors s.trust }) := by
  unfold State.trained
  extract_lets s1
  have hdev : s1.devId = s.devId := by
    simp only [s1, State.devId, State.modPort_rd]
    rw [State.rd_wr_place _ (by decide), State.rd_wr_place _ (by decide), State.cwMove_rd _ _ _ (by decide)]
  have hrd : s1.rd F.CW_STATE_PEER n = peer := by
    simp only [s1, State.modPort_rd]
    rw [State.rd_wr_same]
    exact Nat.mod_eq_of_lt hpeer
  have hreq : s1.requester n = false := by
    simp only [State.requester, hdev, hrd, decide_eq_false_iff_not, Nat.not_lt, hid]
  rw [hreq]
  rfl

theorem State.trained_cwSt (hpeer : peer < 2 ^ 8) (hid : peer ≤ s.devId) : (s.trained n peer rtt).cwSt n = cwAuth := by
  rw [State.trained_waits hpeer hid, State.cwSt, State.modPort_rd, State.rd_wr_place _ (by decide),
    State.rd_wr_place _ (by decide)]
  exact s.cwMove_cwSt n cwAuth (by decide)

theorem State.trained_latNs (hpeer : peer < 2 ^ 8) (hlat : ceilDiv rtt 2 < 2 ^ 16) (hid : peer ≤ s.devId) :
    (s.trained n peer rtt).rd F.CW_STATE_LAT_NS n = ceilDiv rtt 2 := by
  rw [State.trained_waits hpeer hid, State.modPort_rd, State.rd_wr_place _ (by decide), State.rd_wr_same]
  exact Nat.mod_eq_of_lt hlat

theorem State.trained_peer (hpeer : peer < 2 ^ 8) (hid : peer ≤ s.devId) :
    (s.trained n peer rtt).rd F.CW_STATE_PEER n = peer := by
  rw [State.trained_waits hpeer hid, State.modPort_rd, State.rd_wr_same]
  exact Nat.mod_eq_of_lt hpeer

theorem State.trained_port (hpeer : peer < 2 ^ 8) (hid : peer ≤ s.devId) : (s.trained n peer rtt).port n =
    { s.port n with since := s.ns, credits := [64, 64, 64, 64], held := [0, 0, 0, 0], anchors := trustAnchors s.trust } := by
  rw [State.trained_waits hpeer hid, State.port_modPort, State.port_wr, State.port_wr, State.cwMove_port]

end

/-! ## Authentication -/

theorem State.keyed_cwSt (s : State) (n : Nat) (x : Session) : (s.keyed n x).cwSt n = cwKeyed := by
  rw [State.keyed, State.cwSt, State.modPort_rd, State.rd_wr_same]
  rfl

theorem State.keyed_port (s : State) (n : Nat) (x : Session) : (s.keyed n x).port n =
    { s.port n with txSn := 0, rxSn := 0, retry := [], keyFlits := 0, nakOut := false, nakRun := 0
                    txKey := x.txKey, txSalt := x.txSalt, rxKey := x.rxKey, rxSalt := x.rxSalt } := by
  rw [State.keyed, State.port_modPort, State.port_wr]

theorem State.linkUp_keyed (h : s.cwSt n = cwKeyed) :
    s.linkUp n = ((s.cwMove n cwUp).bump F.CW_STATE_UPS n 1).modPort n (fun p => { p with keepNs := s.ns, keepSent := s.ns }) :=
  State.inPort_eq h _

theorem State.linkUp_cwSt (h : s.cwSt n = cwKeyed) : (s.linkUp n).cwSt n = cwUp := by
  rw [State.linkUp_keyed h, State.cwSt, State.modPort_rd, State.bump, State.rd_wr_place _ (by decide)]
  exact s.cwMove_cwSt n cwUp (by decide)

theorem State.linkUp_keepNs (h : s.cwSt n = cwKeyed) : ((s.linkUp n).port n).keepNs = s.ns := by
  rw [State.linkUp_keyed h, State.port_modPort]

end

/-- Settles O42. -/
theorem linkStateEventsComplete : Obligations.LinkStateEventsComplete := by
  refine ⟨fun s n hst heff huse => ends_next (if_pos ⟨hst, heff, huse⟩) (s.cwMove_cwSt n cwSeek (by decide)),
    fun s n hst => ends_next (State.inPort_eq hst _) (s.cwMove_cwSt n cwTrain (by decide)),
    fun s n hst hdue => ends_next (if_pos ⟨hst, hdue⟩)
      ⟨s.cwMove_cwSt n cwSeek (by decide), congrArg Port.since (s.cwMove_port n cwSeek)⟩,
    fun s n number peer domain rtt hst => ⟨fun hdom => runs_next ((State.inPort_eq hst _).trans (if_pos hdom)),
      fun hdom => ⟨runs_next ((State.inPort_eq hst _).trans (if_neg hdom)),
        runs_next ((State.inPort_eq hst _).trans (if_neg hdom))⟩⟩,
    fun s n peer rtt hpeer hlat hid => ⟨State.trained_cwSt hpeer hid, State.trained_latNs hpeer hlat hid,
      State.trained_peer hpeer hid, by rw [State.trained_port hpeer hid], by rw [State.trained_port hpeer hid]⟩,
    fun s n hst hdue => runs_next (if_pos ⟨hst, hdue⟩), fun s n hst hdue => runs_next (if_pos ⟨hst, hdue⟩),
    fun s n x hst => ⟨fun hauth => ends_next ((State.inPort_eq hst _).trans (if_pos hauth)) ?established,
      fun hauth c hc => ?failed⟩,
    fun s n b body hst hfit hopen => ends_next (if_pos ?verified) ⟨State.linkUp_cwSt hst, State.linkUp_keepNs hst⟩⟩
  case established =>
    have hport := s.keyed_port n x
    exact ⟨s.keyed_cwSt n x, congrArg Port.txSn hport, congrArg Port.rxSn hport, congrArg Port.txKey hport,
      congrArg Port.rxKey hport⟩
  case failed =>
    have hfail : s.authFail n = (s.bumpSat F.CW_CNT_HOSTILE_AUTH_FAIL n 0 1).quarantine n qcAuth := State.inPort_eq hst _
    have hnot : ¬(s.authentic n x = true) := by simp [hauth]
    obtain rfl | rfl := hc
    · exact runs_next (((State.inPort_eq hst _).trans (if_neg hnot)).trans hfail)
    · exact runs_next ((if_neg hnot).trans hfail)
  case verified => simp only [hfit, hopen, Option.isSome_some, Bool.and_self]

end Sys2Proof.Machine
end

section
/-! SUPPORT. The laws of the flits (spec/16_causeway.md, R361 to R364, R367, R370). -/

namespace Sys2Proof.Machine
open Sys2Proof

/-! ## Data flits -/

/-- The expected sequence number is none behind. -/
theorem seqBack_expected (sn : Nat) : seqBack sn (sn % 4096) = 0 := by
  unfold seqBack
  omega

section
variable {s : State} {n : Nat} {b : List Byte}

theorem State.rxData_damaged (hfit : s.flitFit n b = false) : s.rxData n b = s.sendNak n := by
  simp only [State.rxData, hfit, Bool.not_false, if_true]

theorem State.rxData_accepted {body : List Byte} (hfit : s.flitFit n b = true) (hopen : s.flitOpen n b = some body)
    (hseq : bitsOf (flitHdr b) 20 12 = (s.port n).rxSn % 4096)
    (hroom : (s.port n).held.getD (bitsOf (flitHdr b) 0 2) 0 < 64) :
    s.rxData n b = (s.linkUp n).acceptFlit n (flitHdr b) body := by
  simp only [State.rxData, hfit, hopen, hseq, seqBack_expected, hroom, Bool.not_true, Bool.false_eq_true, and_self, if_true,
    if_false]

theorem State.rxData_badTag (hfit : s.flitFit n b = true) (hopen : s.flitOpen n b = none)
    (hseq : bitsOf (flitHdr b) 20 12 = (s.port n).rxSn % 4096) :
    s.rxData n b = (s.hostile n F.CW_CNT_HOSTILE_TAG_FAIL).sendNak n := by
  simp only [State.rxData, hfit, hopen, hseq, seqBack_expected, Bool.not_true, Bool.false_eq_true, ne_eq, not_true_eq_false,
    false_and, if_false]

/-! ## Control flits -/

/-- The states that take flits. -/
theorem State.takesFlits_mem (h : s.cwSt n = cwAuth ∨ s.cwSt n = cwKeyed ∨ s.cwSt n = cwUp) :
    s.cwSt n ∈ [cwAuth, cwKeyed, cwUp] := by
  simpa using h

theorem State.control_ok {ok : Bool} (h : s.cwSt n = cwAuth ∨ s.cwSt n = cwKeyed ∨ s.cwSt n = cwUp) (hok : ok = true)
    (t : State) : s.control n ok t = t :=
  (State.inPort_mem (State.takesFlits_mem h) _).trans (if_pos hok)

theorem State.control_bad {ok : Bool} (h : s.cwSt n = cwAuth ∨ s.cwSt n = cwKeyed ∨ s.cwSt n = cwUp) (hok : ok = false)
    (t : State) : s.control n ok t = s.sendNak n :=
  (State.inPort_mem (State.takesFlits_mem h) _).trans (if_neg (by simp [hok]))

end

/-- Settles O43. -/
theorem flitEventsComplete : Obligations.FlitEventsComplete := by
  refine ⟨fun s n b body hst => ?data, fun s n b h hst hh => ?control, fun s n k hst => ?burst,
    fun s n hst hdue => runs_next ((State.inPort_eq hst _).trans (if_pos hdue)),
    fun s n hst hdue => runs_next ((State.inPort_eq hst _).trans (if_pos hdue)), fun s n key salt hst => ?update⟩
  case data =>
    have htakes := State.inPort_mem (State.takesFlits_mem hst) (s.rxData n b)
    exact ⟨fun hfit => runs_next (htakes.trans (State.rxData_damaged hfit)),
      fun hfit hopen hseq hroom => runs_next (htakes.trans (State.rxData_accepted hfit hopen hseq hroom)),
      fun hfit hopen hseq => runs_next (htakes.trans (State.rxData_badTag hfit hopen hseq))⟩
  case control =>
    subst hh
    refine ⟨fun hok hhdr hzero => runs_next (State.control_ok hst ?idle _), fun hok hseq => runs_next (State.control_ok hst ?ack _),
      fun hok hseq => runs_next (State.control_ok hst ?nak _), fun hok hhdr hzero => runs_next (State.control_ok hst ?credit _),
      fun hbad c hc => ?bad⟩
    case idle => simp only [hok, hhdr, hzero, beq_self_eq_true, Bool.and_self]
    case ack => simp only [hok, hseq, Bool.and_self]
    case nak => simp only [hok, hseq, Bool.and_self]
    case credit => simp only [hok, hhdr, hzero, beq_self_eq_true, Bool.and_self]
    case bad =>
      obtain rfl | rfl | rfl | rfl := hc
      · exact runs_next (State.control_bad hst (by simp only [hbad, Bool.false_and]) _)
      · exact runs_next (State.control_bad hst (by simp only [hbad, Bool.false_and]) _)
      · exact runs_next (State.control_bad hst (by simp only [hbad, Bool.false_and]) _)
      · exact runs_next (State.control_bad hst (by simp only [hbad, Bool.false_and]) _)
  case burst =>
    have hmem : s.cwSt n ∈ [cwTrain, cwAuth, cwKeyed, cwUp] := by simpa using hst
    exact ⟨fun h8 => runs_next ((State.inPort_mem hmem _).trans (if_pos h8)),
      fun h8 => runs_next ((State.inPort_mem hmem _).trans (if_neg (Nat.not_le.2 h8)))⟩
  case update =>
    have hmem : s.cwSt n ∈ [cwKeyed, cwUp] := by simpa using hst
    exact ⟨runs_next (State.inPort_mem hmem _), runs_next (State.inPort_mem hmem _)⟩

end Sys2Proof.Machine
end

section
/-! SUPPORT. The laws of the Causeway's commands and messages (spec/16_causeway.md, R365, R372 to R377, R382 to R387; R420). -/

namespace Sys2Proof.Machine
open Sys2Proof

/-! ## Ports -/

section
variable {s : State} {n : Nat}

theorem State.cwDownPort_cwSt (h : s.cwSt n ≠ cwQuar) : (s.cwDownPort n).cwSt n = cwDown := by
  rw [State.cwDownPort, if_neg h, State.cwDiscard, State.cwSt, State.modPort_rd]
  exact s.cwMove_cwSt n cwDown (by decide)

/-- Does the second that ends keep SLOW? -/
def State.staysSlow (s : State) (n : Nat) : Bool :=
  decide (s.ns / 1000000000 = (s.port n).lateSec + 1) && decide (s.rd F.CW_POLICY_SLOW_LIMIT n ≤ s.lateGrowth n)

theorem State.secondEnd_ends (h : (s.port n).lateSec + 1 ≤ s.ns / 1000000000) :
    s.secondEnd n = (if s.staysSlow n then s else s.wr F.CW_STATE_SLOW n 0).modPort n (fun p =>
      { p with lateSec := s.ns / 1000000000, lateBase := s.rd F.CW_CNT_SVC_LATE_RCVD n }) :=
  if_neg (Nat.not_le.2 h)

theorem State.secondEnd_port (h : (s.port n).lateSec + 1 ≤ s.ns / 1000000000) : (s.secondEnd n).port n =
    { s.port n with lateSec := s.ns / 1000000000, lateBase := s.rd F.CW_CNT_SVC_LATE_RCVD n } := by
  rw [State.secondEnd_ends h, State.port_modPort]
  split
  · rfl
  · rfl

theorem State.secondEnd_slow (h : (s.port n).lateSec + 1 ≤ s.ns / 1000000000) :
    (s.secondEnd n).rd F.CW_STATE_SLOW n = if s.staysSlow n then s.rd F.CW_STATE_SLOW n else 0 := by
  rw [State.secondEnd_ends h, State.modPort_rd]
  split
  · rfl
  · rw [State.rd_wr_same, Nat.zero_mod]

theorem State.staysSlow_false (h : s.lateGrowth n < s.rd F.CW_POLICY_SLOW_LIMIT n ∨ (s.port n).lateSec + 1 < s.ns / 1000000000) :
    s.staysSlow n = false := by
  rw [State.staysSlow, Bool.and_eq_false_iff, decide_eq_false_iff_not, decide_eq_false_iff_not]
  obtain h | h := h
  · exact .inr (Nat.not_le.2 h)
  · exact .inl h.ne'

theorem State.staysSlow_true (hlim : s.rd F.CW_POLICY_SLOW_LIMIT n ≤ s.lateGrowth n)
    (hsec : s.ns / 1000000000 = (s.port n).lateSec + 1) : s.staysSlow n = true := by
  rw [State.staysSlow, Bool.and_eq_true, decide_eq_true_iff, decide_eq_true_iff]
  exact ⟨hsec, hlim⟩

/-! ## Grants -/

theorem State.grant_put (s : State) (n : Nat) (g : Grant) :
    ({ s with grants := SMap.put none s.grants n (some g) } : State).grant n = g := by
  rw [State.grant, SMap.get_put_same, Option.getD_some]

theorem State.gntWrite_grants (h : s.grantCheck (s.grant (s.rd F.CW_GNT_SEL_SLOT 0)) (grantW s.gntWords) = 0) :
    s.gntWrite.grant (s.rd F.CW_GNT_SEL_SLOT 0) = { words := s.gntWords, st := gValid, suspended := false } := by
  simp only [State.gntWrite, h, if_true]
  exact State.grant_put _ _ _

/-- A grant that is being revoked, and that no service holds, is revoked. -/
theorem State.settleGrant_revokes (hst : (s.grant n).st = gRevoking) (hfree : s.reserved n = 0) :
    ((s.settleGrant n).grant n).st = gRevoked := by
  rw [State.settleGrant]
  simp only [hst, hfree, and_self, if_true, State.grant_put]

theorem State.gntRevoke_revokes (hst : (s.grant (s.rd F.CW_GNT_SEL_SLOT 0)).st = gValid)
    (hfree : s.reserved (s.rd F.CW_GNT_SEL_SLOT 0) = 0) :
    (s.gntRevoke.grant (s.rd F.CW_GNT_SEL_SLOT 0)).st = gRevoked := by
  have hgo : ¬((s.grant (s.rd F.CW_GNT_SEL_SLOT 0)).st ≠ gValid) := not_not.2 hst
  simp only [State.gntRevoke, if_neg hgo]
  exact State.settleGrant_revokes (congrArg Grant.st (State.grant_put s _ _)) hfree

/-! ## Transit, requests and service -/

theorem State.forward_sends {s1 : State} {i : Nat} {x : Transit} {b : List Byte} (hx : s.nextTransit n = some (i, x))
    (hup : s.cwSt x.out = cwUp) (hmid : SMap.get 0 (s.port n).mid x.flit.key < 2)
    (h1 : s1 = (State.freeBuf { s with transit := s.transit.eraseIdx i } n x.flit.vc 1).modPort n
      (fun p => { p with mid := SMap.put 0 p.mid x.flit.key (if x.flit.last then 0 else 1) }))
    (hb : (if SMap.get 0 (s.port n).mid x.flit.key = 0 ∧ reqVc x.flit.vc = true
      then hopHeader (s.rd F.CW_STATE_LAT_NS n) (s.ns - x.ns) x.flit.body else some x.flit.body) = some b) :
    s.forward n = (s1.sendFlit x.out x.flit.vc x.flit.last x.flit.dst x.flit.src b).count (portCnt x.out 6) 1 := by
  simp only [State.forward, hx, if_neg hmid.ne, hup, ne_eq, not_true_eq_false, if_false, hb, ← h1]

theorem State.ingress_checks {s1 : State} {m : Msg} {b : List Byte} (hwake : s.asleep = false)
    (hm : s.takeMsg n reqVc = some (m, s1)) (hb : hopHeader (s1.rd F.CW_STATE_LAT_NS n) 0 m.body = some b) :
    s.ingress n = s1.ingressChecks m b := by
  simp only [State.ingress, hwake, Bool.false_eq_true, if_false, hm, hb]

theorem State.ingress_drops {s1 : State} {m : Msg} (hwake : s.asleep = false) (hm : s.takeMsg n reqVc = some (m, s1))
    (hb : hopHeader (s1.rd F.CW_STATE_LAT_NS n) 0 m.body = none) : s.ingress n = s1.bump F.CW_CNT_SVC_NO_ROUTE n 1 := by
  simp only [State.ingress, hwake, Bool.false_eq_true, if_false, hm, hb]

theorem State.serviceEnd_answers {s1 : State} {tag i st len : Nat} {ev : GatherEv} {v : Service} {data : List Byte}
    (hwake : s.asleep = false)
    (hi : s.services.findIdx? (fun v => v.port == n && v.tag == tag &&
      decide (v.done ≤ s.tick) && (v.status == 0 || decide (s.kindNow (0x140 + n) = .service))) = some i)
    (hv : s.services[i]? = some v) (hup : s.cwSt n = cwUp) (hcred : s.respFlits v ≤ (s.port n).credits.getD 1 0)
    (hretry : (s.port n).retry.length + s.respFlits v ≤ 256) (hcan : s.canSend n 1 = true)
    (hserve : ({ s with services := s.services.eraseIdx i } : State).serve v ev = (st, len, data, s1)) :
    s.serviceEnd n tag ev = (State.sendMsg n 1 v.src 64
      (if v.status ≠ 0 then s1 else if st = 0 then s1.countP (grantW (s.grant v.slot).words).polder 132 1
        else (s1.count (portCnt n 8) 1).countP (grantW (s.grant v.slot).words).polder 133 1)
      (leBytes 4 tag ++ leBytes 2 st ++ leBytes 2 len ++ leBytes 8 0 ++ data)).settleGrant v.slot := by
  have hgo : ¬((s.port n).credits.getD 1 0 < s.respFlits v ∨ 256 < (s.port n).retry.length + s.respFlits v ∨
      s.canSend n 1 = false) := by
    rintro (h | h | h)
    · omega
    · omega
    · exact absurd hcan (by simp [h])
  simp only [State.serviceEnd, hwake, Bool.false_eq_true, if_false, hi, hv, hup, hgo, and_false, hserve, if_true]

/-! ## Responses -/

theorem State.respHole_push (s : State) {q : Request} (hpush : q.push = true) : s.respHole q = (false, none) := by
  simp only [State.respHole, hpush, if_true]

/-- A response that is as its request asks, once its bytes are where they belong, closes the request; the last one of its
step has the step checked. -/
theorem State.response_closes {s1 s2 s3 s4 : State} {m : Msg} {q : Request} {r : Run} (hm : s.takeMsg n (· == 1) = some (m, s1))
    (h2 : s2 = s1.count (portCnt n 9) 1)
    (hq : s2.requests.find? (fun q => q.open_ && q.tag == numAt m.body 0 4) = some q)
    (hok : bitsOf (numAt m.body 4 4) 0 4 = 0) (hlen : numAt m.body 6 2 = q.len) (hr : s2.run? q.run = some r)
    (hhole : s.respHole q = (false, none)) (hbody : q.push = false → 16 + q.len ≤ m.body.length)
    (hwrite : (if q.push then (none, s2) else s2.writeVa r.ctx q.dst (slice m.body 16 q.len) false (.run r.id r.owner)) =
      (none, s3)) (h4 : s4 = (s3.closeReq q none).countP q.owner 129 1) :
    s.response n = match s4.act? q.run q.step with
      | none => s4
      | some a => match s4.descOf a with
        | (.bytes b, s5) => s5.remoteCheck a (remDesc b)
        | (.fail e, s5) => s5.failRun r.id e := by
  have hfit : ¬(q.push = false ∧ m.body.length < 16 + q.len) := fun h => absurd (hbody h.1) (Nat.not_le.2 h.2)
  simp only [State.response, hm, ← h2, hq, hok, hlen, and_self, if_true, hhole, Bool.false_eq_true, if_false, ne_eq,
    not_true_eq_false, false_or, hr, hwrite, ← h4]
  exact if_neg hfit

end

/-- Settles O44. -/
theorem causewayCommandsComplete : Obligations.CausewayCommandsComplete := by
  refine ⟨fun s n hready hup => runs_next ((State.pfDo_pf hready _).trans (if_pos hup)),
    fun s n hready hq => ends_next (State.pfDo_pf hready _) (State.cwDownPort_cwSt hq),
    fun s n hsec => ⟨_, rfl, congrArg Port.lateSec (State.secondEnd_port hsec),
      congrArg Port.lateBase (State.secondEnd_port hsec), fun hends => ?ends, fun hlim hnext => ?stays⟩,
    fun s hready hok => ends_next (State.pfDo_pf hready _) (State.gntWrite_grants hok),
    fun s hready hst hfree => ends_next (State.pfDo_pf hready _) (State.gntRevoke_revokes hst hfree),
    fun s hready => runs_next (State.pfDo_pf hready _),
    fun s s1 n i x b hx hup hmid h1 hb => runs_next (State.forward_sends hx hup hmid h1 hb),
    fun s s1 n m hwake hm => ⟨fun b hb => runs_next (State.ingress_checks hwake hm hb),
      fun hb => runs_next (State.ingress_drops hwake hm hb)⟩,
    fun s s1 n tag i st len ev v data hwake hi hv hup hcred hretry hcan hserve =>
      runs_next (State.serviceEnd_answers hwake hi hv hup hcred hretry hcan hserve),
    fun s s1 s2 n m q r hm h2 hq hok hlen hr => ?response⟩
  case ends => exact (State.secondEnd_slow hsec).trans (if_neg (by simp [State.staysSlow_false hends]))
  case stays => exact (State.secondEnd_slow hsec).trans (if_pos (State.staysSlow_true hlim hnext))
  case response =>
    refine ⟨fun s3 hpush h3 hact => runs_next ?closed, fun s3 s4 hpush hhole hbody hwrite h4 hact => runs_next ?written,
      fun s3 s4 a b hpush h3 hact hdesc => runs_next ?checked⟩
    case closed =>
      rw [State.response_closes hm h2 hq hok hlen hr (s.respHole_push hpush) (by simp [hpush]) (if_pos hpush) h3, hact]
    case written =>
      rw [State.response_closes hm h2 hq hok hlen hr hhole (fun _ => hbody) ((if_neg (by simp [hpush])).trans hwrite) h4, hact]
    case checked =>
      rw [State.response_closes hm h2 hq hok hlen hr (s.respHole_push hpush) (by simp [hpush]) (if_pos hpush) h3, hact]
      simp only [hdesc]

end Sys2Proof.Machine
end

section
/-! SUPPORT. The laws of the power states, of the removal of power and of the regulators' reports (spec/17_power_thermal.md, R391 to
R403). -/

namespace Sys2Proof.Machine
open Sys2Proof

/-! ## PWR_REQ -/

section
variable {s : State}

/-- A request for ACTIVE leaves the part ACTIVE or waking. -/
theorem pwrNext_active {p st : Nat} (h : pwrNext p 0 = some st) : st = pwActive ∨ st = pwWaking := by
  simp only [pwrNext] at h
  split at h
  · exact .inl (Option.some.inj h).symm
  split at h
  · exact .inr (Option.some.inj h).symm
  · cases h

/-- A request for less than ACTIVE leaves the part in a state of less. -/
theorem pwrNext_less {p r st : Nat} (hr : r = 1 ∨ r = 2 ∨ r = 3) (h : pwrNext p r = some st) :
    ¬(st = pwActive ∨ st = pwWaking) := by
  have hst : st = pwStandbyPending ∨ st = pwRetainPending ∨ st = pwOffPending := by
    obtain rfl | rfl | rfl := hr
    · simp only [pwrNext, Option.ite_none_right_eq_some, Option.some.injEq] at h
      exact .inl h.2.symm
    · simp only [pwrNext, Option.ite_none_right_eq_some, Option.some.injEq] at h
      exact .inr (.inl h.2.symm)
    · simp only [pwrNext, Option.ite_none_right_eq_some, Option.some.injEq] at h
      exact .inr (.inr h.2.symm)
  obtain rfl | rfl | rfl := hst
  · decide
  · decide
  · decide

theorem State.pwrReq_same {r : Nat} (h : s.rd F.PWR_REQ_STATE 0 = r) (l : Nat) :
    s.pwrReq r l = s.setLevelMaster F.PWR_REQ_LEVEL l :=
  if_pos h

theorem State.pwrReq_illegal {r : Nat} (h : s.rd F.PWR_REQ_STATE 0 ≠ r) (hnext : pwrNext s.pwr r = none) (l : Nat) :
    s.pwrReq r l = s.illegal .power 0 0x040 := by
  simp only [State.pwrReq, if_neg h, hnext]

theorem State.pwrReq_legal {s0 : State} {r st : Nat} (h : s.rd F.PWR_REQ_STATE 0 ≠ r) (hnext : pwrNext s.pwr r = some st)
    (h0 : s0 = (if s.pwr = pwStandby then { s with turn := 0 } else s)) (l : Nat) :
    s.pwrReq r l =
      if st = pwActive ∨ st = pwWaking then ((s0.wr F.PWR_REQ_STATE 0 r).pwrMove st).setLevelMaster F.PWR_REQ_LEVEL l
      else (((s0.wr F.PWR_REQ_STATE 0 r).pwrMove st).setLevelMaster F.PWR_REQ_LEVEL l).haltOps := by
  simp only [State.pwrReq, if_neg h, hnext, ← h0]

/-! ## Entering RETAIN, and the reports -/

theorem State.sensorEvent_board (s : State) (id a b : Nat) : (s.sensorEvent id a b).board = s.board := by
  unfold State.sensorEvent State.platformEvent
  split
  · rfl
  · split
    · rfl
    · rfl

theorem State.enterRetain_board (s : State) : s.enterRetain.board.retain = true ∧ s.enterRetain.board.coreEn = false ∧
    s.enterRetain.board.planes = false := by
  unfold State.enterRetain
  extract_lets s1 s2
  rw [State.wr_board, State.sensorEvent_board]
  exact ⟨rfl, rfl, rfl⟩

theorem State.enterRetain_phase (s : State) : s.enterRetain.phase = 0 :=
  State.rd_wr_same _ F.RST_BOOT_PHASE 0 0

/-- A field reads the registers only. -/
theorem State.rd_of_flds {s t : State} (h : t.flds = s.flds) (g : Fld) (i : Nat) : t.rd g i = s.rd g i := by
  simp only [State.rd, State.rdi, h]

/-- The registers that a report of `mw` milliwatts writes. -/
def State.reported (s : State) (mw : Nat) : State :=
  (((s.wr F.PWR_BOARD_POWER 0 (min 65535 (mw / 125))).bump F.PWR_BOARD_SEQ 0 1).wr F.PWR_BOARD_STALE 0 0).bump F.PWR_ENERGY_MJ 0
    ((s.energyUj + mw) / 1000)

theorem State.reported_power (s : State) (mw : Nat) : (s.reported mw).rd F.PWR_BOARD_POWER 0 = min 65535 (mw / 125) := by
  rw [State.reported, State.bump, State.rd_wr_place _ (by decide), State.rd_wr_place _ (by decide), State.bump,
    State.rd_wr_place _ (by decide), State.rd_wr_same]
  exact Nat.mod_eq_of_lt (Nat.lt_of_le_of_lt (Nat.min_le_left _ _) (by decide))

theorem State.reported_stale (s : State) (mw : Nat) : (s.reported mw).rd F.PWR_BOARD_STALE 0 = 0 := by
  rw [State.reported, State.bump, State.rd_wr_place _ (by decide), State.rd_wr_same, Nat.zero_mod]

/-- What a report leaves while the second goes on. -/
theorem State.powerReport_reports {rs : List Nat} (hmgc : s.mgcRuns = true) (hsec : s.reports < 999) :
    s.powerReport (rs.map some) =
      { s.reported rs.sum with
        energyUj := (s.energyUj + rs.sum) % 1000, peak := max s.peak (min 65535 (rs.sum / 125)), reports := s.reports + 1 } := by
  have hgood : (rs.map some).all Option.isSome = true := by simp
  have hid : (rs.map some).filterMap id = rs := by simp
  have hmore : s.reports + 1 < 1000 := by omega
  unfold State.powerReport
  simp only [hmgc, Bool.not_true, Bool.false_eq_true, if_false, hgood, hid, if_true]
  exact if_pos hmore

end

/-- Settles O45. -/
theorem powerRequestsAndEventsComplete : Obligations.PowerRequestsAndEventsComplete := by
  refine ⟨fun s l hready => runs_next ((State.pfDo_pf hready _).trans (State.pwrReq_same rfl l.val)),
    fun s s0 l c r st hready hnew hnext h0 => ?legal, fun s l c r hready hnew hnext hc => ?illegal,
    fun s hst hquiet hbound => ends_next (if_pos ⟨hst, hquiet, hbound⟩) (s.pwrMove_pwr pwStandby (by decide)),
    fun s hst => ends_next (if_pos hst) (s.pwrMove_pwr pwActive (by decide)),
    fun s hst hret hquiet hbound => ends_next (if_pos ⟨hst, hret, hquiet, hbound⟩) ?retain,
    fun s hst hquiet hbound => ends_next (if_pos ⟨hst, hquiet, hbound⟩) ?offReady,
    fun s c hc => ?removal, fun s hret hcore hgood => runs_next (if_pos ⟨hret, hcore, hgood⟩),
    fun s hmgc hrail hlow => ?railOk, fun s rs hmgc hsec => ends_next (State.powerReport_reports hmgc hsec) ?report⟩
  case legal =>
    have hreq := State.pwrReq_legal hnew hnext h0 l.val
    refine ⟨?_, fun hc => ?_⟩
    · rintro ⟨rfl, rfl⟩
      exact runs_next (((State.pfDo_pf hready _).trans hreq).trans (if_pos (pwrNext_active hnext)))
    · have hr : r = 1 ∨ r = 2 ∨ r = 3 := hc.imp And.left (Or.imp And.left And.left)
      have hless := hreq.trans (if_neg (pwrNext_less hr hnext))
      obtain ⟨rfl, rfl⟩ | ⟨rfl, rfl⟩ | ⟨rfl, rfl⟩ := hc
      · exact runs_next ((State.pfDo_pf hready _).trans hless)
      · exact runs_next ((State.pfDo_pf hready _).trans hless)
      · exact runs_next ((State.pfDo_pf hready _).trans hless)
  case illegal =>
    have hill := State.pwrReq_illegal hnew hnext l.val
    obtain ⟨rfl, rfl⟩ | ⟨rfl, rfl⟩ | ⟨rfl, rfl⟩ | ⟨rfl, rfl⟩ := hc
    · exact runs_next ((State.pfDo_pf hready _).trans hill)
    · exact runs_next ((State.pfDo_pf hready _).trans hill)
    · exact runs_next ((State.pfDo_pf hready _).trans hill)
    · exact runs_next ((State.pfDo_pf hready _).trans hill)
  case retain =>
    obtain ⟨hretain, hcore, hplanes⟩ := s.enterRetain_board
    exact ⟨hretain, hcore, hplanes, s.enterRetain_phase⟩
  case offReady =>
    refine ⟨?_, State.rd_wr_same _ F.PWR_STATUS_READY_FOR_OFF 0 1⟩
    rw [State.pwr, State.rd_wr_place _ (by decide)]
    exact s.pwrMove_pwr pwOffReady (by decide)
  case removal =>
    obtain rfl | ⟨rfl, hoff⟩ := hc
    · exact ⟨s.powerOff, rfl, rfl, rfl, rfl, rfl, rfl, rfl⟩
    · exact ends_next (if_pos hoff) ⟨rfl, rfl, rfl, rfl, rfl, rfl⟩
  case railOk =>
    have hgo : ¬(s.mgcRuns = false ∨ s.rail ≠ s.effLevel ∨ s.rd F.PWR_STATUS_RAIL_OK 0 = 1) := by
      rintro (h | h | h)
      · exact absurd hmgc (by simp [h])
      · exact h hrail
      · exact hlow h
    have hphase : (s.wr F.PWR_STATUS_RAIL_OK 0 1).ready = s.ready :=
      congrArg (· == 5) (s.rd_wr_place (f := F.PWR_STATUS_RAIL_OK) (g := F.RST_BOOT_PHASE) (by decide) 0 0 1)
    exact ⟨fun hready => runs_next ((if_neg hgo).trans (if_pos (hphase.trans hready))),
      fun hready => runs_next ((if_neg hgo).trans (if_neg (by simp [hphase, hready])))⟩
  case report =>
    refine ⟨Eq.trans (State.rd_of_flds ?_ _ _) (s.reported_power rs.sum),
      Eq.trans (State.rd_of_flds ?_ _ _) (s.reported_stale rs.sum), rfl, rfl⟩
    · rfl
    · rfl

end Sys2Proof.Machine
end

section
/-! SUPPORT. The laws of the resets' causes (spec/18_resets_hasps_longops.md, R409 to R421; R31, R38, R478). -/

namespace Sys2Proof.Machine
open Sys2Proof

section
variable {s : State}

theorem State.beginReset_cold (h : max (s.rd F.JCT_RESET_HOST_SCOPE 0) (s.rd F.JCT_RESET_MGC_SCOPE 0) = 2) (n : Nat) :
    s.beginReset n = s.coldReset :=
  if_pos h

theorem State.beginReset_warm (h : max (s.rd F.JCT_RESET_HOST_SCOPE 0) (s.rd F.JCT_RESET_MGC_SCOPE 0) < 2) (n : Nat) :
    s.beginReset n = s.warmReset n :=
  if_neg h.ne

/-- PERST# resets a part that is not in RETAIN, and wakes one that is. -/
theorem State.perst_asserted {s1 t : State} (haon : s.board.aon = true) (hperst : s.board.perst = true)
    (h1 : s1 = { s with board := { s.board with perst := false }, link := .down })
    (ht : (if s.board.retain then { s1 with board := { s1.board with coreEn := true } } else s1.beginReset 2) = t) :
    Runs .perstNAssert s t := by
  have hgo : ¬(s.board.aon = false ∨ s.board.perst = false) := by simp [haon, hperst]
  subst h1
  exact runs_next ((if_neg hgo).trans ht)

theorem State.bank_of_kept {t : State} (h : t.kept = s.kept) : t.bank = s.bank := congrArg Kept.bank h

theorem State.mgcReset_ends (s : State) : s.mgcReset.mgc.up = false ∧ s.mgcReset.mgc.held = [] ∧
    s.mgcReset.eventReceiver = none ∧ s.mgcReset.bank = s.bank := by
  refine ⟨?_, ?_, ?_, State.bank_of_kept s.mgcReset_kept⟩
  · simp only [State.mgcReset]
  · simp only [State.mgcReset]
  · simp only [State.mgcReset]

/-! ## The junction's requests -/

theorem State.junctionReset_begins (haon : s.board.aon = true) (hidle : s.resetting = false)
    (hreq : 0 < max (s.rd F.JCT_RESET_HOST_SCOPE 0) (s.rd F.JCT_RESET_MGC_SCOPE 0)) :
    s.junctionReset = (s.beginReset 5).restart := by
  refine if_neg ?_
  rintro (h | h | h)
  · exact absurd haon (by simp [h])
  · exact hreq.ne' h
  · exact absurd hidle (by simp [h])

theorem State.junctionReset_busy (hbusy : s.resetting = true) : s.junctionReset = s :=
  if_pos (.inr (.inr hbusy))

/-! ## RST_CMD -/

theorem State.rstDo_planes (h : s.board.planes = true) (t : State) : s.rstDo .pf t = t := by
  simp only [State.rstDo, h, decide_true, Bool.and_self, if_true]

theorem State.hostScope_writes {k : Nat} (h : k < 3) : s.hostScope k = s.wr F.JCT_RESET_HOST_SCOPE 0 k :=
  if_neg h.ne

theorem State.hostScope_rd {k : Nat} (h : k < 3) : (s.hostScope k).rd F.JCT_RESET_HOST_SCOPE 0 = k := by
  rw [State.hostScope_writes h, State.rd_wr_same]
  exact Nat.mod_eq_of_lt (h.trans (by decide))

theorem State.hostScope_leaves {k : Nat} (h : k = 3) : s.hostScope k = s :=
  if_pos h

end

/-- Settles O46. -/
theorem resetsComplete : Obligations.ResetsComplete := by
  refine ⟨fun s c hc haon hidle hreq => ?pending, fun s c hc hbusy => ?busy, fun s n h => State.beginReset_warm h n,
    fun s n h => State.beginReset_cold h n, fun s hcold hphase => runs_next (if_pos ⟨hcold, hphase⟩),
    fun s s1 haon hperst h1 => ⟨fun hret => State.perst_asserted haon hperst h1 (if_neg (by simp [hret])),
      fun hret => State.perst_asserted haon hperst h1 (if_pos hret)⟩,
    fun s hplanes => ⟨runs_next (if_pos hplanes), runs_next (if_pos hplanes)⟩,
    fun s p hready => runs_next (if_neg (by simp [hready])), fun s k hplanes => ?scope,
    fun s hup => ends_next (if_pos hup) s.mgcReset_ends⟩
  case pending =>
    obtain rfl | rfl := hc
    · exact runs_next (State.junctionReset_begins haon hidle hreq)
    · exact runs_next (State.junctionReset_begins haon hidle hreq)
  case busy =>
    obtain rfl | rfl := hc
    · exact runs_next (State.junctionReset_busy hbusy)
    · exact runs_next (State.junctionReset_busy hbusy)
  case scope =>
    refine ⟨fun hk => ends_next (State.rstDo_planes hplanes _) (State.hostScope_rd hk),
      fun hk => ⟨runs_next ((State.rstDo_planes hplanes _).trans (State.hostScope_leaves hk)), ?leaves⟩,
      fun hk => ?mgc, fun hk => ?absorbed⟩
    case leaves =>
      refine runs_next ((State.rstDo_planes hplanes _).trans ((if_neg (by omega)).trans ?_))
      rw [State.hostScope_leaves hk]
    case mgc =>
      refine runs_next ((State.rstDo_planes hplanes _).trans ((if_neg (by omega)).trans ?_))
      rw [State.hostScope_writes (by omega)]
    case absorbed =>
      exact runs_next ((State.rstDo_planes hplanes _).trans ((if_pos hk).trans (State.hostScope_writes (by decide))))

end Sys2Proof.Machine
end

section
/-! SUPPORT. The laws of a start and of the sideband pins (spec/23_start_up.md, R498 to R510; spec/24_package_pins.md, R520 to R526). -/

namespace Sys2Proof.Machine
open Sys2Proof

section
variable {s s1 t : State}

/-! ## Power good -/

theorem runs_pwrGoodRise {k : Fin 16} (haon : s.board.aon = true) (hgood : s.board.pwrGood = false)
    (h1 : s1 = { s with board := { s.board with pwrGood := true, strapped := true } })
    (ht : (if s.board.strapped then s1 else (s1.wr F.RST_BOOT_STRAPS 0 k.val).setPhase phMgcBoot) = t) :
    Runs (.pwrGoodRise k) s (if s.board.coldNext then t.wr F.JCT_RESET_MGC_SCOPE 0 2 else t) := by
  have hgo : ¬(s.board.aon = false ∨ s.board.pwrGood = true) := by simp [haon, hgood]
  have hcold : t.board.coldNext = s.board.coldNext := by
    subst ht h1
    split
    · rfl
    · rfl
  rw [← hcold]
  subst ht h1
  exact runs_next (if_neg hgo)

theorem runs_pwrGoodFall (hgood : s.board.pwrGood = true) : Runs .pwrGoodFall s (
    if s.board.coreEn = false then { s with board := { s.board with pwrGood := false } }
    else State.setPhase { s with
      board := { s.board with pwrGood := false, planes := false, coldNext := true, trip := false }
      runs := [], ended := [], ops := [] } phRails) :=
  runs_next (if_neg (by simp [hgood]))

/-! ## Training -/

theorem runs_stackTrainDone {t : Fin 8} (hphase : s.phase = phTrain) (hof : s.trainOf t.val < 2)
    (hsince : s.trainSince t.val ≤ trainNsMax) : Runs (.stackTrainDone t) s (
    if (s.setTrain t.val 2).board.train.all (· == 2) then (s.setTrain t.val 2).setPhase phZero else s.setTrain t.val 2) :=
  runs_next (if_pos ⟨hphase, hof, hsince⟩)

/-- A training attempt that ends late: the first is retried, the second fails the start. -/
theorem runs_trainAttemptTimeout {t : Fin 8} (hphase : s.phase = phTrain) (hsince : trainNsMax ≤ s.trainSince t.val) :
    Runs (.trainAttemptTimeout t) s (if s.trainOf t.val = 0 then
        State.wr { s with board := { s.board with
            train := s.board.train.set t.val 1, trainNs := s.board.trainNs.set t.val s.ns } }
          F.RST_BOOT_TRAIN_RETRY 0 (setBit (s.rd F.RST_BOOT_TRAIN_RETRY 0) t.val)
      else if s.trainOf t.val = 1 then
        let s1 := ((s.setTrain t.val 3).wr F.RST_BOOT_TRAIN_FAIL 0 (setBit (s.rd F.RST_BOOT_TRAIN_FAIL 0) t.val)).startFails 3
        State.setFault { s1 with patina := { s1.patina with trainFails := s1.patina.trainFails ++ [(t.val, s1.ns)] } }
          F.JCT_HEALTH_FAULT_DATA 1
      else s) := by
  refine runs_next (if_neg ?_)
  rintro (h | h)
  · exact h hphase
  · omega

/-! ## The MGC's boot -/

theorem State.mgcBoot_boots {a b : Bool} (haon : s.board.aon = true) (hstrap : s.board.strapped = true)
    (hdown : s.mgc.up = false) (h1 : s1 = (if s.board.planes then s else s.pinsStart)) :
    s.mgcBoot a b = if bitAt (s1.rd F.RST_BOOT_STRAPS 0) 3 then s1.romRecovery 2
      else (s1.bootSlot a b).elim (s1.romRecovery 1) s1.firmwareRuns := by
  have hgo : ¬(s.board.aon = false ∨ s.board.strapped = false ∨ s.mgc.up = true) := by simp [haon, hstrap, hdown]
  simp only [State.mgcBoot, if_neg hgo, ← h1]
  refine if_congr Iff.rfl rfl ?_
  generalize s1.bootSlot a b = slot
  cases slot with
  | none => rw [Option.elim_none]
  | some i => rw [Option.elim_some]

/-! ## Pins -/

section
variable {n v : Nat}

theorem State.pmxWrite_illegal (h : s.pmxLegal n v = false) : s.pmxWrite n v = s.illegal .pinmux 0 (0x040 + 8 * n) :=
  if_pos h

/-- A legal write: to a parked pin it is queued, one that moves the pin parks it, any other applies at once. -/
theorem State.pmxWrite_legal (h : s.pmxLegal n v = true)
    (h1 : s1 = (pmxFields.foldl (fun (t : State) (f : Fld) => t.wri f 0 n (bitsOf v f.lo f.width)) s).wri
      F.PMX_SB_CUR_FUNC 0 n (bitsOf v 0 4)) :
    s.pmxWrite n v = if s.rdi F.PMX_SB_PARKED 0 n = 1 then s1.wri F.PMX_SB_QUEUED 0 n 1
      else if s.rdi F.PMX_SB_FUNC 0 n ≠ bitsOf v 0 4 ∨ s.rdi F.PMX_SB_POL 0 n ≠ bitsOf v 4 1 then s1.wri F.PMX_SB_PARKED 0 n 1
      else { s1 with parkPull := SMap.put 0 s1.parkPull n (bitsOf v 5 2) } := by
  subst h1
  exact if_neg (by simp [h])

end

/-- Is an unparked pin the FRAME_SYNC_IN pin? -/
theorem frameSyncIn_iff : (List.range 8).any (fun n => s.rdi F.PMX_SB_CUR_FUNC 0 n == 7 && s.rdi F.PMX_SB_PARKED 0 n == 0) =
    true ↔ ∃ n : Fin 8, s.rdi F.PMX_SB_CUR_FUNC 0 n.val = 7 ∧ s.rdi F.PMX_SB_PARKED 0 n.val = 0 := by
  simp only [List.any_eq_true, List.mem_range, Bool.and_eq_true, beq_iff_eq]
  exact ⟨fun ⟨n, hn, h⟩ => ⟨⟨n, hn⟩, h⟩, fun ⟨n, h⟩ => ⟨n.val, n.isLt, h⟩⟩

end

/-- Settles O47. -/
theorem startUpAndPinEventsComplete : Obligations.StartUpAndPinEventsComplete := by
  refine ⟨fun s => ⟨fun haon => runs_next (if_pos haon), fun haon => runs_next (if_neg (by simp [haon]))⟩,
    fun s s1 k => ⟨fun hno => runs_next (if_pos hno), fun haon hgood h1 => ?rise⟩,
    fun s => ⟨fun hbad => runs_next (if_pos hbad), fun hgood hcore => ?fallOff, fun hgood hcore => ?fall⟩,
    fun s => ⟨fun hno => runs_next (if_pos hno), fun haon hperst => runs_next (if_neg (by simp [haon, hperst]))⟩,
    fun s => ⟨fun hmay => runs_next (if_pos hmay), fun hmay => runs_next (if_neg (by simp [hmay]))⟩,
    fun s t => ⟨fun hphase hof hsince => ⟨fun hall => ?trained, fun hall => ?training⟩, fun hno => runs_next (if_neg ?noTrain)⟩,
    fun s s1 t => ⟨fun hno => ?noAttempt, fun hphase hsince => ⟨fun h0 => ?first, fun h1 hs1 => ?second⟩⟩,
    fun s => ⟨fun hcold hphase => runs_next (if_pos ⟨hcold, hphase⟩), fun hno => runs_next (if_neg ?noZero)⟩,
    fun s => ⟨fun hperst hphase hdue => runs_next (if_pos ⟨hperst, hphase, hdue⟩), fun hno => runs_next (if_neg ?noTimeout)⟩,
    fun s s1 a b => ⟨fun hno => runs_next (if_pos hno), fun haon hstrap hdown h1 => ?boot⟩,
    fun s s1 n v hready => ⟨fun hill => runs_next ((State.pfDo_pf hready _).trans (State.pmxWrite_illegal hill)),
      fun hleg h1 => ?pin⟩,
    fun s s1 n => ⟨fun hpark hon h1 => ?parkEnd, fun hno => runs_next (if_neg ?noPark)⟩,
    fun s => ⟨fun n hfunc hpark => runs_next (if_pos (frameSyncIn_iff.2 ⟨n, hfunc, hpark⟩)),
      fun hno => runs_next (if_neg fun h => ?noEdge)⟩⟩
  case rise =>
    refine ⟨fun hstrap hcold => ?_, fun hstrap hcold => ?_, fun hstrap hcold => ?_, fun hstrap hcold => ?_⟩
    · simpa only [hstrap, hcold, Bool.false_eq_true, if_false] using runs_pwrGoodRise (k := k) haon hgood h1 rfl
    · simpa only [hstrap, hcold, Bool.false_eq_true, if_false, if_true] using runs_pwrGoodRise (k := k) haon hgood h1 rfl
    · simpa only [hstrap, hcold, Bool.false_eq_true, if_false, if_true] using runs_pwrGoodRise (k := k) haon hgood h1 rfl
    · simpa only [hstrap, hcold, if_true] using runs_pwrGoodRise (k := k) haon hgood h1 rfl
  case fallOff => exact (runs_pwrGoodFall hgood).trans (runs_next (if_pos hcore))
  case fall => exact (runs_pwrGoodFall hgood).trans (runs_next (if_neg (by simp [hcore])))
  case trained => exact (runs_stackTrainDone hphase hof hsince).trans (runs_next (if_pos hall))
  case training => exact (runs_stackTrainDone hphase hof hsince).trans (runs_next (if_neg (by simp [hall])))
  case noTrain =>
    rintro ⟨hphase, hof, hsince⟩
    obtain h | h | h := hno
    · exact h hphase
    · omega
    · omega
  case noAttempt =>
    by_cases hearly : s.phase ≠ phTrain ∨ s.trainSince t.val < trainNsMax
    · exact runs_next (if_pos hearly)
    · have h2 : 2 ≤ s.trainOf t.val := by tauto
      exact runs_next ((if_neg hearly).trans ((if_neg (by omega)).trans (if_neg (by omega))))
  case first => exact (runs_trainAttemptTimeout hphase hsince).trans (runs_next (if_pos h0))
  case second =>
    subst hs1
    exact (runs_trainAttemptTimeout hphase hsince).trans (runs_next ((if_neg (by omega)).trans (if_pos h1)))
  case noZero =>
    rintro ⟨hcold, hphase⟩
    obtain h | h := hno
    · exact absurd hcold (by simp [h])
    · exact h hphase
  case noTimeout =>
    rintro ⟨hperst, hphase, hdue⟩
    obtain h | h | h := hno
    · exact absurd hperst (by simp [h])
    · omega
    · omega
  case boot =>
    have hboot := State.mgcBoot_boots (a := a) (b := b) haon hstrap hdown h1
    refine ⟨fun hbit => runs_next (hboot.trans (if_pos hbit)), fun hbit => ?_⟩
    have hslot := hboot.trans (if_neg (by simp [hbit]))
    exact ⟨fun i hi => runs_next (hslot.trans (by rw [hi, Option.elim_some])),
      fun hi => runs_next (hslot.trans (by rw [hi, Option.elim_none]))⟩
  case pin =>
    have hwrite := (State.pfDo_pf hready _).trans (State.pmxWrite_legal hleg h1)
    refine ⟨fun hpark => runs_next (hwrite.trans (if_pos hpark)), fun hpark => ?_⟩
    have hopen := hwrite.trans (if_neg hpark)
    exact ⟨fun hmoves => runs_next (hopen.trans (if_pos hmoves)),
      fun hfunc hpol => runs_next (hopen.trans (if_neg (by simp [hfunc, hpol])))⟩
  case parkEnd =>
    subst h1
    exact runs_next (if_pos ⟨hpark, by simpa using hon⟩)
  case noPark =>
    rintro ⟨hpark, hon⟩
    obtain h | ⟨hup, hplanes⟩ := hno
    · exact h hpark
    · exact absurd hon (by simp [hup, hplanes])
  case noEdge =>
    obtain ⟨n, hfunc, hpark⟩ := frameSyncIn_iff.1 h
    exact hno n hfunc hpark

end Sys2Proof.Machine
end

section
/-! SUPPORT. The laws of the mailbox, of the effecters, and of MCTP control and PLDM (spec/22_management_hallmark.md, R477 to R492;
spec/17_power_thermal.md, R399, R401). -/

namespace Sys2Proof.Machine
open Sys2Proof

section
variable {s : State}

/-! ## The mailbox -/

/-- A mailbox command of the right length, met by a free mailbox and the MGC's firmware, does its work. -/
theorem State.mbx_acts {s1 : State} {op len need : Nat} {early act : State → State}
    (hfree : s.rd F.MBX_STATUS_BUSY 0 = 0) (hmgc : s.mgcRuns = true) (hlen : len ≤ 512) (hneed : len = need)
    (h1 : s1 = [(F.MBX_STATUS_BUSY, 1), (F.MBX_STATUS_DONE, 0), (F.MBX_STATUS_OP, op),
      (F.MBX_STATUS_GEN, s.rd F.JCT_RESET_GEN_MGMT 0)].foldl (fun (t : State) (p : Fld × Nat) => t.wr p.1 0 p.2) s) :
    s.mbx op len need .done early act = act s1 := by
  subst hneed
  have hgo : ¬(s.rd F.MBX_STATUS_BUSY 0 = 1 ∨ 512 < len) := by omega
  have hruns : s1.mgcRuns = true := by
    subst h1
    exact hmgc
  simp only [State.mbx, if_neg hgo, ← h1, hruns, Bool.true_eq_false, ne_eq, not_true_eq_false, if_false, if_true]

/-- A command of the mailbox does its work. -/
theorem runs_mbx {c : Instr} {s1 : State} {op len need : Nat} {early act : State → State} (hready : s.ready = true)
    (hfree : s.rd F.MBX_STATUS_BUSY 0 = 0) (hmgc : s.mgcRuns = true)
    (h1 : s1 = [(F.MBX_STATUS_BUSY, 1), (F.MBX_STATUS_DONE, 0), (F.MBX_STATUS_OP, op),
      (F.MBX_STATUS_GEN, s.rd F.JCT_RESET_GEN_MGMT 0)].foldl (fun (t : State) (p : Fld × Nat) => t.wr p.1 0 p.2) s)
    (hc : exec c s = .next (s.pfDo .pf (s.mbx op len need .done early act))) (hlen : len ≤ 512) (hneed : len = need) :
    Runs c s (act s1) :=
  hc.trans (runs_next ((State.pfDo_pf hready _).trans (State.mbx_acts hfree hmgc hlen hneed h1)))

/-- What the STRIKE command does once it is accepted: it strikes, and answers with its status and DETAIL. -/
def State.strikeAnswered (t : State) : State :=
  let (a, u) := t.strikeCmd
  u.mbxAnswer a.1 (leBytes 8 a.2)

theorem State.strikeAnswered_eq (t : State) :
    t.strikeAnswered = t.strikeCmd.2.mbxAnswer t.strikeCmd.1.1 (leBytes 8 t.strikeCmd.1.2) := by
  unfold State.strikeAnswered
  generalize t.strikeCmd = p
  obtain ⟨a, u⟩ := p
  rfl

theorem exec_mbxStrike (len : Nat) (cut : MbxCut) : exec (.mbxStrike .pf len cut) s =
    .next (s.pfDo .pf (s.mbx 2 len 224 cut (fun t => t.strikeEarly cut) State.strikeAnswered)) := by
  change execMbxStrike .pf len cut s = _
  unfold execMbxStrike
  unfold State.strikeAnswered
  rfl

/-! ## Effecters -/

/-- An effecter's legal write takes effect and is answered. -/
theorem State.effect_accepts {ok : Bool} (hmgc : s.mgcRuns = true) (hok : ok = true) (cmd : Nat) (t : State) :
    s.effect cmd ok t = t.pldm 2 cmd [ccOk] := by
  simp only [State.effect, hmgc, hok, Bool.true_eq_false, if_false, if_true]

/-- A fold none of whose steps changes the state leaves it. -/
theorem foldl_unchanged {α β : Type} {f : β → α → β} {l : List α} {b : β} (h : ∀ y ∈ l, f b y = b) : l.foldl f b = b := by
  induction l with
  | nil => rfl
  | cons y l ih =>
    rw [List.foldl_cons, h y List.mem_cons_self]
    exact ih fun z hz => h z (List.mem_cons_of_mem _ hz)

/-- A fold that leaves the state alone but at one element of the list does that element's step. -/
theorem foldl_only {α β : Type} {f : β → α → β} {l : List α} {a : α} (hl : l.Nodup) (ha : a ∈ l)
    (hf : ∀ (b : β), ∀ x ∈ l, x ≠ a → f b x = b) (b : β) : l.foldl f b = f b a := by
  induction l generalizing b with
  | nil => cases ha
  | cons x l ih =>
    obtain ⟨hx, hl⟩ := List.nodup_cons.1 hl
    rw [List.foldl_cons]
    obtain rfl | ha := List.mem_cons.1 ha
    · exact foldl_unchanged fun y hy => hf _ y (List.mem_cons_of_mem _ hy) fun h => hx (h ▸ hy)
    · rw [hf b x List.mem_cons_self fun h => hx (h ▸ ha)]
      exact ih hl ha (fun b y hy => hf b y (List.mem_cons_of_mem _ hy)) b

/-- The states of a zero order for polder `p` alone. -/
def zeroStates (p : Nat) : List (Option Nat) := (List.range 16).map (fun q => if q = p then some 2 else none)

theorem zeroStates_ok (p : Nat) : statesOk (zeroStates p) 16 = true := by
  have hall : ∀ x ∈ zeroStates p, (x == none || x == some 1 || x == some 2) = true := by
    intro x hx
    obtain ⟨q, -, rfl⟩ := List.mem_map.1 hx
    split
    · rfl
    · rfl
  rw [statesOk, List.all_eq_true.2 hall]
  rfl

theorem zeroStates_get (p : Nat) {q : Nat} (hq : q < 16) :
    ((zeroStates p)[q]?).getD none = if q = p then some 2 else none := by
  simp [zeroStates, hq]

/-- Settles O48. -/
theorem mailboxAndEffecterCommandsComplete : Obligations.MailboxAndEffecterCommandsComplete := by
  refine ⟨fun s s1 op hready hfree hmgc h1 => ?mailbox, fun s hmgc => ⟨fun v hcap hv => ?ceiling, fun hret => ?leave,
    fun k h1 h3 => ?scope, fun x hx => runs_next (State.effect_accepts hmgc hx _ _), fun p hp => ?zero, fun k hk => ?fault⟩⟩
  case mailbox =>
    refine ⟨fun hop => ?_, fun hop => ?_, fun hop => ?_, fun hop => ?_, fun hop => ?_, fun hop => ?_⟩
    · subst hop
      exact runs_mbx hready hfree hmgc h1 rfl (by decide) rfl
    · subst hop
      rw [← State.strikeAnswered_eq]
      exact runs_mbx (act := State.strikeAnswered) hready hfree hmgc h1 (exec_mbxStrike 224 .done) (by decide) rfl
    · subst hop
      exact runs_mbx hready hfree hmgc h1 rfl (by decide) rfl
    · subst hop
      exact runs_mbx hready hfree hmgc h1 rfl (by decide) rfl
    · subst hop
      exact runs_mbx hready hfree hmgc h1 rfl (by decide) rfl
    · subst hop
      exact runs_mbx hready hfree hmgc h1 rfl (by decide) rfl
  case ceiling => exact runs_next (State.effect_accepts hmgc (by simp [hcap, hv]) _ _)
  case leave => exact ends_next (State.effect_accepts hmgc (by simp [hret]) _ _) rfl
  case scope =>
    refine ends_next (State.effect_accepts hmgc (by simp [h1, h3]) _ _) ?_
    refine (State.rd_wr_same s F.JCT_RESET_MGC_SCOPE 0 (k - 1)).trans (Nat.mod_eq_of_lt ?_)
    exact Nat.lt_of_le_of_lt (Nat.sub_le_sub_right h3 1) (by decide)
  case zero =>
    have hfree : (List.range 16).all (fun q => ((zeroStates p.val)[q]?).getD none != some 2 || s.pst q != pFree) = true := by
      refine List.all_eq_true.2 fun q hq => ?_
      rw [zeroStates_get _ (List.mem_range.1 hq)]
      split
      next h => simp [h, hp]
      next => rfl
    refine runs_next ((State.effect_accepts hmgc (Bool.and_eq_true_iff.2 ⟨zeroStates_ok p.val, hfree⟩) _ _).trans ?_)
    refine congrArg (fun t : State => t.pldm 2 cmdStates [ccOk]) ?_
    refine (foldl_only List.nodup_range (List.mem_range.2 p.isLt) (fun t q hq hne => ?_) s).trans ?_
    · have hget := zeroStates_get p.val (List.mem_range.1 hq)
      rw [if_neg hne] at hget
      simp only [zeroStates] at hget
      simp only [hget]
    · have hget := zeroStates_get p.val p.isLt
      rw [if_pos rfl] at hget
      simp only [zeroStates] at hget
      simp only [hget]
  case fault =>
    obtain rfl | rfl := hk
    · exact runs_next (State.effect_accepts hmgc rfl _ _)
    · exact runs_next (State.effect_accepts hmgc rfl _ _)

/-! ## MCTP control and PLDM -/

theorem State.answer_up (h : s.mgc.up = true) (t : State) : s.answer t = t :=
  if_pos h

theorem State.answerRun_runs (h : s.mgcRuns = true) (t : State) : s.answerRun t = t :=
  if_pos h

theorem State.mctpSetEid_sets {e : Nat} (h8 : 8 ≤ e) (h255 : e < 255) (b : Bool) : (s.mctpSetEid b 0 e).mgc.eid b = e := by
  have hgo : ¬(1 < 0 ∨ e < 8 ∨ 255 ≤ e) := by omega
  rw [State.mctpSetEid, if_neg hgo]
  cases b with
  | false => rfl
  | true => rfl

theorem State.setTid_sets {k : Nat} (h0 : 0 < k) (h255 : k < 255) : (s.setTid k).mgc.tid = k := by
  have hgo : ¬(k = 0 ∨ 255 ≤ k) := by omega
  rw [State.setTid, if_neg hgo]
  rfl

theorem State.getPdr_record {h kind id : Nat} (h0 : 0 < h) (hrec : pdrs[h - 1]? = some (kind, id)) :
    s.getPdr h = s.fresh.2.pldm 2 0x51 [ccOk, if h < pdrs.length then h + 1 else 0, kind, id, s.fresh.1] := by
  simp only [State.getPdr, if_neg h0.ne', hrec]

theorem State.sensorReading_valid {id v : Nat} (h : s.numericSensor id = some (true, v)) :
    s.sensorReading id = s.pldm 2 0x11 [ccOk, 0, v] := by
  simp only [State.sensorReading, h]

theorem State.pldmVersion_known {k : Nat} (h : k ∈ s.pldmTypes) :
    s.pldmVersion k = s.fresh.2.pldm 0 3 [ccOk, s.fresh.1] :=
  if_pos (List.elem_eq_true_of_mem h)

end

/-- Settles O49. -/
theorem mctpAndPldmMonitoringCommandsComplete : Obligations.MctpAndPldmMonitoringCommandsComplete := by
  refine ⟨fun s hup => ⟨fun e b h8 h255 => ends_next (State.answer_up hup _) (State.mctpSetEid_sets h8 h255 b),
    fun b => runs_next (State.answer_up hup _), runs_next (State.answer_up hup _), runs_next (State.answer_up hup _),
    runs_next (State.answer_up hup _), fun k h0 h255 => ends_next (State.answer_up hup _) (State.setTid_sets h0 h255),
    fun k hk => ⟨runs_next ((State.answer_up hup _).trans (State.pldmVersion_known hk)),
      runs_next ((State.answer_up hup _).trans (if_pos (List.elem_eq_true_of_mem hk)))⟩, runs_next (State.answer_up hup _)⟩,
    fun s hmgc => ⟨fun h kind id h0 hrec => runs_next ((State.answerRun_runs hmgc _).trans (State.getPdr_record h0 hrec)),
      runs_next (State.answerRun_runs hmgc _),
      fun id v hv => runs_next ((State.answerRun_runs hmgc _).trans (State.sensorReading_valid hv)),
      fun id v hv => runs_next ((State.answerRun_runs hmgc _).trans ?state),
      fun r => ends_next (State.answerRun_runs hmgc _) rfl⟩⟩
  case state => simp only [hv]

end Sys2Proof.Machine
end

section
/-! SUPPORT. The laws of a firmware update (spec/22_management_hallmark.md, R483, R484): what a request does in the state that it needs. -/

namespace Sys2Proof.Machine
open Sys2Proof

section
variable {s : State}

theorem State.inState_mem {cmd : Nat} {states : List Nat} (h : s.mgc.upd.state ∈ states) (t : State) :
    s.inState cmd states t = t := by
  simp only [State.inState, List.elem_eq_true_of_mem h, if_true]

theorem State.requestUpdate_idle {n : Nat} (hidle : s.mgc.upd.state = upIdle) (hn : 32 ≤ n) :
    s.requestUpdate n = (s.setUpd { update0 with state := upLearn }).pldm 5 0x10 [ccOk, min 512 n] := by
  simp only [State.requestUpdate, hidle, ne_eq, not_true_eq_false, if_false, if_neg (Nat.not_lt.2 hn)]

/-- A component of the request is taken, with the lengths that the update asks for. -/
theorem State.updateComponent_ready {k n : Nat} (hready : s.mgc.upd.state = upReady) (hk : k ∈ s.mgc.upd.comps) (hn : 0 < n) :
    s.updateComponent k n = ((s.setUpd
      { s.mgc.upd with state := upDownload, comp := k, size := n, data := [], verified := false, applied := false }).pldm
        5 0x14 [ccOk, 0]).pldm 5 0x15 [0, min 512 n] := by
  have hgo : ¬(s.mgc.upd.comps.contains k = false ∨ n = 0) := by
    simpa [hk] using hn.ne'
  rw [State.updateComponent, State.inState_mem (by simp [hready])]
  exact if_neg hgo

/-- Data of the length that was asked for is added to what the update has. -/
theorem State.firmwareData_adds {bs : List Byte} (hdown : s.mgc.upd.state = upDownload)
    (hmore : s.mgc.upd.data.length < s.mgc.upd.size) (hlen : bs.length = min 512 (s.mgc.upd.size - s.mgc.upd.data.length)) :
    (s.firmwareData bs).mgc.upd.data = s.mgc.upd.data ++ bs := by
  have hgo : ¬(s.mgc.upd.state ≠ upDownload ∨ s.mgc.upd.data.length = s.mgc.upd.size) := by
    simp only [hdown, ne_eq, not_true_eq_false, false_or]
    omega
  simp only [State.firmwareData, if_neg hgo, ← hlen, ne_eq, not_true_eq_false, if_false]
  split
  · rfl
  · rfl

theorem State.transferComplete_all (hdown : s.mgc.upd.state = upDownload) (hall : s.mgc.upd.data.length = s.mgc.upd.size) :
    s.transferComplete = (s.setUpd { s.mgc.upd with state := upVerify }).pldm 5 0x16 [0] :=
  if_pos ⟨hdown, hall⟩

/-- The firmware whose signature and security version pass goes to the spare slot. -/
theorem State.verifyComplete_firmware {v n : Nat} (hstate : s.mgc.upd.state = upVerify)
    (hcomp : s.mgc.upd.comp = compFirmware) (hv : s.bank.value hmSecurity ≤ v) :
    (s.verifyComplete true v n).mgc = { s.mgc with
      upd := { s.mgc.upd with state := upApply, verified := true, image := ⟨v, n, some s.mgc.upd.data⟩ },
      slots := s.mgc.slots.set s.spareSlot ⟨v, n, some s.mgc.upd.data⟩ } := by
  simp only [State.verifyComplete, hstate, hcomp, ne_eq, not_true_eq_false, if_false, if_true, hv, decide_true,
    Bool.and_true, Bool.not_true, Bool.false_eq_true]
  rfl

/-- A pack whose CRC passes is verified; no slot changes. -/
theorem State.verifyComplete_pack {v n : Nat} {b : Bool} (hstate : s.mgc.upd.state = upVerify)
    (hcomp : s.mgc.upd.comp = compPack) (hcrc : packCrcOk s.mgc.upd.data = true) :
    (s.verifyComplete b v n).mgc = { s.mgc with
      upd := { s.mgc.upd with state := upApply, verified := true, image := ⟨v, n, some s.mgc.upd.data⟩ } } := by
  have hne : ¬(s.mgc.upd.comp = compFirmware) := by
    rw [hcomp]
    decide
  simp only [State.verifyComplete, hstate, if_neg hne, ne_eq, not_true_eq_false, if_false, hcrc, Bool.not_true,
    Bool.false_eq_true]
  rfl

theorem State.applyComplete_pack (hstate : s.mgc.upd.state = upApply) (hcomp : s.mgc.upd.comp = compPack) :
    s.applyComplete.mgc.upd.state = upReady ∧ s.applyComplete.mgc.pack = s.mgc.upd.data := by
  have hgo : ¬(s.mgc.upd.state ≠ upApply) := not_not.2 hstate
  simp only [State.applyComplete, if_neg hgo]
  exact ⟨rfl, if_pos hcomp⟩

/-- An applied update takes effect: the slot written is the preferred one. -/
theorem State.activateFirmware_applied (hready : s.mgc.upd.state = upReady) (hcomps : s.mgc.upd.comps = [])
    (happ : s.mgc.upd.applied = true) (hrec : s.mgc.recovery = false) :
    (s.activateFirmware false).mgc = { s.mgc with upd := update0, preferred := s.spareSlot } := by
  rw [State.activateFirmware, State.inState_mem (by simp [hready])]
  simp only [hcomps, ne_eq, not_true_eq_false, if_false, hrec, Bool.false_eq_true, Bool.false_and, happ, if_true]
  rfl

end

/-- Settles O50. -/
theorem firmwareUpdateCommandsComplete : Obligations.FirmwareUpdateCommandsComplete := by
  intro s hup
  have up := State.answer_up (s := s) hup
  refine ⟨runs_next (up _), runs_next (up _), fun n hidle hn => runs_next ((up _).trans (State.requestUpdate_idle hidle hn)),
    fun hlearn => ?table, fun k n hready hk hn => ?component,
    fun bs hdown hmore hlen => ends_next (up _) (State.firmwareData_adds hdown hmore hlen),
    fun hdown hall => ends_next ((up _).trans (State.transferComplete_all hdown hall)) rfl,
    fun v n hst hcomp hv => ends_next (up _) ?firmware, fun v n b hst hcomp hcrc => ends_next (up _) ?pack,
    fun hst hcomp => ends_next (up _) (State.applyComplete_pack hst hcomp),
    fun hready hcomps happ hrec => ends_next (up _) ?activate, runs_next (up _), fun hst => ?cancelComponent,
    fun hst => ?cancel⟩
  case table => exact ends_next ((up _).trans (State.inState_mem (by simp [hlearn]) _)) ⟨rfl, rfl⟩
  case component =>
    exact ends_next ((up _).trans (State.updateComponent_ready hready hk hn)) ⟨rfl, rfl, rfl, rfl⟩
  case firmware =>
    rw [State.verifyComplete_firmware hst hcomp hv]
    exact ⟨rfl, rfl, rfl⟩
  case pack =>
    rw [State.verifyComplete_pack hst hcomp hcrc]
    exact ⟨rfl, rfl⟩
  case activate =>
    rw [State.activateFirmware_applied hready hcomps happ hrec]
    exact ⟨rfl, rfl⟩
  case cancelComponent =>
    exact ends_next ((up _).trans (State.inState_mem (by simpa using hst) _)) ⟨rfl, rfl⟩
  case cancel =>
    exact ends_next ((up _).trans (State.inState_mem (by obtain h | h := hst <;> simp [h]) _)) ⟨rfl, rfl⟩

end Sys2Proof.Machine
end

section
/-! SUPPORT. The laws of the SPDM requests (spec/22_management_hallmark.md, R479, R480): a request in the phase that it needs is answered. -/

namespace Sys2Proof.Machine
open Sys2Proof

section
variable {s : State} {d : Bool}

theorem State.spdm_setSpdm (c : Spdm) : (s.setSpdm d c).spdm d = c := by
  cases d with
  | false => rfl
  | true => rfl

theorem State.spdm_spdmSay (t : State) (code : Nat) (data : List Nat) : (t.spdmSay d code data).spdm d = t.spdm d :=
  rfl

theorem State.spdm_spdmFree (t : State) (code : Nat) (data : List Nat) : (t.spdmFree d code data).spdm d = t.spdm d :=
  rfl

/-- A request that comes in the phase it needs does its work. -/
theorem State.spdmAt_reached {phase : Nat} (hmgc : s.mgcRuns = true) (h : phase ≤ (s.spdm d).phase) (t : State) :
    s.spdmAt d phase t = t := by
  rw [State.spdmAt, State.answerRun_runs hmgc]
  exact if_pos h

/-- A request of an open session does its work. -/
theorem State.inSession_open {k : Nat} (hmgc : s.mgcRuns = true) (h : 3 ≤ (s.spdm d).phase)
    (hk : (k, true) ∈ (s.spdm d).sessions) (t : State) : s.inSession d k t = t := by
  rw [State.inSession, State.spdmAt_reached hmgc h]
  exact if_pos (List.contains_iff_mem.2 hk)

theorem State.getMeasurements_all : s.getMeasurements d 0 = s.spdmFree d 0x60 [4] :=
  if_pos rfl

theorem State.getMeasurements_one {i : Nat} (h1 : 1 ≤ i) (h4 : i ≤ 4) :
    s.getMeasurements d i = s.spdmFree d 0x60 [i, ofLe (sha384 (s.measured i))] := by
  rw [State.getMeasurements, if_neg (Nat.ne_of_gt h1), if_pos ⟨h1, h4⟩]
  rfl

end

/-- Settles O51. -/
theorem spdmRequestsComplete : Obligations.SpdmRequestsComplete := by
  intro s d hmgc
  refine ⟨ends_next (State.answerRun_runs hmgc _) ?version, fun h1 => ends_next (State.spdmAt_reached hmgc h1 _) ?capabilities,
    fun h2 => ends_next ((State.spdmAt_reached hmgc h2 _).trans (if_pos (by decide))) ?algorithms, fun h3 => ?negotiated⟩
  case version =>
    rw [State.spdm_spdmSay, State.spdm_setSpdm]
    exact ⟨rfl, rfl⟩
  case capabilities =>
    rw [State.spdm_spdmSay, State.spdm_setSpdm]
    exact Nat.le_max_left _ _
  case algorithms => rw [State.spdm_spdmSay, State.spdm_setSpdm]
  case negotiated =>
    have at3 := State.spdmAt_reached hmgc h3
    refine ⟨runs_next (at3 _), runs_next ((at3 _).trans (if_pos rfl)), runs_next ((at3 _).trans (if_pos rfl)),
      runs_next ((at3 _).trans State.getMeasurements_all),
      fun i hi1 hi4 => runs_next ((at3 _).trans (State.getMeasurements_one hi1 hi4)), fun k hnew => ?exchange,
      fun k hk => ?finish, fun k hk => ⟨?heartbeat, fun n => ?keyUpdate, ?endSession⟩⟩
    case exchange =>
      have hgo : ¬((0 : Nat) ≠ 0 ∨ (s.spdm d).sessions.any (fun x => x.1 == k) = true) := by simp [hnew]
      refine ends_next ((at3 _).trans (if_neg hgo)) ?_
      rw [State.spdm_spdmFree, State.spdm_setSpdm]
    case finish =>
      have hgo : ¬((s.spdm d).sessions.contains (k, false) = false) := by simpa using hk
      refine ends_next (((at3 _).trans (if_neg hgo)).trans (if_pos rfl)) ?_
      rw [State.spdm_spdmSay, State.spdm_setSpdm]
      exact List.mem_map.2 ⟨(k, false), hk, if_pos rfl⟩
    case heartbeat => exact runs_next (State.inSession_open hmgc h3 hk _)
    case keyUpdate => exact runs_next ((State.inSession_open hmgc h3 hk _).trans (if_pos (by decide)))
    case endSession =>
      refine ends_next (State.inSession_open hmgc h3 hk _) ?_
      rw [State.spdm_spdmSay, State.spdm_setSpdm]
      intro x hx
      simpa using (List.mem_filter.1 hx).2

end Sys2Proof.Machine
end
